-- ==== Sys2Proof/Word.lean ====
section
/-! DEFINITION. The words the SH16's manual counts in: bytes, 32-bit registers, and the sparse tables that hold keyed
stores as plain data. -/

namespace Sys2Proof

/-- A byte. -/
abbrev Byte := BitVec 8

/-- A set-up register (22_register_index.md R650). -/
abbrev Word := BitVec 32

/-- A sparse store in canonical form: keys strictly rising; what an unlisted key holds is said where the store is. -/
abbrev Tbl (α : Type) := List (Nat × α)

/-- A byte-addressed store in the same form. -/
abbrev Mem := Tbl Byte

end Sys2Proof
end

