-- ==== Sys2Proof/Syntax.lean ====
section
/-! DEFINITION. The commands the SH16 takes: the operand types that its events bring, and `Instr`, one constructor for
each row of the opcode table. -/

namespace Sys2Proof

/-- What a tick-source edge comes from (02_the_tick.md R41): a Gallery frame start, or an edge of TICK_IN with the width
of its pulse in nanoseconds (the pin's filter ignores pulses shorter than 100 ns). -/
inductive EdgeSrc where
  | frame (stream : Fin 24)
  | pin (rising : Bool) (width : Nat)
  deriving DecidableEq, Repr

/-- What the link ECC of a write burst reports (03_front_door.md R112, R113). -/
inductive LinkEcc where
  | ok | corrected | uncorrectable
  deriving DecidableEq, Repr

/-- Operation of a CAS command (03_front_door.md R79): start WCK synchronisation at a data rate in MT/s, fast
synchronisation, or stop. -/
inductive CasOp where
  | sync (rate : Nat)
  | fs
  | off
  deriving DecidableEq, Repr

/-- Operation of an MPC command (03_front_door.md R79); stopping the oscillator brings the count of the delay monitor
(R96). -/
inductive MpcOp where
  | zqStart | zqLatch | oscStart
  | oscStop (count : BitVec 16)
  | other
  deriving DecidableEq, Repr

/-- What a memory code reports of a read (08_memory_tiers.md R299). -/
inductive Ecc where
  | ok | corrected | uncorrectable
  deriving DecidableEq, Repr

/-- Where a read unit lies (08_memory_tiers.md R299): a 64-byte unit of a Loft slice or Cellar channel, an 8-byte unit of a
tile's Pantry, or a Deed entry. -/
inductive MemLoc where
  | media (home : Fin 22) (unit : BitVec 29)
  | pantry (tile : Fin 16) (unit : BitVec 21)
  | deed (page : BitVec 22)
  deriving DecidableEq, Repr

/-- How a camera line arrives (12_gallery.md R383, R387, R390): whole, with a failed payload CRC, or lost to a line-store
overflow. -/
inductive LineKind where
  | good | crc | overflow
  deriving DecidableEq, Repr

/-- The header of a CSI-2 packet as it arrives on a port (12_gallery.md R381 to R383, R385): its virtual channel, the data type
where the packet's kind leaves it open, the physical lane on which each logical lane of the sender arrives, in LANE_MAP form, and
whether it has an uncorrectable ECC error of its own. -/
structure CsiHeader where
  port : Fin 12
  vc : BitVec 4
  dt : BitVec 6
  wires : BitVec 8
  bad : Bool
  deriving DecidableEq, Repr

/-- The payload of a long packet, and whether its checksum agrees (12_gallery.md R383). -/
structure CsiPayload where
  bytes : List Byte
  crcOk : Bool
  deriving DecidableEq, Repr

/-- The pins of a parallel port at one edge of PCLK (12_gallery.md R384). -/
structure PinEdge where
  data : BitVec 16
  hs : Bool
  vs : Bool
  de : Bool
  deriving DecidableEq, Repr

/-- Where a frame start, a line or a frame end comes from: a CSI-2 packet, or the pins of a parallel port (12 + `port`) over
some periods of PCLK, each with its rising and its falling edge. -/
inductive CamSrc where
  | csi (h : CsiHeader)
  | pins (port : Fin 2) (clocks : List (PinEdge × PinEdge))
  deriving DecidableEq, Repr

/-- What a window of 4,096 PDM clocks shows of one channel (13_porch.md R419): ones counted, whether the wire followed the
test pulls, and the clocks in which the channel equalled its partner's preceding half clock. -/
structure MicObs where
  ones : Nat
  follows : Bool
  same : Nat
  deriving DecidableEq, Repr

/-- One phrase's score in a Keyhole frame (13_porch.md R432), and whether the image detects the phrase end there. -/
structure KeyScore where
  score : BitVec 16
  ended : Bool
  deriving DecidableEq, Repr

/-- The four caps of 14_power.md R461, in the order of its table. -/
inductive Cap where
  | supply | battery | thermal | power
  deriving DecidableEq, Repr

/-- The two switched rail groups (14_power.md R449). -/
inductive Group where
  | main | loft
  deriving DecidableEq, Repr

/-- A finding of the self-test or of lane training at a main-die start (19_fusebox.md R610, R612), or of a residue check:
physical numbers throughout (00_scope.md R9). -/
inductive Finding where
  | laneRow (ptile : Fin 18) (bay : Fin 4) (row : Fin 66)
  | tile (ptile : Fin 18)
  | bondLane (slice : Fin 18) (sub : Fin 8) (lane : Fin 146)
  deriving DecidableEq, Repr

/-- Verdict of a rotating tile test (19_fusebox.md R607, R609). -/
inductive Verdict where
  | pass
  | laneRow (bay : Fin 4) (row : Fin 66)
  | tile
  deriving DecidableEq, Repr

/-- Outcome of a port's training, as the wire gives it (18_party_wall.md R573): lanes found faulty, and what the peer
exchanges; `checkOk` says whether the peer's check value matches. -/
structure Training where
  bad : BitVec 9
  setId : BitVec 32
  pos : Fin 4
  pc : BitVec 32
  checkOk : Bool
  deriving DecidableEq, Repr

/-- Where a management message comes from (16_study.md R522): the mailbox request area, or a datagram of the management
port; `addressed` says whether address, port and size pass R530. -/
inductive MsgSrc where
  | mailbox
  | port (addressed : Bool) (bytes : List Byte)
  deriving DecidableEq, Repr

/-- A firmware image as the judging of a set sees it (16_study.md R512, R513): the header's fields, and whether its
signatures and digest hold. -/
structure Image where
  /-- MAJOR.MINOR.PATCH, 8 bits each. -/
  version : Nat
  /-- Interface level. -/
  level : Nat
  /-- RELEASE. -/
  release : Nat
  /-- ROLLBACK. -/
  rollback : Nat
  /-- FLOOR. -/
  floor : Nat
  /-- KIND of the header. -/
  kind : Nat
  /-- The vendor signature verifies and the digest matches the body. -/
  good : Bool
  /-- SHAKE256 digest of the owner firmware key whose co-signature verifies; 0: none (17_security.md R558, R559). -/
  owner : BitVec 256 := 0
  /-- Steppings listed: 0 tolerated, 1 built. -/
  steppings : List (Nat × Nat)
  /-- COMPAT entries: partner KIND, its LEVEL, lowest and highest VERSION. -/
  compat : List (Nat × Nat × Nat × Nat)
  deriving DecidableEq, Repr

/-- A Keyhole image (13_porch.md R431): interface level, the length of each phrase in ms, size in bytes, and whether its
SHAKE256 digest is the one that it must have. -/
structure KeyImage where
  level : Nat
  phrases : List Nat
  size : Nat
  digestOk : Bool
  deriving DecidableEq, Repr

/-- A settings generation (15_resets_and_retention.md R495): its number, its field values keyed by aperture offset, its
Keyhole image and its trial limits. -/
structure Generation where
  /-- NUMBER. -/
  number : Nat
  /-- One value for every register that has a field whose Reset column is "gen" (unlisted: 0). -/
  vals : List (Nat × BitVec 32)
  /-- Keyhole image. -/
  keyhole : Option KeyImage
  /-- TRIAL_TICKS. -/
  ticks : Nat
  /-- TRIAL_STARTS. -/
  starts : Nat
  /-- Digest and owner authentication hold (R527). -/
  good : Bool
  deriving DecidableEq, Repr

/-- What the bytes staged by an update hold (16_study.md R512, R495, R431), as UPDATE_VERIFY reads them: the spec gives the
fields of an image and of a generation, not their places in the file. `digestOk` says whether the SHAKE256 digest named at
UPDATE_BEGIN matches the staged bytes (of a Keyhole image, its own field does). -/
inductive Staged where
  | image (digestOk : Bool) (i : Image)
  | generation (digestOk : Bool) (g : Generation)
  | keyhole (i : KeyImage)
  deriving DecidableEq, Repr

/-- A packet of the party-wall links (18_party_wall.md R578): header fields, payload, and whether its tag verifies under
the key of its direction. -/
structure Packet where
  /-- TYPE. -/
  type : Nat
  /-- SRC. -/
  src : Nat
  /-- DST. -/
  dst : Nat
  /-- J. -/
  job : BitVec 16
  /-- KE. -/
  ke : BitVec 16
  /-- SEQ. -/
  seq : BitVec 64
  /-- PAGE. -/
  page : BitVec 22
  /-- UNIT. -/
  unit : BitVec 10
  /-- LEN: payload units; in a READ_REQ, the units it asks for (DEDUCED). -/
  len : Nat
  /-- RTAG. -/
  rtag : BitVec 16
  /-- STATUS. -/
  status : Byte
  /-- TARGET. -/
  target : BitVec 2
  /-- Payload bytes, in the clear. -/
  payload : List Byte
  deriving DecidableEq, Repr
/-- A fault report on its way to the classifier (19_fusebox.md R590, R593): class code (R604), level as raised, unit and
detail of the record, and whether its "Active while" condition holds. -/
structure Report where
  /-- CLASS code. -/
  cls : Byte
  /-- LEVEL as raised: 0 to 3 for L1 to L4. -/
  level : Fin 4
  /-- UNIT (R605). -/
  unit : BitVec 16
  /-- DETAIL (R592). -/
  detail : BitVec 64
  /-- The class has an "Active while" condition and it holds. -/
  persistent : Bool
  deriving DecidableEq, Repr

/-- A command of the SH16: one constructor for each row of the opcode table, with the instant at which it comes (in
nanoseconds since POR) and the operands that the event itself brings. -/
inductive Instr where
  /-- TIMER_BOUNDARY (R41): With source 0 the internal timer reaches PERIOD_US after the previous boundary and a tick boundary occurs. -/
  | timerBoundary (t : Nat)
  /-- TICK_SOURCE_EDGE (R43): A Gallery frame start or TICK_IN edge arrives; it becomes a boundary if it falls outside the early window, and is otherwise ignored and counted. -/
  | tickSourceEdge (t : Nat) (src : EdgeSrc)
  /-- SUBSTITUTE_BOUNDARY (R44): No accepted edge has arrived by p × (1 + w), so the internal timer issues a substitute boundary and may raise the L2 TICK_SOURCE fault. -/
  | substituteBoundary (t : Nat)
  /-- VEHICLE_TIME_BOUNDARY (R54): With source 3, vehicle time reaches an instant congruent to PHASE_US modulo PERIOD_US and a boundary occurs. -/
  | vehicleTimeBoundary (t : Nat)
  /-- TICK_CTRL_WRITE (R50): A write to TK_CTRL enables or disables boundaries, or re-arms the selected tick source. -/
  | tickCtrlWrite (t : Nat) (v : Word)
  /-- TK_NUMBER_LO_READ (R73): A read of TK_NUMBER_LO returns tick number bits [31:0] and latches bits [63:32] into TK_NUMBER_HI. -/
  | tkNumberLoRead (t : Nat)
  /-- SYNC_LOST (R55): Vehicle-time synchronisation is lost; boundaries continue in holdover and a TICK_SOURCE note is raised. -/
  | syncLost (t : Nat)
  /-- SYNC_REPORTED (R56): The Study reports synchronisation, and boundaries are slewed onto vehicle-time instants. -/
  | syncReported (t : Nat) (vt : BitVec 64)
  /-- BACKGROUND_PHASE_START (R63): Every wing of TICK_WT has completed, dropped or carried its Tick work, so the background phase begins under BG_WT. -/
  | backgroundPhaseStart (t : Nat)
  /-- BUDGET_EXPIRY (R68): A wing's budget expires with Tick work incomplete, and its drop, carry or escalate policy applies. -/
  | budgetExpiry (t : Nat) (wing : Fin 4)
  /-- URGENT_LIMIT_EXPIRY (R71): Urgent work still runs LIMIT_US after admission and is stopped at its quantum with status URGENT_LIMIT. -/
  | urgentLimitExpiry (t : Nat)
  /-- ACT (R81): An ACT command opens a row and fills the bank's row buffer from pending write-backs, spill or the window slice. -/
  | act (t : Nat) (ch : Fin 4) (bank : Fin 16) (row : Fin 8192)
  /-- RD16 (R79): RD16 returns 32 bytes from the row buffer at the programmed read latency. -/
  | rd16 (t : Nat) (ch : Fin 4) (bank : Fin 16) (col : Fin 64)
  /-- RD32 (R79): RD32 returns 64 bytes from the row buffer at the programmed read latency. -/
  | rd32 (t : Nat) (ch : Fin 4) (bank : Fin 16) (col : Fin 32)
  /-- WR16 (R82): WR16 writes 32 bytes into the row buffer and sets the dirty bits of the sectors it touches. -/
  | wr16 (t : Nat) (ch : Fin 4) (bank : Fin 16) (col : Fin 64) (data : BitVec 256) (ecc : LinkEcc)
  /-- WR32 (R82): WR32 writes 64 bytes into the row buffer and sets the dirty bits of the sectors it touches. -/
  | wr32 (t : Nat) (ch : Fin 4) (bank : Fin 16) (col : Fin 32) (data : BitVec 512) (ecc : LinkEcc)
  /-- MWR (R79): A masked write updates the row buffer and leaves the masked bytes unchanged. -/
  | mwr (t : Nat) (ch : Fin 4) (bank : Fin 16) (col : Fin 64) (data : BitVec 256) (mask : BitVec 32) (ecc : LinkEcc)
  /-- PREPB (R84): PREpb closes one bank and moves its dirty sectors into the channel's write-back queue. -/
  | prepb (t : Nat) (ch : Fin 4) (bank : Fin 16)
  /-- PREAB (R84): PREab closes every bank and moves their dirty sectors into the write-back queue. -/
  | preab (t : Nat) (ch : Fin 4)
  /-- REFPB (R79): A per-bank refresh is accepted with its timing and has no other effect. -/
  | refpb (t : Nat) (ch : Fin 4) (bank : Fin 16)
  /-- REFAB (R79): An all-bank refresh is accepted with its timing and has no other effect. -/
  | refab (t : Nat) (ch : Fin 4)
  /-- RFM (R79): An RFM command is ignored. -/
  | rfm (t : Nat) (ch : Fin 4)
  /-- SRE (R105): Self-refresh entry sets the channel's HOST_AWAY bit and gates its interface clocks. -/
  | sre (t : Nat) (ch : Fin 4)
  /-- SRX (R105): Self-refresh exit clears HOST_AWAY, and the channel accepts commands after the exit time. -/
  | srx (t : Nat) (ch : Fin 4)
  /-- PDE (R79): Power-down entry; open rows stay open. -/
  | pde (t : Nat) (ch : Fin 4)
  /-- PDX (R79): Power-down exit. -/
  | pdx (t : Nat) (ch : Fin 4)
  /-- DEEP_SLEEP_ENTRY (R105): Deep-sleep entry is taken as host away, as SRE is. -/
  | deepSleepEntry (t : Nat) (ch : Fin 4)
  /-- DEEP_SLEEP_EXIT (R105): Deep-sleep exit ends host away, as SRX does. -/
  | deepSleepExit (t : Nat) (ch : Fin 4)
  /-- MRW (R96): A mode-register write stores and applies the value, or keeps the previous value for an unsupported option and raises an FD_UNSUPPORTED note. -/
  | mrw (t : Nat) (ch : Fin 4) (mr : Fin 64) (v : Byte)
  /-- MRR (R96): A mode-register read returns the value that the SH16 defines for that register. -/
  | mrr (t : Nat) (ch : Fin 4) (mr : Fin 64)
  /-- CAS (R79): A CAS command starts or stops WCK synchronisation. -/
  | cas (t : Nat) (ch : Fin 4) (op : CasOp)
  /-- WFF (R99): A training FIFO write. -/
  | wff (t : Nat) (ch : Fin 4) (data : BitVec 256)
  /-- RFF (R99): A training FIFO read. -/
  | rff (t : Nat) (ch : Fin 4)
  /-- RDC (R99): Read DQ calibration returns the patterns of MR31 to MR34. -/
  | rdc (t : Nat) (ch : Fin 4)
  /-- MPC (R79): An MPC command starts or latches ZQ, or starts or stops the oscillator; other operations are ignored. -/
  | mpc (t : Nat) (ch : Fin 4) (op : MpcOp)
  /-- NOP (R79): NOP has no effect. -/
  | nop (t : Nat) (ch : Fin 4)
  /-- DES (R79): DES has no effect. -/
  | des (t : Nat) (ch : Fin 4)
  /-- WRITEBACK_START (R84): The write-back queue starts writing its head row back to its window slice. -/
  | writebackStart (t : Nat) (ch : Fin 4)
  /-- WRITEBACK_TIMEOUT (R85): A write-back cannot reach its window slice within 2 µs, so its dirty sectors go to the spill area. -/
  | writebackTimeout (t : Nat) (ch : Fin 4)
  /-- SPILL_MERGE (R85): A row held in the spill area is merged back into its window slice. -/
  | spillMerge (t : Nat)
  /-- LPDDR_RESET (R102): The host's RESET_n falls on a channel, causing an FDR that writes back open buffers and resets the mode registers and training. -/
  | lpddrReset (t : Nat) (ch : Fin 4)
  /-- WINDOW_SCRUB (R107): The background window scrub clears the remaining scrub-pending marks after a tenant switch. -/
  | windowScrub (t : Nat)
  /-- FD_CLR_CNT (R112): Writing 1 to FD_CTRL.CLR_CNT clears FD_LINK_ERR0 to FD_LINK_ERR3 and FD_VIOL. -/
  | fdClrCnt (t : Nat) (v : Word)
  /-- SQ_TAIL_DOORBELL (R128): An SQ tail doorbell word sets a new submission tail if it is in range, and is ignored and counted otherwise. -/
  | sqTailDoorbell (t : Nat) (ch : Fin 4) (w : BitVec 64)
  /-- CQ_HEAD_DOORBELL (R129): A CQ head doorbell word frees completion slots and may end notification. -/
  | cqHeadDoorbell (t : Nat) (ch : Fin 4) (w : BitVec 64)
  /-- MARK_DOORBELL (R130): A mark doorbell word sets RG_MARKc of the channel on which it is written. -/
  | markDoorbell (t : Nat) (ch : Fin 4) (w : BitVec 64)
  /-- MAILBOX_DOORBELL (R153): A mailbox doorbell word on channel 0 submits the request in the mailbox to the Study. -/
  | mailboxDoorbell (t : Nat) (ch : Fin 4) (w : BitVec 64)
  /-- MAILBOX_REPLY (R154): The Study writes the reply body and then the header, and sets MBOX_REPLY. -/
  | mailboxReply (t : Nat)
  /-- DESCRIPTOR_READ (R132): The slot at the next index is read and accepted when INDEX and INDEX_CHK match; otherwise it is re-read within 1 µs. -/
  | descriptorRead (t : Nat) (sq : Fin 64)
  /-- ARRIVE_TIMEOUT (R133): A descriptor not accepted ARRIVE_US after its doorbell is consumed with a NOT_ARRIVED record in the error CQ. -/
  | arriveTimeout (t : Nat) (sq : Fin 64)
  /-- FENCE_TIMEOUT (R136): A fence wait exceeds FENCE_US and the descriptor completes with FENCE_TIMEOUT. -/
  | fenceTimeout (t : Nat) (sq : Fin 64)
  /-- DESCRIPTOR_ADMISSION (R139): A descriptor whose fence and completion space are satisfied is admitted in ring order and reserves one record. -/
  | descriptorAdmission (t : Nat)
  /-- STEP_LIST (R120): A STEP_LIST descriptor posts a step list in its class on its wing. -/
  | stepList (t : Nat) (sq : Fin 64)
  /-- TICK_CONTROL (R58): A TICK_CONTROL descriptor arranges the reading of a new tick table for use from tick M. -/
  | tickControl (t : Nat) (sq : Fin 64)
  /-- WING_TABLE (R165): A WING_TABLE descriptor writes one wing table for use from the next boundary, or is rejected. -/
  | wingTable (t : Nat) (sq : Fin 64)
  /-- STREAM_AWAY (R351): A STREAM_AWAY descriptor asks to lend out a stream's state once no chunk of it runs. -/
  | streamAway (t : Nat) (sq : Fin 64)
  /-- STREAM_HOME (R352): A STREAM_HOME descriptor asks to return a stream and optionally replace its state pointer or entry. -/
  | streamHome (t : Nat) (sq : Fin 64)
  /-- STREAM_EDIT_APPLY (R353): A waiting STREAM_AWAY or STREAM_HOME is applied once no chunk of the stream runs. -/
  | streamEditApply (t : Nat) (stream : Fin 16384)
  /-- INVALIDATE (R291): An INVALIDATE descriptor drops translation-cache entries of a range, or all entries, and fences walks. -/
  | invalidate (t : Nat) (sq : Fin 64)
  /-- INVALIDATE_COMPLETE (R292): Every dropped entry, earlier walk and access has finished, and the INVALIDATE completes. -/
  | invalidateComplete (t : Nat)
  /-- PLACE (R273): A PLACE descriptor places, releases, reclasses or places and zeroes the pages of a DVA range. -/
  | place (t : Nat) (sq : Fin 64)
  /-- FENCE (R121): A FENCE descriptor is admitted once every earlier descriptor of its ring has completed, and completes at once. -/
  | fence (t : Nat) (sq : Fin 64)
  /-- ARM_URGENT (R122): An ARM_URGENT descriptor arms a step list to run as Urgent work on an event. -/
  | armUrgent (t : Nat) (sq : Fin 64)
  /-- DISARM (R125): A DISARM descriptor withdraws the arming of an event. -/
  | disarm (t : Nat) (sq : Fin 64)
  /-- SEQUENCE_SET (R312): SEQUENCE action SET replaces a sequence-table entry with an image. -/
  | sequenceSet (t : Nat) (sq : Fin 64)
  /-- SEQUENCE_CLEAR (R312): SEQUENCE action CLEAR sets a sequence entry's VALID to 0. -/
  | sequenceClear (t : Nat) (sq : Fin 64)
  /-- SEQUENCE_TRUNCATE (R312): SEQUENCE action TRUNCATE sets a sequence entry's LENGTH to VALUE. -/
  | sequenceTruncate (t : Nat) (sq : Fin 64)
  /-- SEQUENCE_REBASE (R312): SEQUENCE action REBASE sets a sequence entry's POS_BASE to VALUE. -/
  | sequenceRebase (t : Nat) (sq : Fin 64)
  /-- SEQUENCE_EDIT_APPLY (R313): A waiting SEQUENCE edit is applied once no ATTENTION step is running on the entry. -/
  | sequenceEditApply (t : Nat) (entry : Fin 65536)
  /-- TENANT_SWITCH (R551): A TENANT_SWITCH descriptor stops all work, discards jobs, advances the epoch and removes power from main-die SRAMs. -/
  | tenantSwitch (t : Nat) (sq : Fin 64)
  /-- TENANT_SWITCH_COMPLETE (R551): Once power, keys, microcode and the window scrub are restored, the TENANT_SWITCH record is written with the new epoch. -/
  | tenantSwitchComplete (t : Nat)
  /-- PERF_REQUEST (R465): A PERF_REQUEST with STATE 0 sets the requested performance level from the next boundary. -/
  | perfRequest (t : Nat) (sq : Fin 64)
  /-- PERF_REQUEST_S2 (R471): A PERF_REQUEST with STATE 2 stops work, saves state and powers the main die down into S2. -/
  | perfRequestS2 (t : Nat) (sq : Fin 64)
  /-- PERF_REQUEST_S3 (R473): A PERF_REQUEST with STATE 3 runs the S2 entry and then drops the Loft group into S3. -/
  | perfRequestS3 (t : Nat) (sq : Fin 64)
  /-- SLEEP_GRACE_EXPIRY (R471): GRACE_MS after the sleep record, FD_READY falls and the main-die power-down proceeds. -/
  | sleepGraceExpiry (t : Nat)
  /-- COAL_TIMEOUT (R147): COAL_US after its first unfreed record, a CQ starts notifying and asserts its attention output. -/
  | coalTimeout (t : Nat) (cq : Fin 64)
  /-- RG_SQ_CFG_WRITE (R117): A write to RG_SQ_CFGn enables or disables a submission ring, with base checks and locked geometry while enabled. -/
  | rgSqCfgWrite (t : Nat) (n : Fin 64) (v : Word)
  /-- RG_CQ_CFG_WRITE (R148): A write to RG_CQ_CFGn configures a completion ring; clearing ENABLE ends its notification. -/
  | rgCqCfgWrite (t : Nat) (n : Fin 64) (v : Word)
  /-- RG_STATUS_ROW_WRITE (R146): A write to RG_STATUS_ROW starts or stops the ring status row, and is refused for an excluded row. -/
  | rgStatusRowWrite (t : Nat) (v : Word)
  /-- STATUS_ROW_UPDATE (R146): A ring status sector is rewritten within 2 µs of a change to the values it holds. -/
  | statusRowUpdate (t : Nat) (n : Fin 64)
  /-- ATTN_STATUS_CLEAR (R150): Writing 1 to a pending bit of RG_ATTN_STATUS clears it and may release its attention output. -/
  | attnStatusClear (t : Nat) (v : Word)
  /-- MATMUL (R210): A MATMUL step computes its share of output blocks on the tile's bays. -/
  | matmul (t : Nat) (tile : Fin 16) (fail : Option (Fin 4 × Fin 66))
  /-- CONV (R363): A CONV step runs a convolution as a matrix product on the bays. -/
  | conv (t : Nat) (tile : Fin 16) (fail : Option (Fin 4 × Fin 66))
  /-- DWCONV (R369): A DWCONV step runs a depth-wise or grouped convolution on the vector engine. -/
  | dwconv (t : Nat) (tile : Fin 16)
  /-- VECTOR (R218): A VECTOR step applies its VOP to row slabs on the vector engine. -/
  | vector (t : Nat) (tile : Fin 16)
  /-- ATTENTION (R320): An ATTENTION step appends keys and values and computes attention for its items. -/
  | attention (t : Nat) (tile : Fin 16)
  /-- SCAN (R346): A SCAN step runs one chunk of each of its streams. -/
  | scan (t : Nat) (tile : Fin 16)
  /-- SCAN_ITEM_COMPLETE (R348): A chunk completes, writes its carried-out state and advances NEXT_SEQ. -/
  | scanItemComplete (t : Nat) (tile : Fin 16)
  /-- STREAM_HOLD_TIMEOUT (R354): A held item reaches its HOLD_TICKS-th boundary and completes with a timeout status. -/
  | streamHoldTimeout (t : Nat) (tile : Fin 16)
  /-- POOL (R372): A POOL step pools windows of its input map. -/
  | pool (t : Nat) (tile : Fin 16)
  /-- CROP_RESIZE (R375): A CROP_RESIZE step samples each box of a box list into an output. -/
  | cropResize (t : Nat) (tile : Fin 16)
  /-- RESAMPLE (R377): A RESAMPLE step resizes a whole map. -/
  | resample (t : Nat) (tile : Fin 16)
  /-- GATHER (R163): A GATHER step copies the rows that an index list names. -/
  | gather (t : Nat) (tile : Fin 16)
  /-- COPY (R162): A COPY step copies 64-byte units from source to destination. -/
  | copy (t : Nat) (tile : Fin 16)
  /-- MIGRATE (R277): A MIGRATE step places, releases or reclasses the pages of a range, spread over wing ranks. -/
  | migrate (t : Nat) (tile : Fin 16)
  /-- SYNC (R162): A SYNC step only waits for and emits named tokens. -/
  | sync (t : Nat) (tile : Fin 16)
  /-- STEP_SHARE_COMPLETE (R167): A tile completes its share of a step and may start its next step. -/
  | stepShareComplete (t : Nat) (tile : Fin 16)
  /-- SLAB_CREDIT_RETURN (R170): A consumer frees a hand-off slab slot and returns a credit to the waiting producer. -/
  | slabCreditReturn (t : Nat) (tile : Fin 16)
  /-- NAMED_TOKEN_ARRIVAL (R172): A tile has received a named token's emission from every emitting tile, sets the token and releases waiting steps. -/
  | namedTokenArrival (t : Nat) (tile : Fin 16) (token : Fin 1024)
  /-- TOKEN_TIMEOUT (R175): A Background step has waited through TOKEN_TICKS boundaries for a token, and its list completes with TOKEN_TIMEOUT. -/
  | tokenTimeout (t : Nat) (tile : Fin 16)
  /-- READ_CREDIT_RETURN (R177): An outstanding 64-byte read returns and releases its read credit. -/
  | readCreditReturn (t : Nat) (tile : Fin 16) (loc : MemLoc) (ecc : Ecc)
  /-- QUANTUM_END (R179): A tile's running quantum ends while a stop request is pending, and the step stops. -/
  | quantumEnd (t : Nat) (tile : Fin 16)
  /-- BATCH_DEADLINE (R189): DEADLINE_US after its first join, an open batch is released. -/
  | batchDeadline (t : Nat) (wing : Fin 4)
  /-- LOFT_BAND_CHANGE (R258): A slice sensor crosses a band threshold and the slice's refresh band changes. -/
  | loftBandChange (t : Nat) (slice : Fin 18) (t0 t1 : BitVec 16)
  /-- CELLAR_MR4_POLL (R261): Every 16 ms each Cellar device's MR4 is read and its refresh rate set. -/
  | cellarMr4Poll (t : Nat) (ch : Fin 4) (code : Fin 4)
  /-- CELLAR_TRAINING_COMPLETE (R486): Cellar channels finish retraining after an MDR, and held accesses to Cellar pages are released. -/
  | cellarTrainingComplete (t : Nat)
  /-- PAGE_MOVE_COMPLETE (R278): A page move ends: the Deed entry takes its new home, held accesses are released and the old frame is freed. -/
  | pageMoveComplete (t : Nat) (page : BitVec 22) (bad : Option (Fin 1024))
  /-- ZEROING_COMPLETE (R283): A page's zeroing ends, any pending write is applied, and the page becomes RESIDENT. -/
  | zeroingComplete (t : Nat) (page : BitVec 22)
  /-- SCRUB_PAGE (R284): The background scrubber zeroes the next SCRUB_PENDING page in UPA order. -/
  | scrubPage (t : Nat) (bad : Option (Fin 1024))
  /-- MMU_ROOT_WRITE (R295): A write to MMU_ROOT_LO or MMU_ROOT_HI sets the root for walks begun afterwards. -/
  | mmuRootWrite (t : Nat) (hi : Bool) (v : Word)
  /-- DEED_QUERY (R305): Writing a UPA page number to DEED_QUERY loads its Deed entry into DEED_RESULT. -/
  | deedQuery (t : Nat) (v : Word)
  /-- LOFT_CLR_CNT (R304): Writing 1 to LOFT_CTRL.CLR_CNT clears every Loft error count. -/
  | loftClrCnt (t : Nat) (v : Word)
  /-- PAN_CLR_CNT (R304): Writing 1 to PAN_CTRL.CLR_CNT clears every Cellar and Pantry error count. -/
  | panClrCnt (t : Nat) (v : Word)
  /-- CLR_NAN (R228): Writing 1 to VE_CTRL.CLR_NAN clears every VE_NAN_CNT. -/
  | clrNan (t : Nat) (v : Word)
  /-- VIS_CLR_CNT (R379): Writing 1 to VIS_CTRL.CLR_CNT clears VIS_BOX_ERR. -/
  | visClrCnt (t : Nat) (v : Word)
  /-- GAL_CLR_CNT (R410): Writing 1 to GAL_CLR.CLR_CNT clears every Gallery count. -/
  | galClrCnt (t : Nat) (v : Word)
  /-- FRAME_START (R386): A frame start arrives on an input stream; FRAME advances and the frame-start event is raised. -/
  | frameStart (t : Nat) (src : CamSrc)
  /-- CSI_LINE (R387): A line arrives and is measured against EXP_W, cut or completed under LINE_POLICY, and processed. -/
  | csiLine (t : Nat) (src : CamSrc) (kind : LineKind) (px : List Nat)
  /-- EMBEDDED_DATA_PACKET (R399): An embedded-data packet is written as one row by each KIND 1 output stream of its source. -/
  | embeddedDataPacket (t : Nat) (hdr : CsiHeader) (payload : CsiPayload)
  /-- FRAME_END (R388): A frame ends at its frame end or at the next frame start, and is padded or dropped as needed, then delivered. -/
  | frameEnd (t : Nat) (src : CamSrc)
  /-- FRAME_TIMEOUT (R388): 2 × PERIOD_US after its start, a frame ends without a frame end. -/
  | frameTimeout (t : Nat) (stream : Fin 24)
  /-- FRAME_LATE (R389): No frame start has arrived by the late bound, so the late event and a GAL_LATE note are raised. -/
  | frameLate (t : Nat) (stream : Fin 24)
  /-- LANE_POLARITY_INVERT (R406): A CSI lane's HS sync byte arrives inverted, and the lane is inverted from then on. -/
  | lanePolarityInvert (t : Nat) (port : Fin 12) (lane : Fin 4)
  /-- LANE_ORDER_FAULT (R407): Two headers fail under LANE_MAP but pass under another order, so ORDER_FAULT is set and packets are discarded. -/
  | laneOrderFault (t : Nat) (port : Fin 12) (order : BitVec 8)
  /-- LANE_FAULT (R408): A data lane misses HS sync on two successive packets, so LANE_FAULT is set and a GAL_WIRE fault is raised. -/
  | laneFault (t : Nat) (port : Fin 12) (lane : Fin 4)
  /-- NO_CLOCK (R408): An enabled port receives no clock for 10 µs, so NO_CLOCK is set and a GAL_WIRE fault is raised. -/
  | noClock (t : Nat) (port : Fin 12)
  /-- GAL_STREAM_WRITE (R404): A write to a stream's registers takes effect at the next frame start; clearing ENABLE drops the frame at once; an enable may be refused. -/
  | galStreamWrite (t : Nat) (w : Fin 2048) (v : Word)
  /-- PORCH_SAMPLE (R425): An output sample is produced on every channel, written to the pre-roll ring and the beam, and POR_SAMPLE advances. -/
  | porchSample (t : Nat) (bits : List (BitVec 8 × BitVec 8))
  /-- SETTLING_END (R430): The 32 zero samples after a decimator reset end, and the end of settling is logged. -/
  | settlingEnd (t : Nat)
  /-- MIC_CHECK_WINDOW (R419): A window of 4,096 PDM clocks ends and each clocked channel's state is judged. -/
  | micCheckWindow (t : Nat) (obs : List MicObs)
  /-- SWAP_TEST_WINDOW (R421): A 1 s correlation window ends and the lags of each wire's channels are measured. -/
  | swapTestWindow (t : Nat) (level : Nat) (lags : List Int)
  /-- MUTE_WRITE (R423): A write to MUTE zeroes or restores every aligned signal from the next sample. -/
  | muteWrite (t : Nat) (m : Bool)
  /-- POR_CTRL_WRITE (R427): A write to the Porch control registers requests a Porch change or changes chain and capture settings. -/
  | porCtrlWrite (t : Nat) (w : Fin 1024) (v : Word)
  /-- POR_SAMPLE_LO_READ (R444): A read of POR_SAMPLE_LO returns bits [31:0] and latches SAMPLE_HI. -/
  | porSampleLoRead (t : Nat)
  /-- KEY_CTRL_WRITE (R418): A write to KEY_CTRL enables Keyhole scoring, and is refused at 8 or 24 kHz. -/
  | keyCtrlWrite (t : Nat) (w : Fin 1024) (v : Word)
  /-- KEYHOLE_FRAME (R432): Every 10 ms the Keyhole scores each enabled phrase, starting or ending partial matches. -/
  | keyholeFrame (t : Nat) (scores : List KeyScore)
  /-- PARTIAL_MATCH_TIMEOUT (R432): A partial match ends without a match 2.5 s after its start. -/
  | partialMatchTimeout (t : Nat) (phrase : Fin 8)
  /-- PORCH_CHANGE_DEADLINE (R429): A change has waited 2.5 s; the frame is scored, any partial match is discarded, and the changes are applied. -/
  | porchChangeDeadline (t : Nat) (scores : List KeyScore)
  /-- CHAIN_STAGE_START (R436): Once the main die is in S0 with rings enabled, a wake-chain stage's list is posted. -/
  | chainStageStart (t : Nat)
  /-- CHAIN_STAGE_COMPLETE (R437): A stage's list completes and its decision word ends, advances or repeats the chain. -/
  | chainStageComplete (t : Nat)
  /-- CHAIN_STAGE_TIMEOUT (R437): A stage has not completed TIMEOUT_MS after its first posting, and the chain ends with END 4. -/
  | chainStageTimeout (t : Nat)
  /-- FEED_RECORD (R441): At least every 10 ms the feed record is written after the frames it counts. -/
  | feedRecord (t : Nat)
  /-- PORCH_WATCHDOG (R481): The Porch watchdog expires and causes a PCR. -/
  | porchWatchdog (t : Nat)
  /-- SUPPLY_WARNING (R452): A rail crosses its warning threshold; a SUPPLY_WARN note is raised and the supply cap of P3 applies. -/
  | supplyWarning (t : Nat) (rail : Fin 11)
  /-- SUPPLY_RESET_THRESHOLD (R454): A rail crosses its reset threshold, causing an MDR or POR by group. -/
  | supplyResetThreshold (t : Nat) (rail : Fin 11)
  /-- SUPPLY_HIGH (R451): A rail stays above +6 %, raising an L2 SUPPLY_HIGH fault. -/
  | supplyHigh (t : Nat) (rail : Fin 11)
  /-- CAP_HOLD_EXPIRY (R461): A cap's hold after its cause ends expires, and the cap rises one level. -/
  | capHoldExpiry (t : Nat) (cap : Cap)
  /-- CAP_RELEASE_STEP (R461): At each release step, a releasing cap rises one further level. -/
  | capReleaseStep (t : Nat) (cap : Cap)
  /-- BATT_WARN_ASSERT (R455): BATT_WARN_N goes low after its filter, and the battery cap of P3 applies. -/
  | battWarnAssert (t : Nat)
  /-- BATT_WARN_RELEASE (R455): BATT_WARN_N returns high, and the battery cap hold begins. -/
  | battWarnRelease (t : Nat)
  /-- BATT_WARN_STUCK (R456): BATT_WARN_N has been low for BATT_STUCK_S seconds, raising an L2 fault. -/
  | battWarnStuck (t : Nat)
  /-- REFCLK_MAIN_LOST (R460): REFCLK_MAIN is absent for 2 µs; an L3 CLOCK_LOST fault is raised and the main die is held in MDR. -/
  | refclkMainLost (t : Nat)
  /-- REFCLK_AON_LOST (R460): REFCLK_AON is absent for 2 µs; the companion die moves to its internal oscillator and an L2 fault is raised. -/
  | refclkAonLost (t : Nat)
  /-- CLOCK_RETURN (R460): A lost reference clock has been present again for 1 ms, and normal clocking resumes. -/
  | clockReturn (t : Nat) (main : Bool) (found : List Finding)
  /-- AVS_COMPLETE (R462): The VDD_CORE regulator reports completion, and an upward clock change takes effect. -/
  | avsComplete (t : Nat)
  /-- POWER_CAP_EVALUATION (R461): Every 10 ms the averaged main-group power is judged against WATTS and the power cap is adjusted. -/
  | powerCapEvaluation (t : Nat) (watts : BitVec 10)
  /-- THERMAL_CAP (R466): A sensor reaches 115 °C, and the thermal cap applies at CAP_LEVEL. -/
  | thermalCap (t : Nat) (sensor : Fin 64) (temp : BitVec 16)
  /-- THERMAL_CAP_STEP (R466): Every 10 ms at 120 °C or above, the thermal cap falls one level, raising an L2 fault at P0. -/
  | thermalCapStep (t : Nat)
  /-- THERMAL_TRIP (R467): A sensor reaches 130 °C; an L4 THERMAL_TRIP fault is raised and the main and Loft groups are dropped. -/
  | thermalTrip (t : Nat) (sensor : Fin 64) (temp : BitVec 16)
  /-- TRIP_RESTART (R468): Sensors are below 105 °C and the L4 fault has cleared, so the main and Loft groups restart as at an MDR. -/
  | tripRestart (t : Nat)
  /-- DOZE_ENTRY (R470): After DOZE_US with no work, the device enters S1. -/
  | dozeEntry (t : Nat)
  /-- S3_AFTER_TIMEOUT (R475): S3_AFTER_MIN minutes in S2 without a wake move the device into S3. -/
  | s3AfterTimeout (t : Nat)
  /-- WAKE_IN_RISE (R477): WAKE_IN rises and stays high for 10 ms, which is a wake source. -/
  | wakeInRise (t : Nat)
  /-- MGMT_WAKE_EDGE (R477): A rising edge on MGMT_WAKE is a wake source. -/
  | mgmtWakeEdge (t : Nat)
  /-- WAKE_TIMER_EXPIRY (R477): PWR_WAKE_TIMER seconds after sleep entry, the wake timer wakes the device. -/
  | wakeTimerExpiry (t : Nat)
  /-- POR (R484): The companion group becomes good and the whole device starts from flash. -/
  | por (t : Nat)
  /-- RESET_N_ASSERT (R485): RESET_N low for 1 µs begins a WRM, holding both dies in reset. -/
  | resetNAssert (t : Nat)
  /-- RESET_N_RELEASE (R485): Release of RESET_N runs the start-up sequence from its second row. -/
  | resetNRelease (t : Nat) (found : List Finding)
  /-- STUDY_WATCHDOG (R504): The Study has not served its watchdog for 500 ms, which causes an STR. -/
  | studyWatchdog (t : Nat)
  /-- RST_REQ_MDR (R502): RST_REQ KIND 1 orders an MDR. -/
  | rstReqMdr (t : Nat) (v : Word)
  /-- RST_REQ_TLR (R502): RST_REQ KIND 2 orders a TLR of one logical tile. -/
  | rstReqTlr (t : Nat) (v : Word)
  /-- RST_REQ_STR (R502): RST_REQ KIND 3 orders an STR of the Study. -/
  | rstReqStr (t : Nat) (v : Word)
  /-- RST_REQ_PCR (R502): RST_REQ KIND 4 orders a PCR. -/
  | rstReqPcr (t : Nat) (v : Word)
  /-- RST_REQ_REVERT (R500): RST_REQ KIND 5 reverts to the SETTLED generation in the other slot, or is refused. -/
  | rstReqRevert (t : Nat) (v : Word)
  /-- SETUP_LOCK_SET (R653): Writing SET with KEY 0x4C to RST_LOCK sets the set-up lock. -/
  | setupLockSet (t : Nat) (v : Word)
  /-- REGISTER_WRITE (R14): A host write to a register without behaviour of its own updates its fields by their access codes and the set-up lock. -/
  | registerWrite (t : Nat) (w : Fin 262144) (v : Word)
  /-- SENSOR_SCAN (R505): Every 100 µs the Study reads all 64 temperature sensors. -/
  | sensorScan (t : Nat) (temps : BitVec 1024)
  /-- RAIL_SCAN (R507): Every 1 ms the Study reads every rail voltage and the measured currents. -/
  | railScan (t : Nat) (mv : BitVec 176) (cur : BitVec 64)
  /-- IDENTITY (R508): The IDENTITY message returns the identity page. -/
  | identity (t : Nat) (src : MsgSrc)
  /-- STATUS (R528): The STATUS message returns mode, update, reset cause and generation state. -/
  | status (t : Nat) (src : MsgSrc)
  /-- CHALLENGE (R525): The CHALLENGE message returns a 32-byte nonce for one AUTH. -/
  | challenge (t : Nat) (src : MsgSrc)
  /-- AUTH (R525): The AUTH message proves the owner secret and opens a session. -/
  | auth (t : Nat) (src : MsgSrc)
  /-- HEARTBEAT (R536): The HEARTBEAT message returns STATE and CHECK for the host's challenge. -/
  | heartbeat (t : Nat) (src : MsgSrc)
  /-- QUOTE (R563): The QUOTE message returns a signed quote of device state with the certificate. -/
  | quote (t : Nat) (src : MsgSrc)
  /-- SENSOR_READ (R528): The SENSOR_READ message returns the temperature and rail readings. -/
  | sensorRead (t : Nat) (src : MsgSrc)
  /-- LOG_READ (R528): The LOG_READ message returns up to 16 logbook entries from a given SEQ. -/
  | logRead (t : Nat) (src : MsgSrc)
  /-- UPDATE_BEGIN (R533): The UPDATE_BEGIN message starts staging an update of one kind. -/
  | updateBegin (t : Nat) (src : MsgSrc)
  /-- UPDATE_DATA (R533): The UPDATE_DATA message writes a chunk of the staged image. -/
  | updateData (t : Nat) (src : MsgSrc) (flashOk : Bool)
  /-- UPDATE_VERIFY (R533): The UPDATE_VERIFY message checks the digest, usability and compatibility, and enters verified. -/
  | updateVerify (t : Nat) (src : MsgSrc) (what : Staged)
  /-- UPDATE_COMMIT (R534): The UPDATE_COMMIT message writes the directory and raises the anti-rollback counter. -/
  | updateCommit (t : Nat) (src : MsgSrc) (flashOk : Bool)
  /-- UPDATE_ACTIVATE (R535): The UPDATE_ACTIVATE message selects a set and restarts the images that change, or activates a settings generation. -/
  | updateActivate (t : Nat) (src : MsgSrc)
  /-- UPDATE_ABORT (R533): The UPDATE_ABORT message abandons an update before commit. -/
  | updateAbort (t : Nat) (src : MsgSrc)
  /-- SETTINGS_REVERT (R500): The SETTINGS_REVERT message reverts to the other SETTLED generation. -/
  | settingsRevert (t : Nat) (src : MsgSrc)
  /-- RESET (R528): The RESET message orders an STR, MDR or PCR. -/
  | reset (t : Nat) (src : MsgSrc)
  /-- SLEEP_S3 (R475): The SLEEP_S3 message orders S3 from S2. -/
  | sleepS3 (t : Nat) (src : MsgSrc)
  /-- WAKE (R477): The WAKE message on the management port is wake source 4. -/
  | wake (t : Nat) (src : MsgSrc)
  /-- PROVISION_OWNER (R524): The PROVISION_OWNER message burns the next owner slot, re-tags settings and closes sessions. -/
  | provisionOwner (t : Nat) (src : MsgSrc)
  /-- SESSION_TIMEOUT (R526): A session closes after 600 s without a message. -/
  | sessionTimeout (t : Nat)
  /-- AUTH_LOCKOUT_END (R526): A transport's 60 s AUTH refusal ends. -/
  | authLockoutEnd (t : Nat)
  /-- GPTP_SYNC_MESSAGE (R531): An 802.1AS sync message updates the offset estimate and may report or withdraw synchronisation. -/
  | gptpSyncMessage (t : Nat) (offset : Int) (vt : BitVec 64)
  /-- GPTP_SYNC_TIMEOUT (R531): Three sync intervals pass without a message, and synchronisation is withdrawn. -/
  | gptpSyncTimeout (t : Nat)
  /-- HOST_SILENT (R538): Three heartbeat periods pass without a heartbeat, raising a HOST_SILENT note. -/
  | hostSilent (t : Nat)
  /-- LOGBOOK_FLUSH (R540): The logbook tail is written to flash every 1 s or when 64 entries wait. -/
  | logbookFlush (t : Nat)
  /-- PORT_TRAINING (R573): A party-wall port trains through polarity, lane order, lane test, width and pairing. -/
  | portTraining (t : Nat) (port : Fin 4) (r : Training)
  /-- LINK_LANE_FAULT (R574): A link lane exceeds 32 errors in 1 ms; the port retrains without it and replays unacknowledged packets. -/
  | linkLaneFault (t : Nat) (port : Fin 4) (lane : Fin 9)
  /-- PACKET_NAK (R575): A packet that failed its CRC is replayed from the sender's replay buffer. -/
  | packetNak (t : Nat) (port : Fin 4)
  /-- JOB_OPEN_WRITE (R576): Writing OPEN to PW_JOBj sends JOB_OPEN packets to every other member. -/
  | jobOpenWrite (t : Nat) (j : Fin 16) (v : Word)
  /-- JOB_CLOSE_WRITE (R577): Writing CLOSE sends JOB_CLOSE packets, waits for outstanding requests and closes the job. -/
  | jobCloseWrite (t : Nat) (j : Fin 16) (v : Word)
  /-- JOB_OPEN_TIMEOUT (R577): A peer is not open within 10 ms, so the job becomes BROKEN. -/
  | jobOpenTimeout (t : Nat) (j : Fin 16)
  /-- JOB_OPEN (R576): A received JOB_OPEN packet opens the peer once its fields match and its tag verifies. -/
  | jobOpen (t : Nat) (port : Fin 4) (p : Packet) (tagOk : Bool) (members : BitVec 4) (base : BitVec 22) (pages : BitVec 23)
  /-- JOB_CLOSE (R577): A received JOB_CLOSE packet from a member closes the job. -/
  | jobClose (t : Nat) (port : Fin 4) (p : Packet) (tagOk : Bool)
  /-- READ_REQ (R581): A received READ_REQ is served against the home's Deed entry or answered with REDIRECT. -/
  | readReq (t : Nat) (port : Fin 4) (p : Packet) (tagOk : Bool)
  /-- READ_RSP (R581): A received READ_RSP completes a remote read with its status. -/
  | readRsp (t : Nat) (port : Fin 4) (p : Packet) (tagOk : Bool)
  /-- WRITE_REQ (R581): A received WRITE_REQ is applied at the home or answered with REDIRECT. -/
  | writeReq (t : Nat) (port : Fin 4) (p : Packet) (tagOk : Bool)
  /-- WRITE_ACK (R581): A received WRITE_ACK completes a remote write with its status. -/
  | writeAck (t : Nat) (port : Fin 4) (p : Packet) (tagOk : Bool)
  /-- MOVE_DATA (R586): A received MOVE_DATA packet carries part of a page moving to this device. -/
  | moveData (t : Nat) (port : Fin 4) (p : Packet) (tagOk : Bool)
  /-- MOVE_COMMIT (R586): A received MOVE_COMMIT makes the source name the destination, free its frame and send MOVE_DONE. -/
  | moveCommit (t : Nat) (port : Fin 4) (p : Packet) (tagOk : Bool)
  /-- MOVE_DONE (R586): A received MOVE_DONE ends a move into this device. -/
  | moveDone (t : Nat) (port : Fin 4) (p : Packet) (tagOk : Bool)
  /-- REDIRECT (R582): A received REDIRECT updates the requester's entry and resends the request. -/
  | redirect (t : Nat) (port : Fin 4) (p : Packet) (tagOk : Bool)
  /-- REDIRECT_BACKOFF (R582): After three redirects the requester waits 5 µs and starts again from its own entry. -/
  | redirectBackoff (t : Nat) (rtag : BitVec 16)
  /-- PORT_DOWN (R588): A party-wall port goes down while another reaches the peer, raising PW_PORT_DOWN. -/
  | portDown (t : Nat) (port : Fin 4)
  /-- PEER_LOST (R588): No port reaches a peer; its jobs break and remote requests and moves fail with LINK_FAILED. -/
  | peerLost (t : Nat) (pos : Fin 4)
  /-- FAULT_REPORT (R593): A fault report reaches the classifier and is merged, escalated or recorded, driving pins and attention. -/
  | faultReport (t : Nat) (r : Report)
  /-- FAULT_CONDITION_END (R594): The condition of an ACTIVE record ends and ACTIVE becomes 0. -/
  | faultConditionEnd (t : Nat) (cls : Byte) (unit : BitVec 16) (detail : BitVec 64)
  /-- FB_ACK_SLOT (R598): Writing FB_ACK with KEY 0xA5 and a SLOT acknowledges that record. -/
  | fbAckSlot (t : Nat) (v : Word)
  /-- FB_ACK_ALL (R598): Writing FB_ACK with KEY 0xA5 and ALL set acknowledges every record. -/
  | fbAckAll (t : Nat) (v : Word)
  /-- ROTATING_TEST_COMPLETE (R607): A rotating tile test ends with a verdict, and a condemned unit is fenced and recorded. -/
  | rotatingTestComplete (t : Nat) (verdict : Verdict)
  /-- BOND_LANE_FAULT (R612): A Loft bond lane takes part in 16 corrected symbols within 1 ms and becomes faulty. -/
  | bondLaneFault (t : Nat) (slice : Fin 18) (sub : Fin 8) (lane : Fin 146)
  /-- GROUP_GOOD (R449): After PWR_EN_MAIN or PWR_EN_LOFT rises, every rail of that group has stayed above its warning threshold for 100 µs and the group is good. -/
  | groupGood (t : Nat) (group : Group) (found : List Finding)
  /-- MDR_GRACE_EXPIRY (R486): GRACE_MS after an ordered MDR's records are written, FD_READY falls, dirty window sectors are saved and the main die enters reset. -/
  | mdrGraceExpiry (t : Nat) (found : List Finding)
  /-- STUDY_RESTART_COMPLETE (R483): The Study finishes restarting after an STR and answers mailbox and management messages again, ending the restart conditions of R483. -/
  | studyRestartComplete (t : Nat)
  /-- WAKE_IN_FALL (R477): WAKE_IN falls below its threshold, and the change appears in PWR_STATUS.WAKE_IN and in the logbook. -/
  | wakeInFall (t : Nat)
  deriving DecidableEq, Repr

end Sys2Proof
end

