-- ==== Sys2Proof/WellFormed.lean ====
section
/-! DEFINITION. Which commands a sender can send: the operands whose types admit more than their events carry. -/

namespace Sys2Proof

/-- Bytes a datagram or an embedded-data packet can carry (its length field has 16 bits). -/
def maxPayload : Nat := 65535

/-- The operand of a message lies within what its transport carries. -/
def MsgSrc.wellFormed : MsgSrc → Bool
  | .mailbox => true
  | .port _ bytes => bytes.length ≤ maxPayload

/-- A packet carries 0 to 32 units of 64 bytes, and board positions have 2 bits (18_party_wall.md R578). -/
def Packet.wellFormed (p : Packet) : Bool :=
  p.type < 16 && p.src < 4 && p.dst < 4 && p.len ≤ 32 && p.payload.length ≤ 2048 && p.payload.length % 64 == 0
    && p.unit.toNat + p.len ≤ 1024

/-- The command's operands lie within what its event carries. -/
def Instr.wellFormed : Instr → Bool
  | .csiLine _ _ _ px => px.length ≤ maxPayload && px.all (· < 2 ^ 20)
  | .embeddedDataPacket _ _ payload => payload.bytes.length ≤ maxPayload
  | .micCheckWindow _ obs => obs.length == 16 && obs.all fun o => o.ones ≤ 4096 && o.same ≤ 4096
  | .swapTestWindow _ _ lags => lags.length == 16
  | .keyholeFrame _ scores => scores.length == 8
  | .porchChangeDeadline _ scores => scores.length == 8
  | .cas _ _ (.sync rate) => [3200, 4267, 6400, 7500, 8533].contains rate
  | .identity _ m | .status _ m | .challenge _ m | .auth _ m | .heartbeat _ m | .quote _ m | .sensorRead _ m
  | .logRead _ m | .updateBegin _ m | .updateActivate _ m | .updateAbort _ m | .settingsRevert _ m | .reset _ m
  | .sleepS3 _ m | .wake _ m | .provisionOwner _ m | .updateData _ m _ | .updateCommit _ m _
  | .updateVerify _ m _ => m.wellFormed
  | .jobOpen _ _ p _ _ _ _ | .jobClose _ _ p _ | .readReq _ _ p _ | .readRsp _ _ p _ | .writeReq _ _ p _
  | .writeAck _ _ p _ | .moveData _ _ p _ | .moveCommit _ _ p _ | .moveDone _ _ p _ | .redirect _ _ p _ =>
    p.wellFormed
  | _ => true

end Sys2Proof
end

