-- ==== Sys2Proof/Config.lean ====
section
/-! DEFINITION. What the manual leaves open: free values, each an opaque constant that no proof can see through, applied
to the model's own counter or to the operands it depends on (assumptions 3, 13 to 17, 19, 21 and 27). -/

namespace Sys2Proof.Config

/-- A free natural number (a choice among candidates, an order). -/
opaque freeNat : Nat → Nat

/-- A free choice of two. -/
opaque freeBool : Nat → Bool

/-- A free byte: what undefined data read (03_front_door.md R79, R90). -/
opaque freeByte : Nat → Byte

/-- A free word of 64 bits. -/
opaque freeWord : Nat → BitVec 64

/-- The error that the vector engine's function `fn` makes on operand `x`, in units of 2^-16 of the last place; used only
within the bound that 06_tile_arithmetic.md R219 gives. -/
opaque specialError (fn : Nat) (x : BitVec 32) : Int

/-- Where the tree of a mode 1 scan of `T` positions splits the positions `lo` to `hi` (10_state_streams.md R337: its
shape depends on the chunk length only). -/
opaque scanSplit (T lo hi : Nat) : Nat

/-- Taps of decimation stages 2, 3 and 4 on each side of the centre (13_porch.md R414, R415: the manual gives no
coefficients, and a group delay that bounds their lengths). -/
opaque decimLen (stage : Nat) : Nat

/-- Coefficient of decimation stage 2, 3 or 4 at a distance from the centre, in any unit. -/
opaque decimTap (stage distance : Nat) : Int

/-- Tap `j` of the interpolator that delays by `phase` / 64 sample, in units of 2^-16 (13_porch.md R416). -/
opaque interpTap (phase j : Nat) : Int

/-- Taps of the filter that brings the beam to 16 kHz by decimation by `m` (13_porch.md R418). -/
opaque keyLen (m : Nat) : Nat

/-- Its tap `j`, in units of 2^-16. -/
opaque keyTap (m j : Nat) : Int

/-- A quotient that is no integer is taken upwards where the Porch's filters round (the manual gives no rounding). -/
opaque roundUp (num : Int) (den : Nat) : Bool

/-- A 24-bit sample for a value outside the 24-bit range (13_porch.md R416 to R418 give none). -/
opaque outside24 (v : Int) : BitVec 24

/-- Byte `i` of the signature that key `key` (0: identity, 1: attestation) makes of `msg` at `index` (17_security.md
R557). -/
opaque signatureByte (key index : Nat) (msg : List Byte) (i : Nat) : Byte

/-- Byte `i` of the public key of `key` (17_security.md R557). -/
opaque publicKeyByte (key i : Nat) : Byte

/-- Which zero is the larger of a +0 and a -0 (06_tile_arithmetic.md R218 gives only "larger"): true for -0. -/
opaque largerZero (aNeg bNeg : Bool) : Bool

/-- What CLAMP gives for an element under a bound IMM below zero, which leaves no interval (06_tile_arithmetic.md R218 states
no result there): bits of an FP32 value. -/
opaque emptyClamp (imm a : BitVec 32) : BitVec 32

/-- The linear value that a code takes under a DECOMP that 12_gallery.md R392 does not list. -/
opaque otherDecomp (decomp code : Nat) : BitVec 24

/-- Luma (low byte) and chroma of a missing pixel of a YUV422 line under LINE_POLICY 0, whose BLACK is a linear value
(12_gallery.md R387). -/
opaque missingYuv (black column : Nat) : BitVec 16

/-- What a read-only mode register that describes the device returns where JESD209-5C alone gives its codes: MR0, and parts
of MR4 and MR8 (03_front_door.md R96). -/
opaque mrConst (mr : Nat) : Byte

/-- The minimum in nanoseconds that JESD209-5C sets, beyond those of 03_front_door.md R98's table, between a command of kind
`a` on bank `ba` and a later one of kind `b` on bank `bb` (16: no bank, or all) at a data rate. -/
opaque jedecMin (a b ba bb rate : Nat) : Nat

/-- What a byte of a unit with an uncorrectable error reads as, where a read has no step to fail (08_memory_tiers.md R299). -/
opaque badByte (key : Nat) : Byte

/-- Check byte `i` that Loft or Cellar memory (`home`) stores with a 64-byte unit of this ciphertext: the manual says what the
code corrects and detects, not which code it is (08_memory_tiers.md R299). -/
opaque checkByte (home : Nat) (cipher : List Byte) (i : Nat) : Byte

/-- Byte `i` of the SHAKE256 digest of an image, a settings generation or a Keyhole image with these header fields, whose
bytes the model does not hold (16_study.md R512, R527; 13_porch.md R431). -/
opaque digestByte (fields : List Nat) (i : Nat) : Byte

end Sys2Proof.Config
end

