-- ==== Sys2Proof/Machine/Registers.lean ====
section
/-! DEFINITION. The register tables: one `Field` for every field of every set-up register, as the chapters' tables give
it (22_register_index.md R649 to R652; 00_scope.md R13 to R16), and the list of all of them, block by block. -/

namespace Sys2Proof.Machine

/-- Access codes (00_scope.md R13). -/
inductive Access where
  | rw | ro | wo | rwl | w1c
  deriving DecidableEq, Repr

/-- The Reset column (00_scope.md R15): a value, "gen", or a record of flash, fuses or the repair ledger. -/
inductive ResetCol where
  | val (n : Nat)
  | gen
  | record
  deriving DecidableEq, Repr

/-- The Kept column (00_scope.md R16): the widest reset across which the field keeps its value. -/
inductive Kept where
  | none | tlr | mdr | wrm | por
  deriving DecidableEq, Repr

/-- A field of a register table: aperture offset of its (first) register, lowest bit, width, the strides and counts of its
indices, and the table's columns. -/
structure Field where
  off : Nat
  lo : Nat
  width : Nat
  dims : List (Nat × Nat)
  acc : Access
  rst : ResetCol
  kept : Kept
  deriving DecidableEq, Repr

/-- The field of register `i` of an indexed register. -/
def Field.ix (f : Field) (i : Nat) : Field :=
  match f.dims with
  | (stride, _) :: ds => { f with off := f.off + i * stride, dims := ds }
  | [] => f

/-- The field of register `i`, `j` of a doubly indexed register. -/
def Field.ix2 (f : Field) (i j : Nat) : Field := (f.ix i).ix j

/-- The same field `n` bits higher (the per-bay fields of BY_SPARE, 06_tile_arithmetic.md R227). -/
def Field.up (f : Field) (n : Nat) : Field := { f with lo := f.lo + n }

/-- Every single register's field that an indexed field stands for. -/
def Field.all (f : Field) : List Field :=
  match f.dims with
  | [] => [f]
  | [(s, c)] => (List.range c).map fun i => { f with off := f.off + i * s, dims := [] }
  | (s, c) :: (s2, c2) :: _ =>
    (List.range c).flatMap fun i => (List.range c2).map fun j => { f with off := f.off + i * s + j * s2, dims := [] }

/-- The field covers the register at aperture offset `o`. -/
def Field.covers (f : Field) (o : Nat) : Bool :=
  match f.dims with
  | [] => f.off == o
  | [(s, c)] => f.off ≤ o && (o - f.off) % s == 0 && (o - f.off) / s < c
  | (s, c) :: (s2, c2) :: _ =>
    f.off ≤ o && (o - f.off) / s < c && ((o - f.off) % s) % s2 == 0 && ((o - f.off) % s) / s2 < c2

/-- The field of the register at offset `o`, once `covers` holds. -/
def Field.at_ (f : Field) (o : Nat) : Field := { f with off := o, dims := [] }

end Sys2Proof.Machine

namespace Sys2Proof.Machine.Reg

/-- TK_CTRL.ENABLE (02_the_tick.md R73). -/
def tkCtrlEnable : Field := ⟨0x7000, 0, 1, [], .rwl, .gen, .tlr⟩

/-- TK_CTRL.SOURCE (02_the_tick.md R73). -/
def tkCtrlSource : Field := ⟨0x7000, 1, 2, [], .rwl, .gen, .tlr⟩

/-- TK_CTRL.GAL_STREAM (02_the_tick.md R73). -/
def tkCtrlGalStream : Field := ⟨0x7000, 3, 5, [], .rwl, .gen, .tlr⟩

/-- TK_CTRL.PIN_EDGE (02_the_tick.md R73). -/
def tkCtrlPinEdge : Field := ⟨0x7000, 8, 1, [], .rwl, .gen, .tlr⟩

/-- TK_CTRL.TOLERANCE (02_the_tick.md R73). -/
def tkCtrlTolerance : Field := ⟨0x7000, 16, 4, [], .rwl, .gen, .tlr⟩

/-- TK_CTRL.SUB_LIMIT (02_the_tick.md R73). -/
def tkCtrlSubLimit : Field := ⟨0x7000, 20, 4, [], .rwl, .gen, .tlr⟩

/-- TK_CTRL.BG_STARVE (02_the_tick.md R73). -/
def tkCtrlBgStarve : Field := ⟨0x7000, 24, 8, [], .rwl, .gen, .tlr⟩

/-- TK_PERIOD.PERIOD_US (02_the_tick.md R73). -/
def tkPeriodPeriodUs : Field := ⟨0x7004, 0, 20, [], .rwl, .gen, .tlr⟩

/-- TK_VT_PHASE.PHASE_US (02_the_tick.md R73). -/
def tkVtPhasePhaseUs : Field := ⟨0x7008, 0, 20, [], .rwl, .gen, .tlr⟩

/-- TK_URG_LIMIT.LIMIT_US (02_the_tick.md R73). -/
def tkUrgLimitLimitUs : Field := ⟨0x700c, 0, 20, [], .rwl, .gen, .tlr⟩

/-- TK_URG_LIMIT.URG_POLICY (02_the_tick.md R73). -/
def tkUrgLimitUrgPolicy : Field := ⟨0x700c, 20, 2, [], .rwl, .gen, .tlr⟩

/-- TK_LOG_BASE_LO.LOG_LO (02_the_tick.md R73). -/
def tkLogBaseLoLogLo : Field := ⟨0x7010, 11, 21, [], .rwl, .gen, .tlr⟩

/-- TK_LOG_BASE_HI.LOG_HI (02_the_tick.md R73). -/
def tkLogBaseHiLogHi : Field := ⟨0x7014, 0, 16, [], .rwl, .gen, .tlr⟩

/-- TK_NUMBER_LO.NUMBER_LO (02_the_tick.md R73). -/
def tkNumberLoNumberLo : Field := ⟨0x7018, 0, 32, [], .ro, (.val 0), .wrm⟩

/-- TK_NUMBER_HI.NUMBER_HI (02_the_tick.md R73). -/
def tkNumberHiNumberHi : Field := ⟨0x701c, 0, 32, [], .ro, (.val 0), .wrm⟩

/-- TK_STATUS.CURSOR (02_the_tick.md R73). -/
def tkStatusCursor : Field := ⟨0x7020, 0, 8, [], .ro, (.val 0), .none⟩

/-- TK_STATUS.TABLE_LEN (02_the_tick.md R73). -/
def tkStatusTableLen : Field := ⟨0x7020, 8, 9, [], .ro, (.val 0), .none⟩

/-- TK_STATUS.SOURCE_STATE (02_the_tick.md R73). -/
def tkStatusSourceState : Field := ⟨0x7020, 17, 2, [], .ro, (.val 0x3), .none⟩

/-- TK_STATUS.BG_PHASE (02_the_tick.md R73). -/
def tkStatusBgPhase : Field := ⟨0x7020, 19, 1, [], .ro, (.val 0), .none⟩

/-- FD_CTRL.MANUF_ID (03_front_door.md R112). -/
def fdCtrlManufId : Field := ⟨0x5000, 0, 8, [], .rwl, .gen, .tlr⟩

/-- FD_CTRL.CLR_CNT (03_front_door.md R112). -/
def fdCtrlClrCnt : Field := ⟨0x5000, 8, 1, [], .wo, (.val 0), .none⟩

/-- FD_TIMING_SET.TRCD_NS (03_front_door.md R112). -/
def fdTimingSetTrcdNs : Field := ⟨0x5004, 0, 8, [], .ro, (.val 0x24), .por⟩

/-- FD_TIMING_SET.TRP_NS (03_front_door.md R112). -/
def fdTimingSetTrpNs : Field := ⟨0x5004, 8, 8, [], .ro, (.val 0x1e), .por⟩

/-- FD_TIMING_SET.TRAS_NS (03_front_door.md R112). -/
def fdTimingSetTrasNs : Field := ⟨0x5004, 16, 8, [], .ro, (.val 0x2a), .por⟩

/-- FD_TIMING_SET.TWR_NS (03_front_door.md R112). -/
def fdTimingSetTwrNs : Field := ⟨0x5004, 24, 8, [], .ro, (.val 0x28), .por⟩

/-- FD_STATUS.INIT_DONE (03_front_door.md R112). -/
def fdStatusInitDone : Field := ⟨0x5008, 0, 4, [], .ro, (.val 0), .none⟩

/-- FD_STATUS.HOST_AWAY (03_front_door.md R112). -/
def fdStatusHostAway : Field := ⟨0x5008, 4, 4, [], .ro, (.val 0), .none⟩

/-- FD_STATUS.BG_MODE (03_front_door.md R112). -/
def fdStatusBgMode : Field := ⟨0x5008, 8, 4, [], .ro, (.val 0), .none⟩

/-- FD_STATUS.SPILL_ROWS (03_front_door.md R112). -/
def fdStatusSpillRows : Field := ⟨0x5008, 12, 12, [], .ro, (.val 0), .none⟩

/-- FD_STATUS.SCRUB_BUSY (03_front_door.md R112). -/
def fdStatusScrubBusy : Field := ⟨0x5008, 24, 1, [], .ro, (.val 0), .none⟩

/-- FD_KEPT.FIRST_ROW (03_front_door.md R112). -/
def fdKeptFirstRow : Field := ⟨0x5010, 0, 13, [(4, 4)], .rw, (.val 0), .tlr⟩

/-- FD_KEPT.BANK (03_front_door.md R112). -/
def fdKeptBank : Field := ⟨0x5010, 13, 4, [(4, 4)], .rw, (.val 0), .tlr⟩

/-- FD_KEPT.CH (03_front_door.md R112). -/
def fdKeptCh : Field := ⟨0x5010, 17, 2, [(4, 4)], .rw, (.val 0), .tlr⟩

/-- FD_KEPT.ROWS (03_front_door.md R112). -/
def fdKeptRows : Field := ⟨0x5010, 20, 12, [(4, 4)], .rw, (.val 0), .tlr⟩

/-- FD_LINK_ERR.CORR (03_front_door.md R112). -/
def fdLinkErrCorr : Field := ⟨0x5020, 0, 16, [(4, 4)], .ro, (.val 0), .none⟩

/-- FD_LINK_ERR.UNCORR (03_front_door.md R112). -/
def fdLinkErrUncorr : Field := ⟨0x5020, 16, 16, [(4, 4)], .ro, (.val 0), .none⟩

/-- FD_VIOL.COUNT (03_front_door.md R112). -/
def fdViolCount : Field := ⟨0x5030, 0, 16, [], .ro, (.val 0), .none⟩

/-- FD_VIOL.CH_MASK (03_front_door.md R112). -/
def fdViolChMask : Field := ⟨0x5030, 16, 4, [], .ro, (.val 0), .none⟩

/-- RG_CTRL.ENABLE (04_rings_and_doorbells.md R155). -/
def rgCtrlEnable : Field := ⟨0x6000, 0, 1, [], .rw, (.val 0), .tlr⟩

/-- RG_STATUS_ROW.VALID (04_rings_and_doorbells.md R155). -/
def rgStatusRowValid : Field := ⟨0x6004, 0, 1, [], .rw, (.val 0), .tlr⟩

/-- RG_STATUS_ROW.ROW_OFF (04_rings_and_doorbells.md R155). -/
def rgStatusRowRowOff : Field := ⟨0x6004, 11, 19, [], .rw, (.val 0), .tlr⟩

/-- RG_LIMITS.ARRIVE_US (04_rings_and_doorbells.md R155). -/
def rgLimitsArriveUs : Field := ⟨0x6008, 0, 8, [], .rw, (.val 0x14), .tlr⟩

/-- RG_LIMITS.FENCE_US (04_rings_and_doorbells.md R155). -/
def rgLimitsFenceUs : Field := ⟨0x6008, 8, 16, [], .rw, (.val 0x3e8), .tlr⟩

/-- RG_DB_ERR.BAD_WORD (04_rings_and_doorbells.md R155). -/
def rgDbErrBadWord : Field := ⟨0x600c, 0, 16, [], .ro, (.val 0), .none⟩

/-- RG_DB_ERR.SQ_OVERFLOW (04_rings_and_doorbells.md R155). -/
def rgDbErrSqOverflow : Field := ⟨0x600c, 16, 16, [], .ro, (.val 0), .none⟩

/-- RG_MARK.MARK (04_rings_and_doorbells.md R155). -/
def rgMarkMark : Field := ⟨0x6010, 0, 16, [(4, 4)], .ro, (.val 0), .tlr⟩

/-- RG_ATTN_STATUS.MBOX_REPLY (04_rings_and_doorbells.md R155). -/
def rgAttnStatusMboxReply : Field := ⟨0x6020, 0, 1, [], .w1c, (.val 0), .none⟩

/-- RG_ATTN_STATUS.FAULT (04_rings_and_doorbells.md R155). -/
def rgAttnStatusFault : Field := ⟨0x6020, 1, 1, [], .w1c, (.val 0), .none⟩

/-- RG_ATTN_STATUS.PIN (04_rings_and_doorbells.md R155). -/
def rgAttnStatusPin : Field := ⟨0x6020, 4, 4, [], .ro, (.val 0), .none⟩

/-- RG_ATTN_SRC.MBOX_ATTN (04_rings_and_doorbells.md R155). -/
def rgAttnSrcMboxAttn : Field := ⟨0x6024, 0, 2, [], .rw, (.val 0), .tlr⟩

/-- RG_ATTN_SRC.MBOX_EN (04_rings_and_doorbells.md R155). -/
def rgAttnSrcMboxEn : Field := ⟨0x6024, 2, 1, [], .rw, (.val 0), .tlr⟩

/-- RG_ATTN_SRC.FAULT_ATTN (04_rings_and_doorbells.md R155). -/
def rgAttnSrcFaultAttn : Field := ⟨0x6024, 4, 2, [], .rw, (.val 0), .tlr⟩

/-- RG_ATTN_SRC.FAULT_EN (04_rings_and_doorbells.md R155). -/
def rgAttnSrcFaultEn : Field := ⟨0x6024, 6, 1, [], .rw, (.val 0), .tlr⟩

/-- RG_SQ_BASE.BASE (04_rings_and_doorbells.md R155). -/
def rgSqBaseBase : Field := ⟨0x6100, 11, 19, [(8, 64)], .rw, (.val 0), .tlr⟩

/-- RG_SQ_CFG.LOG2_ENTRIES (04_rings_and_doorbells.md R155). -/
def rgSqCfgLog2Entries : Field := ⟨0x6104, 0, 4, [(8, 64)], .rw, (.val 0x6), .tlr⟩

/-- RG_SQ_CFG.PRIO (04_rings_and_doorbells.md R155). -/
def rgSqCfgPrio : Field := ⟨0x6104, 4, 1, [(8, 64)], .rw, (.val 0), .tlr⟩

/-- RG_SQ_CFG.ENABLE (04_rings_and_doorbells.md R155). -/
def rgSqCfgEnable : Field := ⟨0x6104, 5, 1, [(8, 64)], .rw, (.val 0), .tlr⟩

/-- RG_SQ_CFG.ERR_CQ (04_rings_and_doorbells.md R155). -/
def rgSqCfgErrCq : Field := ⟨0x6104, 6, 6, [(8, 64)], .rw, (.val 0), .tlr⟩

/-- RG_SQ_CFG.HEAD (04_rings_and_doorbells.md R155). -/
def rgSqCfgHead : Field := ⟨0x6104, 16, 16, [(8, 64)], .ro, (.val 0), .tlr⟩

/-- RG_CQ_BASE.BASE (04_rings_and_doorbells.md R155). -/
def rgCqBaseBase : Field := ⟨0x6300, 11, 19, [(8, 64)], .rw, (.val 0), .tlr⟩

/-- RG_CQ_CFG.LOG2_ENTRIES (04_rings_and_doorbells.md R155). -/
def rgCqCfgLog2Entries : Field := ⟨0x6304, 0, 4, [(8, 64)], .rw, (.val 0x6), .tlr⟩

/-- RG_CQ_CFG.ATTN (04_rings_and_doorbells.md R155). -/
def rgCqCfgAttn : Field := ⟨0x6304, 4, 2, [(8, 64)], .rw, (.val 0), .tlr⟩

/-- RG_CQ_CFG.ATTN_EN (04_rings_and_doorbells.md R155). -/
def rgCqCfgAttnEn : Field := ⟨0x6304, 6, 1, [(8, 64)], .rw, (.val 0), .tlr⟩

/-- RG_CQ_CFG.ENABLE (04_rings_and_doorbells.md R155). -/
def rgCqCfgEnable : Field := ⟨0x6304, 7, 1, [(8, 64)], .rw, (.val 0), .tlr⟩

/-- RG_CQ_CFG.COAL_COUNT (04_rings_and_doorbells.md R155). -/
def rgCqCfgCoalCount : Field := ⟨0x6304, 8, 8, [(8, 64)], .rw, (.val 0x1), .tlr⟩

/-- RG_CQ_CFG.COAL_US (04_rings_and_doorbells.md R155). -/
def rgCqCfgCoalUs : Field := ⟨0x6304, 16, 16, [(8, 64)], .rw, (.val 0), .tlr⟩

/-- SP_LIMITS.RD_RESERVE (05_steps_and_wings.md R192). -/
def spLimitsRdReserve : Field := ⟨0x8000, 0, 12, [], .rwl, (.val 0x200), .tlr⟩

/-- SP_LIMITS.TOKEN_TICKS (05_steps_and_wings.md R192). -/
def spLimitsTokenTicks : Field := ⟨0x8000, 16, 8, [], .rw, (.val 0x10), .tlr⟩

/-- SP_BATCH.THRESHOLD (05_steps_and_wings.md R192). -/
def spBatchThreshold : Field := ⟨0x8010, 0, 7, [(4, 4)], .rw, (.val 0x40), .tlr⟩

/-- SP_BATCH.ENABLE (05_steps_and_wings.md R192). -/
def spBatchEnable : Field := ⟨0x8010, 7, 1, [(4, 4)], .rw, (.val 0x1), .tlr⟩

/-- SP_BATCH.DEADLINE_US (05_steps_and_wings.md R192). -/
def spBatchDeadlineUs : Field := ⟨0x8010, 16, 16, [(4, 4)], .rw, (.val 0xc8), .tlr⟩

/-- SP_STATUS.BUSY (05_steps_and_wings.md R192). -/
def spStatusBusy : Field := ⟨0x8020, 0, 4, [], .ro, (.val 0), .none⟩

/-- SP_STATUS.BATCH_OPEN (05_steps_and_wings.md R192). -/
def spStatusBatchOpen : Field := ⟨0x8020, 4, 4, [], .ro, (.val 0), .none⟩

/-- SP_STATUS.BG_STOPPED (05_steps_and_wings.md R192). -/
def spStatusBgStopped : Field := ⟨0x8020, 8, 4, [], .ro, (.val 0), .none⟩

/-- SP_STATUS.PREEMPTED (05_steps_and_wings.md R192). -/
def spStatusPreempted : Field := ⟨0x8020, 12, 4, [], .ro, (.val 0), .none⟩

/-- WG_TABLE_LO.MASK_W0 (05_steps_and_wings.md R193). -/
def wgTableLoMaskW0 : Field := ⟨0x9000, 0, 16, [(8, 16)], .ro, .record, .tlr⟩

/-- WG_TABLE_LO.MASK_W1 (05_steps_and_wings.md R193). -/
def wgTableLoMaskW1 : Field := ⟨0x9000, 16, 16, [(8, 16)], .ro, (.val 0), .tlr⟩

/-- WG_TABLE_HI.MASK_W2 (05_steps_and_wings.md R193). -/
def wgTableHiMaskW2 : Field := ⟨0x9004, 0, 16, [(8, 16)], .ro, (.val 0), .tlr⟩

/-- WG_TABLE_HI.MASK_W3 (05_steps_and_wings.md R193). -/
def wgTableHiMaskW3 : Field := ⟨0x9004, 16, 16, [(8, 16)], .ro, (.val 0), .tlr⟩

/-- WG_CURRENT.TICK_WT (05_steps_and_wings.md R193). -/
def wgCurrentTickWt : Field := ⟨0x9080, 0, 4, [], .ro, (.val 0), .none⟩

/-- WG_CURRENT.BG_WT (05_steps_and_wings.md R193). -/
def wgCurrentBgWt : Field := ⟨0x9080, 4, 4, [], .ro, (.val 0), .none⟩

/-- WG_CURRENT.PRESENT (05_steps_and_wings.md R193). -/
def wgCurrentPresent : Field := ⟨0x9080, 8, 16, [], .ro, .record, .tlr⟩

/-- WG_CURRENT.TILES (05_steps_and_wings.md R193). -/
def wgCurrentTiles : Field := ⟨0x9080, 24, 5, [], .ro, .record, .tlr⟩

/-- TL_ARITH.ROUND (06_tile_arithmetic.md R226). -/
def tlArithRound : Field := ⟨0xa000, 0, 1, [], .rwl, .gen, .tlr⟩

/-- TL_MAP.PTILE (06_tile_arithmetic.md R226). -/
def tlMapPtile : Field := ⟨0xa040, 0, 5, [(4, 16)], .ro, .record, .tlr⟩

/-- TL_MAP.BAY_FENCED (06_tile_arithmetic.md R226). -/
def tlMapBayFenced : Field := ⟨0xa040, 5, 4, [(4, 16)], .ro, .record, .tlr⟩

/-- TL_MAP.PRESENT (06_tile_arithmetic.md R226). -/
def tlMapPresent : Field := ⟨0xa040, 9, 1, [(4, 16)], .ro, .record, .tlr⟩

/-- BY_SPARE.SPARES_USED (06_tile_arithmetic.md R227). -/
def bySpareSparesUsed : Field := ⟨0xb000, 0, 2, [(4, 16)], .ro, .record, .tlr⟩

/-- BY_SPARE.REPAIR_PENDING (06_tile_arithmetic.md R227). -/
def bySpareRepairPending : Field := ⟨0xb000, 2, 1, [(4, 16)], .ro, (.val 0), .tlr⟩

/-- BY_SPARE.TILE_FAIL (06_tile_arithmetic.md R227). -/
def bySpareTileFail : Field := ⟨0xb000, 3, 1, [(4, 16)], .ro, (.val 0), .tlr⟩

/-- BY_SPARE.RESIDUE_ERR (06_tile_arithmetic.md R227). -/
def bySpareResidueErr : Field := ⟨0xb000, 4, 4, [(4, 16)], .ro, (.val 0), .tlr⟩

/-- VE_NAN_CNT.COUNT (06_tile_arithmetic.md R228). -/
def veNanCntCount : Field := ⟨0xc000, 0, 32, [(4, 16)], .ro, (.val 0), .none⟩

/-- VE_CTRL.CLR_NAN (06_tile_arithmetic.md R228). -/
def veCtrlClrNan : Field := ⟨0xc040, 0, 1, [], .wo, (.val 0), .none⟩

/-- LOFT_SLICE.BAND (08_memory_tiers.md R304). -/
def loftSliceBand : Field := ⟨0xd000, 0, 2, [(4, 18)], .ro, (.val 0), .none⟩

/-- LOFT_SLICE.TEMP (08_memory_tiers.md R304). -/
def loftSliceTemp : Field := ⟨0xd000, 8, 8, [(4, 18)], .ro, (.val 0), .none⟩

/-- LOFT_SLICE.CORR (08_memory_tiers.md R304). -/
def loftSliceCorr : Field := ⟨0xd000, 16, 16, [(4, 18)], .ro, (.val 0), .none⟩

/-- LOFT_UNCORR.COUNT (08_memory_tiers.md R304). -/
def loftUncorrCount : Field := ⟨0xd048, 0, 16, [], .ro, (.val 0), .none⟩

/-- LOFT_CTRL.CLR_CNT (08_memory_tiers.md R304). -/
def loftCtrlClrCnt : Field := ⟨0xd04c, 0, 1, [], .wo, (.val 0), .none⟩

/-- CEL_CTRL.RATE (08_memory_tiers.md R304). -/
def celCtrlRate : Field := ⟨0xe000, 0, 3, [], .rwl, .gen, .tlr⟩

/-- CEL_CTRL.ECC (08_memory_tiers.md R304). -/
def celCtrlEcc : Field := ⟨0xe000, 3, 1, [], .rwl, .gen, .tlr⟩

/-- CEL_CTRL.FITTED (08_memory_tiers.md R304). -/
def celCtrlFitted : Field := ⟨0xe000, 4, 4, [], .rwl, .gen, .tlr⟩

/-- CEL_CTRL.CAP (08_memory_tiers.md R304). -/
def celCtrlCap : Field := ⟨0xe000, 8, 16, [], .rwl, .gen, .tlr⟩

/-- CEL_STATUS.TRAINED (08_memory_tiers.md R304). -/
def celStatusTrained : Field := ⟨0xe004, 0, 4, [], .ro, (.val 0), .none⟩

/-- CEL_STATUS.REFMULT (08_memory_tiers.md R304). -/
def celStatusRefmult : Field := ⟨0xe004, 4, 8, [], .ro, (.val 0), .none⟩

/-- CEL_ERR.CORR (08_memory_tiers.md R304). -/
def celErrCorr : Field := ⟨0xe008, 0, 16, [(4, 4)], .ro, (.val 0), .none⟩

/-- CEL_ERR.UNCORR (08_memory_tiers.md R304). -/
def celErrUncorr : Field := ⟨0xe008, 16, 16, [(4, 4)], .ro, (.val 0), .none⟩

/-- PAN_ERR.CORR (08_memory_tiers.md R304). -/
def panErrCorr : Field := ⟨0xf000, 0, 16, [(4, 16)], .ro, (.val 0), .none⟩

/-- PAN_ERR.UNCORR (08_memory_tiers.md R304). -/
def panErrUncorr : Field := ⟨0xf000, 16, 16, [(4, 16)], .ro, (.val 0), .none⟩

/-- PAN_CTRL.CLR_CNT (08_memory_tiers.md R304). -/
def panCtrlClrCnt : Field := ⟨0xf040, 0, 1, [], .wo, (.val 0), .none⟩

/-- DEED_FREE_LOFT.FREE (08_memory_tiers.md R305). -/
def deedFreeLoftFree : Field := ⟨0x10000, 0, 20, [], .ro, (.val 0), .none⟩

/-- DEED_FREE_CEL.FREE (08_memory_tiers.md R305). -/
def deedFreeCelFree : Field := ⟨0x10004, 0, 22, [], .ro, (.val 0), .none⟩

/-- DEED_STATE.MIG_INFLIGHT (08_memory_tiers.md R305). -/
def deedStateMigInflight : Field := ⟨0x10008, 0, 10, [], .ro, (.val 0), .none⟩

/-- DEED_STATE.SCRUB_BUSY (08_memory_tiers.md R305). -/
def deedStateScrubBusy : Field := ⟨0x10008, 10, 1, [], .ro, (.val 0), .none⟩

/-- DEED_STATE.EPOCH (08_memory_tiers.md R305). -/
def deedStateEpoch : Field := ⟨0x10008, 16, 16, [], .ro, (.val 0), .wrm⟩

/-- DEED_LOFT_SET.SET (08_memory_tiers.md R305). -/
def deedLoftSetSet : Field := ⟨0x1000c, 0, 18, [], .rwl, .gen, .tlr⟩

/-- DEED_QUERY.PAGE (08_memory_tiers.md R305). -/
def deedQueryPage : Field := ⟨0x10010, 0, 22, [], .wo, (.val 0), .none⟩

/-- DEED_RESULT_LO.ENTRY_LO (08_memory_tiers.md R305). -/
def deedResultLoEntryLo : Field := ⟨0x10014, 0, 32, [], .ro, (.val 0), .none⟩

/-- DEED_RESULT_HI.ENTRY_HI (08_memory_tiers.md R305). -/
def deedResultHiEntryHi : Field := ⟨0x10018, 0, 32, [], .ro, (.val 0), .none⟩

/-- DEED_ERR.CORR (08_memory_tiers.md R305). -/
def deedErrCorr : Field := ⟨0x1001c, 0, 16, [], .ro, (.val 0), .none⟩

/-- DEED_ERR.UNCORR (08_memory_tiers.md R305). -/
def deedErrUncorr : Field := ⟨0x1001c, 16, 16, [], .ro, (.val 0), .none⟩

/-- MMU_ROOT_LO.ROOT_LO (08_memory_tiers.md R305). -/
def mmuRootLoRootLo : Field := ⟨0x11000, 9, 23, [], .rw, (.val 0), .tlr⟩

/-- MMU_ROOT_HI.ROOT_HI (08_memory_tiers.md R305). -/
def mmuRootHiRootHi : Field := ⟨0x11004, 0, 6, [], .rw, (.val 0), .tlr⟩

/-- MMU_STATUS.INVAL_BUSY (08_memory_tiers.md R305). -/
def mmuStatusInvalBusy : Field := ⟨0x11008, 0, 1, [], .ro, (.val 0), .none⟩

/-- MMU_STATUS.WALKS (08_memory_tiers.md R305). -/
def mmuStatusWalks : Field := ⟨0x11008, 4, 13, [], .ro, (.val 0), .none⟩

/-- ATT_SEQ_BASE_LO.BASE_LO (09_attention_and_kv.md R332). -/
def attSeqBaseLoBaseLo : Field := ⟨0x12000, 21, 11, [], .rwl, .gen, .tlr⟩

/-- ATT_SEQ_BASE_HI.BASE_HI (09_attention_and_kv.md R332). -/
def attSeqBaseHiBaseHi : Field := ⟨0x12004, 0, 16, [], .rwl, .gen, .tlr⟩

/-- ATT_CTRL.SPLIT_CLASS (09_attention_and_kv.md R332). -/
def attCtrlSplitClass : Field := ⟨0x12008, 0, 4, [], .rw, (.val 0x6), .tlr⟩

/-- ATT_STATUS.BUSY_CNT (09_attention_and_kv.md R332). -/
def attStatusBusyCnt : Field := ⟨0x1200c, 0, 16, [], .ro, (.val 0), .none⟩

/-- ATT_STATUS.EDIT_WAIT (09_attention_and_kv.md R332). -/
def attStatusEditWait : Field := ⟨0x1200c, 16, 1, [], .ro, (.val 0), .none⟩

/-- STRM_BASE_LO.BASE_LO (10_state_streams.md R357). -/
def strmBaseLoBaseLo : Field := ⟨0x13000, 19, 13, [], .rwl, .gen, .tlr⟩

/-- STRM_BASE_HI.BASE_HI (10_state_streams.md R357). -/
def strmBaseHiBaseHi : Field := ⟨0x13004, 0, 16, [], .rwl, .gen, .tlr⟩

/-- STRM_CTRL.HOLD_TICKS (10_state_streams.md R357). -/
def strmCtrlHoldTicks : Field := ⟨0x13008, 0, 8, [], .rw, (.val 0x4), .tlr⟩

/-- STRM_STATUS.HELD (10_state_streams.md R357). -/
def strmStatusHeld : Field := ⟨0x1300c, 0, 15, [], .ro, (.val 0), .none⟩

/-- STRM_STATUS.EDIT_WAIT (10_state_streams.md R357). -/
def strmStatusEditWait : Field := ⟨0x1300c, 15, 1, [], .ro, (.val 0), .none⟩

/-- STRM_STATUS.TIMEOUT_CNT (10_state_streams.md R357). -/
def strmStatusTimeoutCnt : Field := ⟨0x1300c, 16, 16, [], .ro, (.val 0), .none⟩

/-- VIS_BOX_ERR.COUNT (11_vision_operators.md R379). -/
def visBoxErrCount : Field := ⟨0x14000, 0, 16, [], .ro, (.val 0), .none⟩

/-- VIS_BOX_ERR.STEPS (11_vision_operators.md R379). -/
def visBoxErrSteps : Field := ⟨0x14000, 16, 16, [], .ro, (.val 0), .none⟩

/-- VIS_CTRL.CLR_CNT (11_vision_operators.md R379). -/
def visCtrlClrCnt : Field := ⟨0x14004, 0, 1, [], .wo, (.val 0), .none⟩

/-- GAL_PORT.ENABLE (12_gallery.md R410). -/
def galPortEnable : Field := ⟨0x16000, 0, 1, [(8, 14)], .rw, .gen, .tlr⟩

/-- GAL_PORT.LANES_CSI (12_gallery.md R410). -/
def galPortLanesCsi : Field := ⟨0x16000, 1, 2, [(8, 12)], .rw, .gen, .tlr⟩

/-- GAL_PORT.LANE_MAP_CSI (12_gallery.md R410). -/
def galPortLaneMapCsi : Field := ⟨0x16000, 3, 8, [(8, 12)], .rw, .gen, .tlr⟩

/-- GAL_PORT.WIDTH_PARALLEL (12_gallery.md R410). -/
def galPortWidthParallel : Field := ⟨0x16060, 1, 3, [(8, 2)], .rw, .gen, .tlr⟩

/-- GAL_PORT.PCLK_EDGE_PARALLEL (12_gallery.md R410). -/
def galPortPclkEdgeParallel : Field := ⟨0x16060, 4, 1, [(8, 2)], .rw, .gen, .tlr⟩

/-- GAL_PORT.SYNC_PARALLEL (12_gallery.md R410). -/
def galPortSyncParallel : Field := ⟨0x16060, 5, 1, [(8, 2)], .rw, .gen, .tlr⟩

/-- GAL_PORT.HS_POL_PARALLEL (12_gallery.md R410). -/
def galPortHsPolParallel : Field := ⟨0x16060, 6, 1, [(8, 2)], .rw, .gen, .tlr⟩

/-- GAL_PORT.VS_POL_PARALLEL (12_gallery.md R410). -/
def galPortVsPolParallel : Field := ⟨0x16060, 7, 1, [(8, 2)], .rw, .gen, .tlr⟩

/-- GAL_PORT.DE_POL_PARALLEL (12_gallery.md R410). -/
def galPortDePolParallel : Field := ⟨0x16060, 8, 1, [(8, 2)], .rw, .gen, .tlr⟩

/-- GAL_PORT.FMT_PARALLEL (12_gallery.md R410). -/
def galPortFmtParallel : Field := ⟨0x16060, 9, 1, [(8, 2)], .rw, .gen, .tlr⟩

/-- GAL_PORT_STATUS.POL_SWAP_CSI (12_gallery.md R410). -/
def galPortStatusPolSwapCsi : Field := ⟨0x16004, 0, 4, [(8, 12)], .ro, (.val 0), .none⟩

/-- GAL_PORT_STATUS.LANE_FAULT_CSI (12_gallery.md R410). -/
def galPortStatusLaneFaultCsi : Field := ⟨0x16004, 4, 4, [(8, 12)], .w1c, (.val 0), .none⟩

/-- GAL_PORT_STATUS.NO_CLOCK_CSI (12_gallery.md R410). -/
def galPortStatusNoClockCsi : Field := ⟨0x16004, 8, 1, [(8, 12)], .w1c, (.val 0), .none⟩

/-- GAL_PORT_STATUS.ORDER_FAULT_CSI (12_gallery.md R410). -/
def galPortStatusOrderFaultCsi : Field := ⟨0x16004, 9, 1, [(8, 12)], .w1c, (.val 0), .none⟩

/-- GAL_PORT_STATUS.DET_ORDER_CSI (12_gallery.md R410). -/
def galPortStatusDetOrderCsi : Field := ⟨0x16004, 10, 8, [(8, 12)], .ro, (.val 0), .none⟩

/-- GAL_PORT_STATUS.HDR_ERR_CSI (12_gallery.md R410). -/
def galPortStatusHdrErrCsi : Field := ⟨0x16004, 18, 6, [(8, 12)], .ro, (.val 0), .none⟩

/-- GAL_PORT_STATUS.CRC_ERR_CSI (12_gallery.md R410). -/
def galPortStatusCrcErrCsi : Field := ⟨0x16004, 24, 8, [(8, 12)], .ro, (.val 0), .none⟩

/-- GAL_PORT_STATUS.STUCK_BITS_PARALLEL (12_gallery.md R410). -/
def galPortStatusStuckBitsParallel : Field := ⟨0x16064, 16, 16, [(8, 2)], .w1c, (.val 0), .none⟩

/-- GAL_STATUS.OVERFLOW (12_gallery.md R410). -/
def galStatusOverflow : Field := ⟨0x16080, 0, 16, [], .ro, (.val 0), .none⟩

/-- GAL_STATUS.WRITE_ERR (12_gallery.md R410). -/
def galStatusWriteErr : Field := ⟨0x16080, 16, 16, [], .ro, (.val 0), .none⟩

/-- GAL_CLR.CLR_CNT (12_gallery.md R410). -/
def galClrClrCnt : Field := ⟨0x16084, 0, 1, [], .wo, (.val 0), .none⟩

/-- GAL_IN_CTRL.ENABLE (12_gallery.md R410). -/
def galInCtrlEnable : Field := ⟨0x16100, 0, 1, [(16, 24)], .rw, .gen, .tlr⟩

/-- GAL_IN_CTRL.PORT (12_gallery.md R410). -/
def galInCtrlPort : Field := ⟨0x16100, 1, 4, [(16, 24)], .rw, .gen, .tlr⟩

/-- GAL_IN_CTRL.VC (12_gallery.md R410). -/
def galInCtrlVc : Field := ⟨0x16100, 5, 4, [(16, 24)], .rw, .gen, .tlr⟩

/-- GAL_IN_CTRL.DT (12_gallery.md R410). -/
def galInCtrlDt : Field := ⟨0x16100, 9, 6, [(16, 24)], .rw, .gen, .tlr⟩

/-- GAL_IN_CTRL.CFA (12_gallery.md R410). -/
def galInCtrlCfa : Field := ⟨0x16100, 15, 3, [(16, 24)], .rw, .gen, .tlr⟩

/-- GAL_IN_CTRL.PX (12_gallery.md R410). -/
def galInCtrlPx : Field := ⟨0x16100, 18, 2, [(16, 24)], .rw, .gen, .tlr⟩

/-- GAL_IN_CTRL.PY (12_gallery.md R410). -/
def galInCtrlPy : Field := ⟨0x16100, 20, 2, [(16, 24)], .rw, .gen, .tlr⟩

/-- GAL_IN_CTRL.DECOMP (12_gallery.md R410). -/
def galInCtrlDecomp : Field := ⟨0x16100, 22, 3, [(16, 24)], .rw, .gen, .tlr⟩

/-- GAL_IN_CTRL.LINE_POLICY (12_gallery.md R410). -/
def galInCtrlLinePolicy : Field := ⟨0x16100, 25, 1, [(16, 24)], .rw, .gen, .tlr⟩

/-- GAL_IN_CTRL.FRAME_POLICY (12_gallery.md R410). -/
def galInCtrlFramePolicy : Field := ⟨0x16100, 26, 1, [(16, 24)], .rw, .gen, .tlr⟩

/-- GAL_IN_CTRL.EDGE_T (12_gallery.md R410). -/
def galInCtrlEdgeT : Field := ⟨0x16100, 27, 4, [(16, 24)], .rw, .gen, .tlr⟩

/-- GAL_IN_GEOM.EXP_W (12_gallery.md R410). -/
def galInGeomExpW : Field := ⟨0x16104, 0, 16, [(16, 24)], .rw, .gen, .tlr⟩

/-- GAL_IN_GEOM.EXP_H (12_gallery.md R410). -/
def galInGeomExpH : Field := ⟨0x16104, 16, 16, [(16, 24)], .rw, .gen, .tlr⟩

/-- GAL_IN_TIMING.PERIOD_US (12_gallery.md R410). -/
def galInTimingPeriodUs : Field := ⟨0x16108, 0, 20, [(16, 24)], .rw, .gen, .tlr⟩

/-- GAL_IN_TIMING.LATE_TOL (12_gallery.md R410). -/
def galInTimingLateTol : Field := ⟨0x16108, 20, 4, [(16, 24)], .rw, .gen, .tlr⟩

/-- GAL_IN_LEVEL.BLACK (12_gallery.md R410). -/
def galInLevelBlack : Field := ⟨0x1610c, 0, 24, [(16, 24)], .rw, .gen, .tlr⟩

/-- GAL_IN_LEVEL.IR_SUB (12_gallery.md R410). -/
def galInLevelIrSub : Field := ⟨0x1610c, 24, 8, [(16, 24)], .rw, .gen, .tlr⟩

/-- GAL_GAINS_LO.GAIN0 (12_gallery.md R410). -/
def galGainsLoGain0 : Field := ⟨0x16280, 0, 16, [(8, 24)], .rw, .gen, .tlr⟩

/-- GAL_GAINS_LO.GAIN1 (12_gallery.md R410). -/
def galGainsLoGain1 : Field := ⟨0x16280, 16, 16, [(8, 24)], .rw, .gen, .tlr⟩

/-- GAL_GAINS_HI.GAIN2 (12_gallery.md R410). -/
def galGainsHiGain2 : Field := ⟨0x16284, 0, 16, [(8, 24)], .rw, .gen, .tlr⟩

/-- GAL_GAINS_HI.GAIN3 (12_gallery.md R410). -/
def galGainsHiGain3 : Field := ⟨0x16284, 16, 16, [(8, 24)], .rw, .gen, .tlr⟩

/-- GAL_FRAME.FRAME (12_gallery.md R410). -/
def galFrameFrame : Field := ⟨0x16340, 0, 32, [(4, 24)], .ro, (.val 0), .none⟩

/-- GAL_DECOMP_X.X (12_gallery.md R410). -/
def galDecompXX : Field := ⟨0x16400, 0, 20, [(512, 4), (8, 33)], .rw, .gen, .tlr⟩

/-- GAL_DECOMP_Y.Y (12_gallery.md R410). -/
def galDecompYY : Field := ⟨0x16404, 0, 24, [(512, 4), (8, 33)], .rw, .gen, .tlr⟩

/-- GAL_OUT_0.ENABLE (12_gallery.md R410). -/
def galOut0Enable : Field := ⟨0x16c00, 0, 1, [(32, 48)], .rw, .gen, .tlr⟩

/-- GAL_OUT_0.SRC (12_gallery.md R410). -/
def galOut0Src : Field := ⟨0x16c00, 1, 5, [(32, 48)], .rw, .gen, .tlr⟩

/-- GAL_OUT_0.KIND (12_gallery.md R410). -/
def galOut0Kind : Field := ⟨0x16c00, 6, 1, [(32, 48)], .rw, .gen, .tlr⟩

/-- GAL_OUT_0.LAYOUT (12_gallery.md R410). -/
def galOut0Layout : Field := ⟨0x16c00, 7, 1, [(32, 48)], .rw, .gen, .tlr⟩

/-- GAL_OUT_0.OUT_FMT (12_gallery.md R410). -/
def galOut0OutFmt : Field := ⟨0x16c00, 8, 4, [(32, 48)], .rw, .gen, .tlr⟩

/-- GAL_OUT_0.CH_SEL (12_gallery.md R410). -/
def galOut0ChSel : Field := ⟨0x16c00, 12, 12, [(32, 48)], .rw, .gen, .tlr⟩

/-- GAL_OUT_0.FRAME_DIV (12_gallery.md R410). -/
def galOut0FrameDiv : Field := ⟨0x16c00, 24, 4, [(32, 48)], .rw, .gen, .tlr⟩

/-- GAL_OUT_0.TOKEN_EN (12_gallery.md R410). -/
def galOut0TokenEn : Field := ⟨0x16c00, 28, 1, [(32, 48)], .rw, .gen, .tlr⟩

/-- GAL_OUT_1.X0 (12_gallery.md R410). -/
def galOut1X0 : Field := ⟨0x16c04, 0, 16, [(32, 48)], .rw, .gen, .tlr⟩

/-- GAL_OUT_1.Y0 (12_gallery.md R410). -/
def galOut1Y0 : Field := ⟨0x16c04, 16, 16, [(32, 48)], .rw, .gen, .tlr⟩

/-- GAL_OUT_2.CW (12_gallery.md R410). -/
def galOut2Cw : Field := ⟨0x16c08, 0, 16, [(32, 48)], .rw, .gen, .tlr⟩

/-- GAL_OUT_2.CH (12_gallery.md R410). -/
def galOut2Ch : Field := ⟨0x16c08, 16, 16, [(32, 48)], .rw, .gen, .tlr⟩

/-- GAL_OUT_3.OW (12_gallery.md R410). -/
def galOut3Ow : Field := ⟨0x16c0c, 0, 16, [(32, 48)], .rw, .gen, .tlr⟩

/-- GAL_OUT_3.OH (12_gallery.md R410). -/
def galOut3Oh : Field := ⟨0x16c0c, 16, 16, [(32, 48)], .rw, .gen, .tlr⟩

/-- GAL_OUT_4.BASE_LO (12_gallery.md R410). -/
def galOut4BaseLo : Field := ⟨0x16c10, 16, 16, [(32, 48)], .rw, .gen, .tlr⟩

/-- GAL_OUT_5.BASE_HI (12_gallery.md R410). -/
def galOut5BaseHi : Field := ⟨0x16c14, 0, 16, [(32, 48)], .rw, .gen, .tlr⟩

/-- GAL_OUT_5.TOKEN (12_gallery.md R410). -/
def galOut5Token : Field := ⟨0x16c14, 16, 10, [(32, 48)], .rw, .gen, .tlr⟩

/-- GAL_OUT_5.BUF_M1 (12_gallery.md R410). -/
def galOut5BufM1 : Field := ⟨0x16c14, 26, 4, [(32, 48)], .rw, .gen, .tlr⟩

/-- GAL_OUT_6.STRIDE (12_gallery.md R410). -/
def galOut6Stride : Field := ⟨0x16c18, 0, 16, [(32, 48)], .rw, .gen, .tlr⟩

/-- GAL_OUT_6.SLOT_PAGES (12_gallery.md R410). -/
def galOut6SlotPages : Field := ⟨0x16c18, 16, 16, [(32, 48)], .rw, .gen, .tlr⟩

/-- GAL_OUT_7.OUT_GAIN (12_gallery.md R410). -/
def galOut7OutGain : Field := ⟨0x16c1c, 0, 32, [(32, 48)], .rw, .gen, .tlr⟩

/-- POR_CTRL.ENABLE (13_porch.md R444). -/
def porCtrlEnable : Field := ⟨0x18000, 0, 1, [], .rw, .gen, .mdr⟩

/-- POR_CTRL.MUTE (13_porch.md R444). -/
def porCtrlMute : Field := ⟨0x18000, 1, 1, [], .rw, .gen, .wrm⟩

/-- POR_CTRL.AUTO_SWAP (13_porch.md R444). -/
def porCtrlAutoSwap : Field := ⟨0x18000, 2, 1, [], .rw, .gen, .mdr⟩

/-- POR_CTRL.RATE (13_porch.md R444). -/
def porCtrlRate : Field := ⟨0x18000, 3, 3, [], .rw, .gen, .mdr⟩

/-- POR_CTRL.MIN_BEAM (13_porch.md R444). -/
def porCtrlMinBeam : Field := ⟨0x18000, 6, 5, [], .rw, .gen, .mdr⟩

/-- POR_CTRL.CHAIN_EN (13_porch.md R444). -/
def porCtrlChainEn : Field := ⟨0x18000, 11, 1, [], .rw, .gen, .mdr⟩

/-- POR_CTRL.DET_LEVEL (13_porch.md R444). -/
def porCtrlDetLevel : Field := ⟨0x18000, 12, 8, [], .rw, .gen, .mdr⟩

/-- POR_PROF.OSR (13_porch.md R444). -/
def porProfOsr : Field := ⟨0x18004, 0, 3, [(4, 2)], .rw, .gen, .mdr⟩

/-- POR_PROF.CLK1_EN (13_porch.md R444). -/
def porProfClk1En : Field := ⟨0x18004, 3, 1, [(4, 2)], .rw, .gen, .mdr⟩

/-- POR_PROF.BEAM_MASK (13_porch.md R444). -/
def porProfBeamMask : Field := ⟨0x18004, 16, 16, [(4, 2)], .rw, .gen, .mdr⟩

/-- POR_RING_MASK.RING_MASK (13_porch.md R444). -/
def porRingMaskRingMask : Field := ⟨0x1800c, 0, 16, [], .rw, .gen, .mdr⟩

/-- POR_STATUS.PROFILE (13_porch.md R444). -/
def porStatusProfile : Field := ⟨0x18010, 0, 1, [], .ro, (.val 0), .none⟩

/-- POR_STATUS.CHANGE_WAIT (13_porch.md R444). -/
def porStatusChangeWait : Field := ⟨0x18010, 1, 1, [], .ro, (.val 0), .none⟩

/-- POR_STATUS.SETTLING (13_porch.md R444). -/
def porStatusSettling : Field := ⟨0x18010, 2, 1, [], .ro, (.val 0), .none⟩

/-- POR_SAMPLE_LO.SAMPLE_LO (13_porch.md R444). -/
def porSampleLoSampleLo : Field := ⟨0x18014, 0, 32, [], .ro, (.val 0), .mdr⟩

/-- POR_SAMPLE_HI.SAMPLE_HI (13_porch.md R444). -/
def porSampleHiSampleHi : Field := ⟨0x18018, 0, 32, [], .ro, (.val 0), .mdr⟩

/-- POR_EVT_CNT.EVT_CNT (13_porch.md R444). -/
def porEvtCntEvtCnt : Field := ⟨0x1801c, 0, 32, [], .ro, (.val 0), .mdr⟩

/-- POR_CH.TRIM (13_porch.md R444). -/
def porChTrim : Field := ⟨0x18020, 0, 10, [(4, 16)], .rw, .gen, .mdr⟩

/-- POR_CH.STATE (13_porch.md R444). -/
def porChState : Field := ⟨0x18020, 10, 3, [(4, 16)], .ro, (.val 0), .none⟩

/-- POR_CH.SWAPPED (13_porch.md R444). -/
def porChSwapped : Field := ⟨0x18020, 13, 1, [(4, 16)], .w1c, (.val 0), .none⟩

/-- POR_CH.SWAP_UNTESTABLE (13_porch.md R444). -/
def porChSwapUntestable : Field := ⟨0x18020, 14, 1, [(4, 16)], .ro, (.val 0), .none⟩

/-- POR_MF.COEF (13_porch.md R444). -/
def porMfCoef : Field := ⟨0x18400, 0, 16, [(64, 16), (4, 16)], .rw, .gen, .mdr⟩

/-- POR_FEED_LO.DVA_LO (13_porch.md R444). -/
def porFeedLoDvaLo : Field := ⟨0x18100, 16, 16, [], .rw, .gen, .mdr⟩

/-- POR_FEED_HI.DVA_HI (13_porch.md R444). -/
def porFeedHiDvaHi : Field := ⟨0x18104, 0, 16, [], .rw, .gen, .mdr⟩

/-- POR_FEED_HI.FEED_PAGES (13_porch.md R444). -/
def porFeedHiFeedPages : Field := ⟨0x18104, 16, 16, [], .rw, .gen, .mdr⟩

/-- POR_FEED_CFG.FEED_MASK (13_porch.md R444). -/
def porFeedCfgFeedMask : Field := ⟨0x18108, 0, 17, [], .rw, .gen, .mdr⟩

/-- POR_FEED_CFG.FEED_FMT (13_porch.md R444). -/
def porFeedCfgFeedFmt : Field := ⟨0x18108, 17, 2, [], .rw, .gen, .mdr⟩

/-- POR_FEED_CFG.PREROLL_MS (13_porch.md R444). -/
def porFeedCfgPrerollMs : Field := ⟨0x18108, 20, 12, [], .rw, .gen, .mdr⟩

/-- POR_CHAIN_0.EN (13_porch.md R444). -/
def porChain0En : Field := ⟨0x18200, 0, 1, [(32, 3)], .rw, .gen, .mdr⟩

/-- POR_CHAIN_0.CLASS (13_porch.md R444). -/
def porChain0Class : Field := ⟨0x18200, 1, 1, [(32, 3)], .rw, .gen, .mdr⟩

/-- POR_CHAIN_0.WING (13_porch.md R444). -/
def porChain0Wing : Field := ⟨0x18200, 2, 2, [(32, 3)], .rw, .gen, .mdr⟩

/-- POR_CHAIN_0.CQ (13_porch.md R444). -/
def porChain0Cq : Field := ⟨0x18200, 4, 6, [(32, 3)], .rw, .gen, .mdr⟩

/-- POR_CHAIN_0.FEED (13_porch.md R444). -/
def porChain0Feed : Field := ⟨0x18200, 10, 1, [(32, 3)], .rw, .gen, .mdr⟩

/-- POR_CHAIN_0.TIMEOUT_MS (13_porch.md R444). -/
def porChain0TimeoutMs : Field := ⟨0x18200, 16, 16, [(32, 3)], .rw, .gen, .mdr⟩

/-- POR_CHAIN_1.LIST_LO (13_porch.md R444). -/
def porChain1ListLo : Field := ⟨0x18204, 6, 26, [(32, 3)], .rw, .gen, .mdr⟩

/-- POR_CHAIN_2.LIST_HI (13_porch.md R444). -/
def porChain2ListHi : Field := ⟨0x18208, 0, 16, [(32, 3)], .rw, .gen, .mdr⟩

/-- POR_CHAIN_2.COUNT (13_porch.md R444). -/
def porChain2Count : Field := ⟨0x18208, 16, 16, [(32, 3)], .rw, .gen, .mdr⟩

/-- POR_CHAIN_3.DECIDE_LO (13_porch.md R444). -/
def porChain3DecideLo : Field := ⟨0x1820c, 3, 29, [(32, 3)], .rw, .gen, .mdr⟩

/-- POR_CHAIN_4.DECIDE_HI (13_porch.md R444). -/
def porChain4DecideHi : Field := ⟨0x18210, 0, 16, [(32, 3)], .rw, .gen, .mdr⟩

/-- POR_CHAIN_5.TAG (13_porch.md R444). -/
def porChain5Tag : Field := ⟨0x18214, 0, 32, [(32, 3)], .rw, .gen, .mdr⟩

/-- POR_EVT_LO.SAMPLE_LO (13_porch.md R444). -/
def porEvtLoSampleLo : Field := ⟨0x18800, 0, 32, [(8, 64)], .ro, (.val 0), .mdr⟩

/-- POR_EVT_HI.SAMPLE_HI (13_porch.md R444). -/
def porEvtHiSampleHi : Field := ⟨0x18804, 0, 16, [(8, 64)], .ro, (.val 0), .mdr⟩

/-- POR_EVT_HI.CODE (13_porch.md R444). -/
def porEvtHiCode : Field := ⟨0x18804, 16, 8, [(8, 64)], .ro, (.val 0), .mdr⟩

/-- POR_EVT_HI.CH (13_porch.md R444). -/
def porEvtHiCh : Field := ⟨0x18804, 24, 4, [(8, 64)], .ro, (.val 0), .mdr⟩

/-- POR_WAKE.RECORD (13_porch.md R444). -/
def porWakeRecord : Field := ⟨0x18a00, 0, 256, [(32, 16), (4, 8)], .ro, (.val 0), .wrm⟩

/-- KEY_CTRL.ENABLE (13_porch.md R445). -/
def keyCtrlEnable : Field := ⟨0x19000, 0, 1, [], .rw, .gen, .mdr⟩

/-- KEY_CTRL.IMAGE_OK (13_porch.md R445). -/
def keyCtrlImageOk : Field := ⟨0x19000, 1, 1, [], .ro, (.val 0), .mdr⟩

/-- KEY_CTRL.IMAGE_LEVEL (13_porch.md R445). -/
def keyCtrlImageLevel : Field := ⟨0x19000, 2, 2, [], .ro, (.val 0), .mdr⟩

/-- KEY_CTRL.PHRASES (13_porch.md R445). -/
def keyCtrlPhrases : Field := ⟨0x19000, 4, 4, [], .ro, (.val 0), .mdr⟩

/-- KEY_STATUS.PARTIAL (13_porch.md R445). -/
def keyStatusPartial : Field := ⟨0x19004, 0, 8, [], .ro, (.val 0), .none⟩

/-- KEY_STATUS.MATCH_CNT (13_porch.md R445). -/
def keyStatusMatchCnt : Field := ⟨0x19004, 8, 16, [], .ro, (.val 0), .mdr⟩

/-- KEY_PHRASE.EN (13_porch.md R445). -/
def keyPhraseEn : Field := ⟨0x19010, 0, 1, [(4, 8)], .rw, .gen, .mdr⟩

/-- KEY_PHRASE.START_CHAIN (13_porch.md R445). -/
def keyPhraseStartChain : Field := ⟨0x19010, 1, 1, [(4, 8)], .rw, .gen, .mdr⟩

/-- KEY_PHRASE.ARM (13_porch.md R445). -/
def keyPhraseArm : Field := ⟨0x19010, 8, 8, [(4, 8)], .rw, .gen, .mdr⟩

/-- KEY_PHRASE.MATCH (13_porch.md R445). -/
def keyPhraseMatch : Field := ⟨0x19010, 16, 8, [(4, 8)], .rw, .gen, .mdr⟩

/-- PWR_CTRL.START_LEVEL (14_power.md R480). -/
def pwrCtrlStartLevel : Field := ⟨0x4000, 0, 3, [], .rwl, .gen, .tlr⟩

/-- PWR_CTRL.DOZE_EN (14_power.md R480). -/
def pwrCtrlDozeEn : Field := ⟨0x4000, 3, 1, [], .rw, .gen, .tlr⟩

/-- PWR_CTRL.DOZE_US (14_power.md R480). -/
def pwrCtrlDozeUs : Field := ⟨0x4000, 4, 12, [], .rw, .gen, .tlr⟩

/-- PWR_CTRL.GRACE_MS (14_power.md R480). -/
def pwrCtrlGraceMs : Field := ⟨0x4000, 16, 8, [], .rw, .gen, .tlr⟩

/-- PWR_CTRL.BATT_STUCK_S (14_power.md R480). -/
def pwrCtrlBattStuckS : Field := ⟨0x4000, 24, 8, [], .rw, .gen, .tlr⟩

/-- PWR_STATUS.LEVEL (14_power.md R480). -/
def pwrStatusLevel : Field := ⟨0x4004, 0, 3, [], .ro, (.val 0), .none⟩

/-- PWR_STATUS.REQUESTED (14_power.md R480). -/
def pwrStatusRequested : Field := ⟨0x4004, 3, 3, [], .ro, (.val 0), .none⟩

/-- PWR_STATUS.STATE (14_power.md R480). -/
def pwrStatusState : Field := ⟨0x4004, 6, 2, [], .ro, (.val 0), .none⟩

/-- PWR_STATUS.WAKE_IN (14_power.md R480). -/
def pwrStatusWakeIn : Field := ⟨0x4004, 8, 1, [], .ro, (.val 0), .none⟩

/-- PWR_STATUS.BATT_LOW (14_power.md R480). -/
def pwrStatusBattLow : Field := ⟨0x4004, 9, 1, [], .ro, (.val 0), .none⟩

/-- PWR_STATUS.AVS_BUSY (14_power.md R480). -/
def pwrStatusAvsBusy : Field := ⟨0x4004, 10, 1, [], .ro, (.val 0), .none⟩

/-- PWR_CAPS.SUPPLY (14_power.md R480). -/
def pwrCapsSupply : Field := ⟨0x4008, 0, 3, [], .ro, (.val 0x7), .none⟩

/-- PWR_CAPS.BATT (14_power.md R480). -/
def pwrCapsBatt : Field := ⟨0x4008, 3, 3, [], .ro, (.val 0x7), .none⟩

/-- PWR_CAPS.THERM (14_power.md R480). -/
def pwrCapsTherm : Field := ⟨0x4008, 6, 3, [], .ro, (.val 0x7), .none⟩

/-- PWR_CAPS.POWER (14_power.md R480). -/
def pwrCapsPower : Field := ⟨0x4008, 9, 3, [], .ro, (.val 0x7), .none⟩

/-- PWR_CAPS.WARN_CNT (14_power.md R480). -/
def pwrCapsWarnCnt : Field := ⟨0x4008, 16, 16, [], .ro, (.val 0), .none⟩

/-- PWR_RETAIN.SLICES (14_power.md R480). -/
def pwrRetainSlices : Field := ⟨0x400c, 0, 18, [], .rw, .gen, .tlr⟩

/-- PWR_RETAIN.S3_AFTER_MIN (14_power.md R480). -/
def pwrRetainS3AfterMin : Field := ⟨0x400c, 24, 8, [], .rw, .gen, .tlr⟩

/-- PWR_THERM.CAP_LEVEL (14_power.md R480). -/
def pwrThermCapLevel : Field := ⟨0x4010, 0, 3, [], .rwl, .gen, .tlr⟩

/-- PWR_THERM.HOT_MAX (14_power.md R480). -/
def pwrThermHotMax : Field := ⟨0x4010, 8, 8, [], .ro, (.val 0), .none⟩

/-- PWR_THERM.HOT_ID (14_power.md R480). -/
def pwrThermHotId : Field := ⟨0x4010, 16, 6, [], .ro, (.val 0), .none⟩

/-- PWR_LIMIT.WATTS (14_power.md R480). -/
def pwrLimitWatts : Field := ⟨0x4014, 0, 10, [], .rwl, .gen, .tlr⟩

/-- PWR_LIMIT.AVG_W (14_power.md R480). -/
def pwrLimitAvgW : Field := ⟨0x4014, 16, 10, [], .ro, (.val 0), .none⟩

/-- PWR_WAKE_TIMER.SECONDS (14_power.md R480). -/
def pwrWakeTimerSeconds : Field := ⟨0x4018, 0, 32, [], .rw, (.val 0), .mdr⟩

/-- PWR_LASTWAKE.RECORD (14_power.md R480). -/
def pwrLastwakeRecord : Field := ⟨0x4020, 0, 32, [(4, 4)], .ro, (.val 0), .wrm⟩

/-- RST_CAUSE.LAST (15_resets_and_retention.md R502). -/
def rstCauseLast : Field := ⟨0x3000, 0, 4, [], .ro, (.val 0x1), .wrm⟩

/-- RST_CAUSE.SOURCE (15_resets_and_retention.md R502). -/
def rstCauseSource : Field := ⟨0x3000, 4, 4, [], .ro, (.val 0), .wrm⟩

/-- RST_CAUSE.UNIT (15_resets_and_retention.md R502). -/
def rstCauseUnit : Field := ⟨0x3000, 8, 5, [], .ro, (.val 0), .wrm⟩

/-- RST_CAUSE.MDR_CNT (15_resets_and_retention.md R502). -/
def rstCauseMdrCnt : Field := ⟨0x3000, 16, 8, [], .ro, (.val 0), .wrm⟩

/-- RST_CAUSE.TLR_CNT (15_resets_and_retention.md R502). -/
def rstCauseTlrCnt : Field := ⟨0x3000, 24, 8, [], .ro, (.val 0), .wrm⟩

/-- RST_REQ.KIND (15_resets_and_retention.md R502). -/
def rstReqKind : Field := ⟨0x3004, 0, 4, [], .wo, (.val 0), .none⟩

/-- RST_REQ.TILE (15_resets_and_retention.md R502). -/
def rstReqTile : Field := ⟨0x3004, 4, 4, [], .wo, (.val 0), .none⟩

/-- RST_REQ.KEY (15_resets_and_retention.md R502). -/
def rstReqKey : Field := ⟨0x3004, 8, 8, [], .wo, (.val 0), .none⟩

/-- RST_BOOT.PHASE (15_resets_and_retention.md R502). -/
def rstBootPhase : Field := ⟨0x3008, 0, 4, [], .ro, (.val 0), .none⟩

/-- RST_BOOT.START_MS (15_resets_and_retention.md R502). -/
def rstBootStartMs : Field := ⟨0x3008, 8, 12, [], .ro, (.val 0), .none⟩

/-- RST_GEN.NUMBER (15_resets_and_retention.md R502). -/
def rstGenNumber : Field := ⟨0x300c, 0, 16, [], .ro, .record, .none⟩

/-- RST_GEN.STATE (15_resets_and_retention.md R502). -/
def rstGenState : Field := ⟨0x300c, 16, 3, [], .ro, .record, .none⟩

/-- RST_GEN.SLOT (15_resets_and_retention.md R502). -/
def rstGenSlot : Field := ⟨0x300c, 19, 1, [], .ro, .record, .none⟩

/-- RST_GEN.REVERTED (15_resets_and_retention.md R502). -/
def rstGenReverted : Field := ⟨0x300c, 20, 1, [], .ro, .record, .none⟩

/-- RST_GEN.CLEAN (15_resets_and_retention.md R502). -/
def rstGenClean : Field := ⟨0x300c, 21, 7, [], .ro, (.val 0), .none⟩

/-- RST_GEN.STARTS_LEFT (15_resets_and_retention.md R502). -/
def rstGenStartsLeft : Field := ⟨0x300c, 28, 4, [], .ro, .record, .none⟩

/-- RST_TRIAL.TICKS_LEFT (15_resets_and_retention.md R502). -/
def rstTrialTicksLeft : Field := ⟨0x3010, 0, 24, [], .ro, .record, .none⟩

/-- RST_OTHER.NUMBER (15_resets_and_retention.md R502). -/
def rstOtherNumber : Field := ⟨0x3014, 0, 16, [], .ro, .record, .none⟩

/-- RST_OTHER.STATE (15_resets_and_retention.md R502). -/
def rstOtherState : Field := ⟨0x3014, 16, 3, [], .ro, .record, .none⟩

/-- STY_ID.VENDOR (16_study.md R541). -/
def styIdVendor : Field := ⟨0x0, 0, 16, [], .ro, (.val 0x7a11), .por⟩

/-- STY_ID.PART (16_study.md R541). -/
def styIdPart : Field := ⟨0x0, 16, 8, [], .ro, (.val 0x16), .por⟩

/-- STY_ID.STEPPING (16_study.md R541). -/
def styIdStepping : Field := ⟨0x0, 24, 8, [], .ro, (.val 0xb1), .por⟩

/-- STY_CFG_ID.LINKS (16_study.md R541). -/
def styCfgIdLinks : Field := ⟨0x4, 0, 1, [], .ro, .record, .por⟩

/-- STY_CFG_ID.TILES (16_study.md R541). -/
def styCfgIdTiles : Field := ⟨0x4, 1, 5, [], .ro, .record, .tlr⟩

/-- STY_CFG_ID.SPARES (16_study.md R541). -/
def styCfgIdSpares : Field := ⟨0x4, 6, 2, [], .ro, .record, .tlr⟩

/-- STY_SERIAL_LO.SERIAL_LO (16_study.md R541). -/
def stySerialLoSerialLo : Field := ⟨0x8, 0, 32, [], .ro, .record, .por⟩

/-- STY_SERIAL_HI.SERIAL_HI (16_study.md R541). -/
def stySerialHiSerialHi : Field := ⟨0xc, 0, 32, [], .ro, .record, .por⟩

/-- STY_MODE.MODE (16_study.md R541). -/
def styModeMode : Field := ⟨0x10, 0, 2, [], .ro, (.val 0), .mdr⟩

/-- STY_MODE.SF_REASON (16_study.md R541). -/
def styModeSfReason : Field := ⟨0x10, 4, 4, [], .ro, (.val 0), .mdr⟩

/-- STY_MODE.OWNER_SLOTS (16_study.md R541). -/
def styModeOwnerSlots : Field := ⟨0x10, 8, 3, [], .ro, .record, .por⟩

/-- STY_MODE.GPTP_SYNC (16_study.md R541). -/
def styModeGptpSync : Field := ⟨0x10, 11, 1, [], .ro, (.val 0), .mdr⟩

/-- STY_VER.VERSION (16_study.md R541). -/
def styVerVersion : Field := ⟨0x14, 0, 24, [(4, 3)], .ro, .record, .mdr⟩

/-- STY_VER.LEVEL (16_study.md R541). -/
def styVerLevel : Field := ⟨0x14, 24, 8, [(4, 3)], .ro, .record, .mdr⟩

/-- STY_SLOTS.RUN_STUDY (16_study.md R541). -/
def stySlotsRunStudy : Field := ⟨0x20, 0, 1, [], .ro, .record, .mdr⟩

/-- STY_SLOTS.RUN_PORCH (16_study.md R541). -/
def stySlotsRunPorch : Field := ⟨0x20, 1, 1, [], .ro, .record, .mdr⟩

/-- STY_SLOTS.RUN_UCODE (16_study.md R541). -/
def stySlotsRunUcode : Field := ⟨0x20, 2, 1, [], .ro, .record, .mdr⟩

/-- STY_SLOTS.FALLBACK (16_study.md R541). -/
def stySlotsFallback : Field := ⟨0x20, 4, 3, [], .ro, (.val 0), .mdr⟩

/-- STY_COMPAT.PAIRS (16_study.md R541). -/
def styCompatPairs : Field := ⟨0x24, 0, 12, [], .ro, (.val 0), .mdr⟩

/-- STY_ROLLBACK.COUNT (16_study.md R541). -/
def styRollbackCount : Field := ⟨0x28, 0, 7, [], .ro, .record, .por⟩

/-- STY_UPDATE.KIND (16_study.md R541). -/
def styUpdateKind : Field := ⟨0x2c, 0, 3, [], .ro, (.val 0), .none⟩

/-- STY_UPDATE.PHASE (16_study.md R541). -/
def styUpdatePhase : Field := ⟨0x2c, 3, 2, [], .ro, (.val 0), .none⟩

/-- STY_UPDATE.SESSION (16_study.md R541). -/
def styUpdateSession : Field := ⟨0x2c, 16, 16, [], .ro, (.val 0), .none⟩

/-- STY_HB.PERIOD_MS (16_study.md R541). -/
def styHbPeriodMs : Field := ⟨0x30, 0, 10, [], .rwl, .gen, .mdr⟩

/-- STY_HB.MISSED (16_study.md R541). -/
def styHbMissed : Field := ⟨0x30, 16, 16, [], .ro, (.val 0), .mdr⟩

/-- STY_NET.UDP_PORT (16_study.md R541). -/
def styNetUdpPort : Field := ⟨0x60, 0, 16, [], .rwl, .gen, .mdr⟩

/-- STY_NET.PORT_EN (16_study.md R541). -/
def styNetPortEn : Field := ⟨0x60, 16, 1, [], .rwl, .gen, .mdr⟩

/-- STY_NET.GPTP_EN (16_study.md R541). -/
def styNetGptpEn : Field := ⟨0x60, 17, 1, [], .rwl, .gen, .mdr⟩

/-- STY_NET.DROPPED (16_study.md R541). -/
def styNetDropped : Field := ⟨0x60, 18, 14, [], .ro, (.val 0), .mdr⟩

/-- STY_SYNC.OFFSET_NS (16_study.md R541). -/
def stySyncOffsetNs : Field := ⟨0x64, 0, 16, [], .ro, (.val 0), .none⟩

/-- STY_IDKEY.DIGEST (16_study.md R541). -/
def styIdkeyDigest : Field := ⟨0x40, 0, 32, [(4, 8)], .ro, .record, .por⟩

/-- STY_TEMP.TEMP (16_study.md R541). -/
def styTempTemp : Field := ⟨0x100, 0, 8, [(4, 64)], .ro, (.val 0), .none⟩

/-- STY_TEMP.VALID (16_study.md R541). -/
def styTempValid : Field := ⟨0x100, 8, 1, [(4, 64)], .ro, (.val 0), .none⟩

/-- STY_RAIL.MV (16_study.md R541). -/
def styRailMv : Field := ⟨0x200, 0, 16, [(4, 11)], .ro, (.val 0), .none⟩

/-- STY_RAIL.CURRENT (16_study.md R541). -/
def styRailCurrent : Field := ⟨0x200, 16, 16, [(4, 11)], .ro, (.val 0), .none⟩

/-- SEC_STATUS.TSR_BUSY (17_security.md R569). -/
def secStatusTsrBusy : Field := ⟨0x1000, 0, 1, [], .ro, (.val 0), .none⟩

/-- SEC_STATUS.TSR_PHASE (17_security.md R569). -/
def secStatusTsrPhase : Field := ⟨0x1000, 1, 3, [], .ro, (.val 0), .none⟩

/-- SEC_STATUS.TSR_BY_RESET (17_security.md R569). -/
def secStatusTsrByReset : Field := ⟨0x1000, 4, 1, [], .w1c, (.val 0), .wrm⟩

/-- SEC_STATUS.MEM_KEYS (17_security.md R569). -/
def secStatusMemKeys : Field := ⟨0x1000, 5, 1, [], .ro, (.val 0), .none⟩

/-- SEC_STATUS.PAIR_ROOT (17_security.md R569). -/
def secStatusPairRoot : Field := ⟨0x1000, 6, 1, [], .ro, .record, .por⟩

/-- SEC_ATT_IDX_LO.INDEX_LO (17_security.md R569). -/
def secAttIdxLoIndexLo : Field := ⟨0x1004, 0, 32, [], .ro, .record, .wrm⟩

/-- SEC_ATT_IDX_HI.INDEX_HI (17_security.md R569). -/
def secAttIdxHiIndexHi : Field := ⟨0x1008, 0, 8, [], .ro, .record, .wrm⟩

/-- SEC_ID_IDX.INDEX (17_security.md R569). -/
def secIdIdxIndex : Field := ⟨0x100c, 0, 20, [], .ro, .record, .wrm⟩

/-- SEC_SKIPPED.ATT (17_security.md R569). -/
def secSkippedAtt : Field := ⟨0x1010, 0, 16, [], .ro, .record, .por⟩

/-- SEC_SKIPPED.ID (17_security.md R569). -/
def secSkippedId : Field := ⟨0x1010, 16, 16, [], .ro, .record, .por⟩

/-- SEC_LINK.RETIRED (17_security.md R569). -/
def secLinkRetired : Field := ⟨0x1014, 0, 16, [], .ro, (.val 0), .none⟩

/-- SEC_LINK.KEY_EPOCH (17_security.md R569). -/
def secLinkKeyEpoch : Field := ⟨0x1014, 16, 16, [], .ro, (.val 0), .wrm⟩

/-- SEC_QUOTES.COUNT (17_security.md R569). -/
def secQuotesCount : Field := ⟨0x1018, 0, 32, [], .ro, (.val 0), .wrm⟩

/-- SEC_LINK_START.START (17_security.md R569). -/
def secLinkStartStart : Field := ⟨0x101c, 0, 32, [], .ro, .record, .wrm⟩

/-- SEC_VKEY.DIGEST (17_security.md R569). -/
def secVkeyDigest : Field := ⟨0x1040, 0, 32, [(4, 8)], .ro, .record, .por⟩

/-- SEC_OKEY.DIGEST (17_security.md R569). -/
def secOkeyDigest : Field := ⟨0x1060, 0, 32, [(4, 8)], .ro, .record, .por⟩

/-- PW_CTRL.PORT_EN (18_party_wall.md R589). -/
def pwCtrlPortEn : Field := ⟨0x15000, 0, 4, [], .rwl, .gen, .tlr⟩

/-- PW_SET.SET_ID (18_party_wall.md R589). -/
def pwSetSetId : Field := ⟨0x15004, 0, 32, [], .ro, .record, .por⟩

/-- PW_ID.POS (18_party_wall.md R589). -/
def pwIdPos : Field := ⟨0x15008, 0, 2, [], .ro, .record, .por⟩

/-- PW_ID.SIZE_M1 (18_party_wall.md R589). -/
def pwIdSizeM1 : Field := ⟨0x15008, 2, 2, [], .ro, .record, .por⟩

/-- PW_ERR.TAG_FAIL (18_party_wall.md R589). -/
def pwErrTagFail : Field := ⟨0x1500c, 0, 16, [], .ro, (.val 0), .none⟩

/-- PW_ERR.SEQ_DROP (18_party_wall.md R589). -/
def pwErrSeqDrop : Field := ⟨0x1500c, 16, 16, [], .ro, (.val 0), .none⟩

/-- PW_PORT.STATE (18_party_wall.md R589). -/
def pwPortState : Field := ⟨0x15010, 0, 3, [(4, 4)], .ro, (.val 0), .none⟩

/-- PW_PORT.PEER (18_party_wall.md R589). -/
def pwPortPeer : Field := ⟨0x15010, 3, 2, [(4, 4)], .ro, (.val 0), .none⟩

/-- PW_PORT.SPARE_USED (18_party_wall.md R589). -/
def pwPortSpareUsed : Field := ⟨0x15010, 5, 1, [(4, 4)], .ro, (.val 0), .none⟩

/-- PW_PORT.BAD_LANES (18_party_wall.md R589). -/
def pwPortBadLanes : Field := ⟨0x15010, 6, 9, [(4, 4)], .ro, .record, .mdr⟩

/-- PW_PORT.REPLAYS (18_party_wall.md R589). -/
def pwPortReplays : Field := ⟨0x15010, 16, 16, [(4, 4)], .ro, (.val 0), .none⟩

/-- PW_JOB_0.J (18_party_wall.md R589). -/
def pwJob0J : Field := ⟨0x15100, 0, 16, [(16, 16)], .rw, (.val 0), .tlr⟩

/-- PW_JOB_0.MEMBERS (18_party_wall.md R589). -/
def pwJob0Members : Field := ⟨0x15100, 16, 4, [(16, 16)], .rw, (.val 0), .tlr⟩

/-- PW_JOB_0.OPEN (18_party_wall.md R589). -/
def pwJob0Open : Field := ⟨0x15100, 20, 1, [(16, 16)], .wo, (.val 0), .none⟩

/-- PW_JOB_0.CLOSE (18_party_wall.md R589). -/
def pwJob0Close : Field := ⟨0x15100, 21, 1, [(16, 16)], .wo, (.val 0), .none⟩

/-- PW_JOB_0.STATE (18_party_wall.md R589). -/
def pwJob0State : Field := ⟨0x15100, 24, 3, [(16, 16)], .ro, (.val 0), .none⟩

/-- PW_JOB_1.BASE (18_party_wall.md R589). -/
def pwJob1Base : Field := ⟨0x15104, 0, 22, [(16, 16)], .rw, (.val 0), .tlr⟩

/-- PW_JOB_2.PAGES (18_party_wall.md R589). -/
def pwJob2Pages : Field := ⟨0x15108, 0, 23, [(16, 16)], .rw, (.val 0), .tlr⟩

/-- PW_PHASE.JOB (18_party_wall.md R589). -/
def pwPhaseJob : Field := ⟨0x15200, 0, 4, [(4, 32)], .rw, (.val 0), .tlr⟩

/-- PW_PHASE.GRAIN_LOG2 (18_party_wall.md R589). -/
def pwPhaseGrainLog2 : Field := ⟨0x15200, 4, 5, [(4, 32)], .rw, (.val 0), .tlr⟩

/-- PW_PHASE.NDEV_M1 (18_party_wall.md R589). -/
def pwPhaseNdevM1 : Field := ⟨0x15200, 9, 2, [(4, 32)], .rw, (.val 0), .tlr⟩

/-- PW_PHASE.DEV (18_party_wall.md R589). -/
def pwPhaseDev : Field := ⟨0x15200, 11, 8, [(4, 32)], .rw, (.val 0), .tlr⟩

/-- PW_PHASE.TIER (18_party_wall.md R589). -/
def pwPhaseTier : Field := ⟨0x15200, 19, 1, [(4, 32)], .rw, (.val 0), .tlr⟩

/-- FB_CTRL.PIN_LEVEL (19_fusebox.md R621). -/
def fbCtrlPinLevel : Field := ⟨0x2000, 0, 2, [], .rwl, .gen, .tlr⟩

/-- FB_CTRL.ATTN_LEVEL (19_fusebox.md R621). -/
def fbCtrlAttnLevel : Field := ⟨0x2000, 2, 2, [], .rwl, .gen, .tlr⟩

/-- FB_CTRL.REPAIR_MDR (19_fusebox.md R621). -/
def fbCtrlRepairMdr : Field := ⟨0x2000, 4, 1, [], .rwl, .gen, .tlr⟩

/-- FB_CTRL.TEST_MODE (19_fusebox.md R621). -/
def fbCtrlTestMode : Field := ⟨0x2000, 5, 2, [], .rwl, .gen, .tlr⟩

/-- FB_CTRL.FORCE_TICKS (19_fusebox.md R621). -/
def fbCtrlForceTicks : Field := ⟨0x2000, 8, 8, [], .rwl, .gen, .tlr⟩

/-- FB_STATUS.OPEN (19_fusebox.md R621). -/
def fbStatusOpen : Field := ⟨0x2004, 0, 7, [], .ro, (.val 0), .wrm⟩

/-- FB_STATUS.HIGHEST (19_fusebox.md R621). -/
def fbStatusHighest : Field := ⟨0x2004, 7, 2, [], .ro, (.val 0), .wrm⟩

/-- FB_STATUS.FAULT (19_fusebox.md R621). -/
def fbStatusFault : Field := ⟨0x2004, 9, 1, [], .ro, (.val 0), .wrm⟩

/-- FB_STATUS.STOP (19_fusebox.md R621). -/
def fbStatusStop : Field := ⟨0x2004, 10, 1, [], .ro, (.val 0), .wrm⟩

/-- FB_STATUS.STOPPED (19_fusebox.md R621). -/
def fbStatusStopped : Field := ⟨0x2004, 11, 1, [], .ro, (.val 0), .wrm⟩

/-- FB_STATUS.LOST (19_fusebox.md R621). -/
def fbStatusLost : Field := ⟨0x2004, 16, 16, [], .ro, (.val 0), .wrm⟩

/-- FB_ACK.SLOT (19_fusebox.md R621). -/
def fbAckSlot : Field := ⟨0x2008, 0, 6, [], .wo, (.val 0), .none⟩

/-- FB_ACK.ALL (19_fusebox.md R621). -/
def fbAckAll : Field := ⟨0x2008, 6, 1, [], .wo, (.val 0), .none⟩

/-- FB_ACK.KEY (19_fusebox.md R621). -/
def fbAckKey : Field := ⟨0x2008, 8, 8, [], .wo, (.val 0), .none⟩

/-- FB_TEST.NEXT (19_fusebox.md R621). -/
def fbTestNext : Field := ⟨0x200c, 0, 5, [], .ro, (.val 0), .none⟩

/-- FB_TEST.SINCE (19_fusebox.md R621). -/
def fbTestSince : Field := ⟨0x200c, 8, 8, [], .ro, (.val 0), .none⟩

/-- FB_TEST.DONE (19_fusebox.md R621). -/
def fbTestDone : Field := ⟨0x200c, 16, 16, [], .ro, (.val 0), .none⟩

/-- FB_LEDGER.PENDING (19_fusebox.md R621). -/
def fbLedgerPending : Field := ⟨0x2010, 0, 8, [], .ro, .record, .none⟩

/-- FB_LEDGER.ENTRIES (19_fusebox.md R621). -/
def fbLedgerEntries : Field := ⟨0x2010, 8, 16, [], .ro, .record, .none⟩

/-- FB_LEDGER.FULL (19_fusebox.md R621). -/
def fbLedgerFull : Field := ⟨0x2010, 24, 1, [], .ro, .record, .none⟩

/-- FB_LOFT.SPARES_USED (19_fusebox.md R621). -/
def fbLoftSparesUsed : Field := ⟨0x2040, 0, 16, [(4, 18)], .ro, .record, .mdr⟩

/-- FB_LOFT.UNREPAIRED (19_fusebox.md R621). -/
def fbLoftUnrepaired : Field := ⟨0x2040, 16, 8, [(4, 18)], .ro, (.val 0), .mdr⟩

/-- FB_LOFT.WITHDRAWN (19_fusebox.md R621). -/
def fbLoftWithdrawn : Field := ⟨0x2040, 24, 1, [(4, 18)], .ro, (.val 0), .mdr⟩

/-- FB_INJECT.INJECT (19_fusebox.md R621). -/
def fbInjectInject : Field := ⟨0x20f0, 0, 32, [], .ro, (.val 0), .none⟩

/-- FB_REC.WORD (19_fusebox.md R621). -/
def fbRecWord : Field := ⟨0x2100, 0, 32, [(32, 64), (4, 8)], .ro, (.val 0), .wrm⟩

/-- RST_LOCK.LOCKED (22_register_index.md R653). -/
def rstLockLocked : Field := ⟨0x3018, 0, 1, [], .ro, (.val 0), .tlr⟩

/-- RST_LOCK.SET (22_register_index.md R653). -/
def rstLockSet : Field := ⟨0x3018, 1, 1, [], .wo, (.val 0), .none⟩

/-- RST_LOCK.KEY (22_register_index.md R653). -/
def rstLockKey : Field := ⟨0x3018, 8, 8, [], .wo, (.val 0), .none⟩

/-- RST_LOCK.IGNORED (22_register_index.md R653). -/
def rstLockIgnored : Field := ⟨0x3018, 16, 16, [], .ro, (.val 0), .tlr⟩

/-- Fields of the STY block. -/
def styFields : List Field :=
  [styIdVendor, styIdPart, styIdStepping, styCfgIdLinks, styCfgIdTiles, styCfgIdSpares, stySerialLoSerialLo,
   stySerialHiSerialHi, styModeMode, styModeSfReason, styModeOwnerSlots, styModeGptpSync, styVerVersion,
   styVerLevel, stySlotsRunStudy, stySlotsRunPorch, stySlotsRunUcode, stySlotsFallback, styCompatPairs,
   styRollbackCount, styUpdateKind, styUpdatePhase, styUpdateSession, styHbPeriodMs, styHbMissed, styNetUdpPort,
   styNetPortEn, styNetGptpEn, styNetDropped, stySyncOffsetNs, styIdkeyDigest, styTempTemp, styTempValid,
   styRailMv, styRailCurrent]

/-- Fields of the SEC block. -/
def secFields : List Field :=
  [secStatusTsrBusy, secStatusTsrPhase, secStatusTsrByReset, secStatusMemKeys, secStatusPairRoot,
   secAttIdxLoIndexLo, secAttIdxHiIndexHi, secIdIdxIndex, secSkippedAtt, secSkippedId, secLinkRetired,
   secLinkKeyEpoch, secQuotesCount, secLinkStartStart, secVkeyDigest, secOkeyDigest]

/-- Fields of the FB block. -/
def fbFields : List Field :=
  [fbCtrlPinLevel, fbCtrlAttnLevel, fbCtrlRepairMdr, fbCtrlTestMode, fbCtrlForceTicks, fbStatusOpen,
   fbStatusHighest, fbStatusFault, fbStatusStop, fbStatusStopped, fbStatusLost, fbAckSlot, fbAckAll, fbAckKey,
   fbTestNext, fbTestSince, fbTestDone, fbLedgerPending, fbLedgerEntries, fbLedgerFull, fbLoftSparesUsed,
   fbLoftUnrepaired, fbLoftWithdrawn, fbInjectInject, fbRecWord]

/-- Fields of the RST block. -/
def rstFields : List Field :=
  [rstCauseLast, rstCauseSource, rstCauseUnit, rstCauseMdrCnt, rstCauseTlrCnt, rstReqKind, rstReqTile, rstReqKey,
   rstBootPhase, rstBootStartMs, rstGenNumber, rstGenState, rstGenSlot, rstGenReverted, rstGenClean,
   rstGenStartsLeft, rstTrialTicksLeft, rstOtherNumber, rstOtherState, rstLockLocked, rstLockSet, rstLockKey,
   rstLockIgnored]

/-- Fields of the PWR block. -/
def pwrFields : List Field :=
  [pwrCtrlStartLevel, pwrCtrlDozeEn, pwrCtrlDozeUs, pwrCtrlGraceMs, pwrCtrlBattStuckS, pwrStatusLevel,
   pwrStatusRequested, pwrStatusState, pwrStatusWakeIn, pwrStatusBattLow, pwrStatusAvsBusy, pwrCapsSupply,
   pwrCapsBatt, pwrCapsTherm, pwrCapsPower, pwrCapsWarnCnt, pwrRetainSlices, pwrRetainS3AfterMin,
   pwrThermCapLevel, pwrThermHotMax, pwrThermHotId, pwrLimitWatts, pwrLimitAvgW, pwrWakeTimerSeconds,
   pwrLastwakeRecord]

/-- Fields of the FD block. -/
def fdFields : List Field :=
  [fdCtrlManufId, fdCtrlClrCnt, fdTimingSetTrcdNs, fdTimingSetTrpNs, fdTimingSetTrasNs, fdTimingSetTwrNs,
   fdStatusInitDone, fdStatusHostAway, fdStatusBgMode, fdStatusSpillRows, fdStatusScrubBusy, fdKeptFirstRow,
   fdKeptBank, fdKeptCh, fdKeptRows, fdLinkErrCorr, fdLinkErrUncorr, fdViolCount, fdViolChMask]

/-- Fields of the RG block. -/
def rgFields : List Field :=
  [rgCtrlEnable, rgStatusRowValid, rgStatusRowRowOff, rgLimitsArriveUs, rgLimitsFenceUs, rgDbErrBadWord,
   rgDbErrSqOverflow, rgMarkMark, rgAttnStatusMboxReply, rgAttnStatusFault, rgAttnStatusPin, rgAttnSrcMboxAttn,
   rgAttnSrcMboxEn, rgAttnSrcFaultAttn, rgAttnSrcFaultEn, rgSqBaseBase, rgSqCfgLog2Entries, rgSqCfgPrio,
   rgSqCfgEnable, rgSqCfgErrCq, rgSqCfgHead, rgCqBaseBase, rgCqCfgLog2Entries, rgCqCfgAttn, rgCqCfgAttnEn,
   rgCqCfgEnable, rgCqCfgCoalCount, rgCqCfgCoalUs]

/-- Fields of the TK block. -/
def tkFields : List Field :=
  [tkCtrlEnable, tkCtrlSource, tkCtrlGalStream, tkCtrlPinEdge, tkCtrlTolerance, tkCtrlSubLimit, tkCtrlBgStarve,
   tkPeriodPeriodUs, tkVtPhasePhaseUs, tkUrgLimitLimitUs, tkUrgLimitUrgPolicy, tkLogBaseLoLogLo, tkLogBaseHiLogHi,
   tkNumberLoNumberLo, tkNumberHiNumberHi, tkStatusCursor, tkStatusTableLen, tkStatusSourceState, tkStatusBgPhase]

/-- Fields of the SP block. -/
def spFields : List Field :=
  [spLimitsRdReserve, spLimitsTokenTicks, spBatchThreshold, spBatchEnable, spBatchDeadlineUs, spStatusBusy,
   spStatusBatchOpen, spStatusBgStopped, spStatusPreempted]

/-- Fields of the WG block. -/
def wgFields : List Field :=
  [wgTableLoMaskW0, wgTableLoMaskW1, wgTableHiMaskW2, wgTableHiMaskW3, wgCurrentTickWt, wgCurrentBgWt,
   wgCurrentPresent, wgCurrentTiles]

/-- Fields of the TL block. -/
def tlFields : List Field :=
  [tlArithRound, tlMapPtile, tlMapBayFenced, tlMapPresent]

/-- Fields of the BY block. -/
def byFields : List Field :=
  [bySpareSparesUsed, bySpareSparesUsed.up 8, bySpareSparesUsed.up 16, bySpareSparesUsed.up 24,
   bySpareRepairPending, bySpareRepairPending.up 8, bySpareRepairPending.up 16, bySpareRepairPending.up 24,
   bySpareTileFail, bySpareTileFail.up 8, bySpareTileFail.up 16, bySpareTileFail.up 24, bySpareResidueErr,
   bySpareResidueErr.up 8, bySpareResidueErr.up 16, bySpareResidueErr.up 24]

/-- Fields of the VE block. -/
def veFields : List Field :=
  [veNanCntCount, veCtrlClrNan]

/-- Fields of the LOFT block. -/
def loftFields : List Field :=
  [loftSliceBand, loftSliceTemp, loftSliceCorr, loftUncorrCount, loftCtrlClrCnt]

/-- Fields of the CEL block. -/
def celFields : List Field :=
  [celCtrlRate, celCtrlEcc, celCtrlFitted, celCtrlCap, celStatusTrained, celStatusRefmult, celErrCorr,
   celErrUncorr]

/-- Fields of the PAN block. -/
def panFields : List Field :=
  [panErrCorr, panErrUncorr, panCtrlClrCnt]

/-- Fields of the DEED block. -/
def deedFields : List Field :=
  [deedFreeLoftFree, deedFreeCelFree, deedStateMigInflight, deedStateScrubBusy, deedStateEpoch, deedLoftSetSet,
   deedQueryPage, deedResultLoEntryLo, deedResultHiEntryHi, deedErrCorr, deedErrUncorr]

/-- Fields of the MMU block. -/
def mmuFields : List Field :=
  [mmuRootLoRootLo, mmuRootHiRootHi, mmuStatusInvalBusy, mmuStatusWalks]

/-- Fields of the ATT block. -/
def attFields : List Field :=
  [attSeqBaseLoBaseLo, attSeqBaseHiBaseHi, attCtrlSplitClass, attStatusBusyCnt, attStatusEditWait]

/-- Fields of the STRM block. -/
def strmFields : List Field :=
  [strmBaseLoBaseLo, strmBaseHiBaseHi, strmCtrlHoldTicks, strmStatusHeld, strmStatusEditWait, strmStatusTimeoutCnt]

/-- Fields of the VIS block. -/
def visFields : List Field :=
  [visBoxErrCount, visBoxErrSteps, visCtrlClrCnt]

/-- Fields of the PW block. -/
def pwFields : List Field :=
  [pwCtrlPortEn, pwSetSetId, pwIdPos, pwIdSizeM1, pwErrTagFail, pwErrSeqDrop, pwPortState, pwPortPeer,
   pwPortSpareUsed, pwPortBadLanes, pwPortReplays, pwJob0J, pwJob0Members, pwJob0Open, pwJob0Close, pwJob0State,
   pwJob1Base, pwJob2Pages, pwPhaseJob, pwPhaseGrainLog2, pwPhaseNdevM1, pwPhaseDev, pwPhaseTier]

/-- Fields of the GAL block. -/
def galFields : List Field :=
  [galPortEnable, galPortLanesCsi, galPortLaneMapCsi, galPortWidthParallel, galPortPclkEdgeParallel,
   galPortSyncParallel, galPortHsPolParallel, galPortVsPolParallel, galPortDePolParallel, galPortFmtParallel,
   galPortStatusPolSwapCsi, galPortStatusLaneFaultCsi, galPortStatusNoClockCsi, galPortStatusOrderFaultCsi,
   galPortStatusDetOrderCsi, galPortStatusHdrErrCsi, galPortStatusCrcErrCsi, galPortStatusStuckBitsParallel,
   galStatusOverflow, galStatusWriteErr, galClrClrCnt, galInCtrlEnable, galInCtrlPort, galInCtrlVc, galInCtrlDt,
   galInCtrlCfa, galInCtrlPx, galInCtrlPy, galInCtrlDecomp, galInCtrlLinePolicy, galInCtrlFramePolicy,
   galInCtrlEdgeT, galInGeomExpW, galInGeomExpH, galInTimingPeriodUs, galInTimingLateTol, galInLevelBlack,
   galInLevelIrSub, galGainsLoGain0, galGainsLoGain1, galGainsHiGain2, galGainsHiGain3, galFrameFrame,
   galDecompXX, galDecompYY, galOut0Enable, galOut0Src, galOut0Kind, galOut0Layout, galOut0OutFmt, galOut0ChSel,
   galOut0FrameDiv, galOut0TokenEn, galOut1X0, galOut1Y0, galOut2Cw, galOut2Ch, galOut3Ow, galOut3Oh,
   galOut4BaseLo, galOut5BaseHi, galOut5Token, galOut5BufM1, galOut6Stride, galOut6SlotPages, galOut7OutGain]

/-- Fields of the POR block. -/
def porFields : List Field :=
  [porCtrlEnable, porCtrlMute, porCtrlAutoSwap, porCtrlRate, porCtrlMinBeam, porCtrlChainEn, porCtrlDetLevel,
   porProfOsr, porProfClk1En, porProfBeamMask, porRingMaskRingMask, porStatusProfile, porStatusChangeWait,
   porStatusSettling, porSampleLoSampleLo, porSampleHiSampleHi, porEvtCntEvtCnt, porChTrim, porChState,
   porChSwapped, porChSwapUntestable, porMfCoef, porFeedLoDvaLo, porFeedHiDvaHi, porFeedHiFeedPages,
   porFeedCfgFeedMask, porFeedCfgFeedFmt, porFeedCfgPrerollMs, porChain0En, porChain0Class, porChain0Wing,
   porChain0Cq, porChain0Feed, porChain0TimeoutMs, porChain1ListLo, porChain2ListHi, porChain2Count,
   porChain3DecideLo, porChain4DecideHi, porChain5Tag, porEvtLoSampleLo, porEvtHiSampleHi, porEvtHiCode,
   porEvtHiCh, porWakeRecord]

/-- Fields of the KEY block. -/
def keyFields : List Field :=
  [keyCtrlEnable, keyCtrlImageOk, keyCtrlImageLevel, keyCtrlPhrases, keyStatusPartial, keyStatusMatchCnt,
   keyPhraseEn, keyPhraseStartChain, keyPhraseArm, keyPhraseMatch]

/-- The fields of the block that holds aperture offset `o` (22_register_index.md R649). -/
def blockFields (o : Nat) : List Field :=
  match o / 0x1000 with
  | 0 => styFields
  | 1 => secFields
  | 2 => fbFields
  | 3 => rstFields
  | 4 => pwrFields
  | 5 => fdFields
  | 6 => rgFields
  | 7 => tkFields
  | 8 => spFields
  | 9 => wgFields
  | 10 => tlFields
  | 11 => byFields
  | 12 => veFields
  | 13 => loftFields
  | 14 => celFields
  | 15 => panFields
  | 16 => deedFields
  | 17 => mmuFields
  | 18 => attFields
  | 19 => strmFields
  | 20 => visFields
  | 21 => pwFields
  | 22 => galFields
  | 23 => galFields
  | 24 => porFields
  | 25 => keyFields
  | _ => []

/-- Every field of every register. -/
def allFields : List Field :=
  styFields ++ secFields ++ fbFields ++ rstFields ++ pwrFields ++ fdFields ++ rgFields ++ tkFields ++ spFields ++ wgFields ++ tlFields ++ byFields ++ veFields ++
  loftFields ++ celFields ++ panFields ++ deedFields ++ mmuFields ++ attFields ++ strmFields ++
  visFields ++ pwFields ++ galFields ++ porFields ++ keyFields

/-- The fields of the register at aperture offset `o`. -/
def fieldsAt (o : Nat) : List Field :=
  ((blockFields o).filter fun f => f.covers o).map fun f => f.at_ o

end Sys2Proof.Machine.Reg
end

