-- ==== Sys2Proof/Machine/State.lean ====
section
/-! DEFINITION. The state of the SH16 as plain data: every register, queue, engine, counter and pin the manual gives it,
the queue of commands that are waiting, the reasons a step can stop, and the state after reset. -/

namespace Sys2Proof.Machine

/-- Why the machine stops with a fault. -/
inductive Fault where
  /-- Raised by `exec` on a command that no sender can send, because an operand lies outside what its event carries
  (`Instr.wellFormed` is false). Safe: the hardware never meets such a command. -/
  | illFormedCommand
  deriving DecidableEq, Repr

/-- Why the machine refuses a command. -/
inductive Refusal where
  /-- Raised by `exec` for a command that has no meaning in this model yet, under its mnemonic. Safe: nothing is
  claimed of a refused command. -/
  | notModelled (mnemonic : String)
  deriving DecidableEq, Repr

/-- The three work classes (R118; 02_the_tick.md R62 to R66), in the CLASS field's own numbering. -/
inductive Cls where
  | tick | background | urgent
  deriving DecidableEq, Repr


/-- What a completion record needs to know of its descriptor (04_rings_and_doorbells.md R142). -/
structure Ticket where
  /-- Submission ring (04_rings_and_doorbells.md R142). -/
  sq : Nat
  /-- INDEX of the descriptor (04_rings_and_doorbells.md R142). -/
  index : BitVec 16
  /-- Completion ring (04_rings_and_doorbells.md R118). -/
  cq : Nat
  /-- QUIET (04_rings_and_doorbells.md R118). -/
  quiet : Bool
  /-- TAG (04_rings_and_doorbells.md R118). -/
  tag : BitVec 64
  /-- Instant of admission (RUN_US) (04_rings_and_doorbells.md R142). -/
  at_ : Nat
  /-- Record of Urgent work (notifies at once) (04_rings_and_doorbells.md R147). -/
  urgent : Bool
  deriving DecidableEq, Repr

/-- A TICK_CONTROL descriptor that has been admitted and waits for its switch boundary. -/
structure SwitchJob where
  /-- The descriptor's completion ticket (02_the_tick.md R58). -/
  ticket : Ticket
  /-- TABLE_DVA (04_rings_and_doorbells.md R120). -/
  dva : BitVec 48
  /-- Table length L, 1 to 256 (04_rings_and_doorbells.md R120). -/
  len : Nat
  /-- Tick number whose boundary makes the switch (02_the_tick.md R59). -/
  target : BitVec 64
  deriving DecidableEq, Repr

/-- The tick: number, boundary history, tick table, budgets of the current tick. -/
structure TickSt where
  /-- Tick number of the current tick (02_the_tick.md R48). -/
  number : BitVec 64 := 0
  /-- Instant of the last boundary (start of the current tick) (02_the_tick.md R41). -/
  lastBoundary : Nat := 0
  /-- Arming instant, while the armed source has not yet given its first boundary (02_the_tick.md R50). -/
  armedAt : Option Nat := none
  /-- An early edge was ignored in this tick (EARLY of the record) (02_the_tick.md R51). -/
  early : Bool := false
  /-- This tick is the first after S2 or S3 (GAP of the record) (02_the_tick.md R49). -/
  gap : Bool := false
  /-- The next boundary is the first after a return to S0 (02_the_tick.md R49). -/
  gapNext : Bool := false
  /-- Consecutive substitute boundaries (02_the_tick.md R45). -/
  substRun : Nat := 0
  /-- This run of substitutes has raised its L2 fault (02_the_tick.md R45). -/
  substFault : Bool := false
  /-- The internally held tick table, one 32-byte entry each (02_the_tick.md R57). -/
  table : List (BitVec 256) := []
  /-- Admitted table switches, in admission order (02_the_tick.md R58). -/
  switches : List SwitchJob := []
  /-- Wings that overran in this tick (OVERRUN) (02_the_tick.md R51). -/
  overrun : BitVec 4 := 0
  /-- Wings that carried work into the next tick (CARRIED) (02_the_tick.md R51). -/
  carried : BitVec 4 := 0
  /-- Wings whose budget expiry of this tick has been applied (02_the_tick.md R68). -/
  expired : BitVec 4 := 0
  /-- Urgent work reached TK_URG_LIMIT in this tick (02_the_tick.md R51). -/
  urgLimit : Bool := false
  /-- Start of this tick's background phase (02_the_tick.md R63). -/
  bgStart : Option Nat := some 0
  /-- Consecutive ticks with a zero-length background phase (02_the_tick.md R72). -/
  starved : Nat := 0
  /-- A fault at L2 or above was raised during this tick (02_the_tick.md R53). -/
  l2 : Bool := false
  /-- No tick record has been written since the last skipped one, or none at all (02_the_tick.md R51). -/
  logSkipping : Bool := true
  /-- The Study reports vehicle-time synchronisation (02_the_tick.md R54). -/
  vtSync : Bool := false
  /-- Vehicle time at the boundary that began this tick (VT_STAMP) (02_the_tick.md R51). -/
  vtStamp : BitVec 64 := 0
  /-- Vehicle time minus `now`, in ns, as last synchronised (02_the_tick.md R51). -/
  vtBase : Int := 0
  /-- Phase error in ns still to be slewed out (02_the_tick.md R55). -/
  vtError : Int := 0
  /-- SOURCE_STATE in force during this tick, for its record (02_the_tick.md R51). -/
  sourceState : Nat := 3
  deriving DecidableEq, Repr

/-- One open row buffer of the Vestibule (03_front_door.md R80). -/
structure RowBuf where
  /-- Row held in the buffer (03_front_door.md R81). -/
  row : Nat
  /-- The 2,048 bytes, keyed by byte number (03_front_door.md R80). -/
  data : Mem
  /-- One dirty bit for each 32-byte sector (03_front_door.md R80). -/
  dirty : BitVec 64
  deriving DecidableEq, Repr

/-- A closed row's dirty sectors on their way to the window slice (03_front_door.md R84). -/
structure WriteBack where
  /-- Channel (03_front_door.md R84). -/
  ch : Nat
  /-- Bank (03_front_door.md R84). -/
  bank : Nat
  /-- Row (03_front_door.md R84). -/
  row : Nat
  /-- Bytes of the dirty sectors (03_front_door.md R84). -/
  data : Mem
  /-- Sectors that are to be written back (03_front_door.md R84). -/
  dirty : BitVec 64
  /-- Instant at which the row was closed (03_front_door.md R85). -/
  queuedAt : Nat
  /-- Order of closing, which tells the newest pending write-back of a sector (03_front_door.md R81). -/
  seq : Nat
  deriving DecidableEq, Repr

/-- One LPDDR5X channel of the Front Door (03_front_door.md R76). -/
structure FdChan where
  /-- Mode registers, keyed 256 × frequency set point + MR number; unlisted = default (03_front_door.md R96). -/
  mr : Tbl Byte := []
  /-- PDE until PDX (03_front_door.md R79). -/
  powerDown : Bool := false
  /-- Self-refresh (host away) (03_front_door.md R105). -/
  away : Bool := false
  /-- Deep sleep (host away) (03_front_door.md R105). -/
  deep : Bool := false
  /-- WCK synchronisation runs (CAS) (03_front_door.md R79). -/
  wck : Bool := false
  /-- Data rate at which the host operates the channel; 0 before it is known (03_front_door.md R77). -/
  rate : Nat := 0
  /-- Open row buffers by bank (03_front_door.md R80). -/
  open_ : Tbl RowBuf := []
  /-- Write-back queue, oldest first (03_front_door.md R84). -/
  queue : List WriteBack := []
  /-- Last ACT of each bank (03_front_door.md R90). -/
  lastAct : Tbl Nat := []
  /-- Earliest instant of the bank's next ACT (PRE plus tRPpb or tRPab) (03_front_door.md R90). -/
  lastPre : Tbl Nat := []
  /-- End of the last write burst of each bank (03_front_door.md R90). -/
  lastWr : Tbl Nat := []
  /-- The last four ACTs of the channel (tRRD, tFAW) (03_front_door.md R90). -/
  acts : List Nat := []
  /-- Write-training FIFO (WFF, RFF) (03_front_door.md R99). -/
  fifo : List (BitVec 256) := []
  /-- Training results (opaque to software; lost at an FDR and a main-die start) (03_front_door.md R99). -/
  trained : BitVec 64 := 0
  /-- WCK-to-DQ oscillator running since (03_front_door.md R96). -/
  oscStart : Option Nat := none
  /-- Last instant of each kind of command on each bank, keyed 32 × kind + bank (the MODEL's own, for the timings of R98 that the SH16 does not check) (03_front_door.md R90). -/
  recent : Tbl Nat := []
  /-- Last oscillator count (MR35, MR36) (03_front_door.md R96). -/
  oscCount : BitVec 16 := 0
  /-- Data returned by the last read burst (03_front_door.md R79). -/
  dq : List Byte := []
  /-- Value returned by the last MRR (03_front_door.md R79). -/
  mrData : Byte := 0
  deriving DecidableEq, Repr

/-- Front Door: channels, spill area, scrub map, window assignment. -/
structure FdSt where
  /-- The four channels (03_front_door.md R76). -/
  chans : Vector FdChan 4 := Vector.replicate 4 {}
  /-- Rows held in the spill area (03_front_door.md R85). -/
  spill : List WriteBack := []
  /-- Scrub-pending rows, half-open intervals of row numbers (16 × ch + bank) × 8192 + row (03_front_door.md R106). -/
  scrub : List (Nat × Nat) := []
  /-- Loft slice that holds each window slice (01_house_plan.md R28). -/
  slices : List Nat := [0,1,2,3,4,5,6,7,8,9,10,11,12,13,14,15]
  /-- Order number of the next close (03_front_door.md R84). -/
  nextSeq : Nat := 0
  deriving DecidableEq, Repr

/-- A submission ring's indices and the descriptor at its head (04_rings_and_doorbells.md R114, R116). -/
structure SqSt where
  /-- Last accepted tail (04_rings_and_doorbells.md R128). -/
  tail : BitVec 16 := 0
  /-- Next index to be read (04_rings_and_doorbells.md R146). -/
  head : BitVec 16 := 0
  /-- SQ_WAIT: 0 not waiting, 1 arrival, 2 fence, 3 completion space, 4 disabled (04_rings_and_doorbells.md R146). -/
  wait : Nat := 0
  /-- Accepted tail doorbells not yet wholly consumed, with their instants (04_rings_and_doorbells.md R133). -/
  bells : List (BitVec 16 × Nat) := []
  /-- Descriptor read and accepted, not yet admitted (04_rings_and_doorbells.md R135). -/
  accepted : Option (BitVec 512) := none
  /-- The accepted descriptor has waited for its fence since (04_rings_and_doorbells.md R136). -/
  fenceSince : Option Nat := none
  /-- Its fence wait has passed the limit: it completes with FENCE_TIMEOUT (04_rings_and_doorbells.md R136). -/
  fenceOut : Bool := false
  /-- Index whose NOT_ARRIVED record waits for the error CQ (04_rings_and_doorbells.md R134). -/
  errIndex : Option (BitVec 16) := none
  deriving DecidableEq, Repr

/-- A completion ring's indices, reservations and notification (04_rings_and_doorbells.md R139, R147). -/
structure CqSt where
  /-- Next index to be written (04_rings_and_doorbells.md R143). -/
  tail : BitVec 16 := 0
  /-- Last accepted head (04_rings_and_doorbells.md R129). -/
  head : BitVec 16 := 0
  /-- Records reserved for admitted work (04_rings_and_doorbells.md R139). -/
  reserved : Nat := 0
  /-- The CQ is notifying (04_rings_and_doorbells.md R147). -/
  notifying : Bool := false
  /-- Unfreed records since it last stopped notifying (04_rings_and_doorbells.md R147). -/
  coal : Nat := 0
  /-- Instant of the first such record (04_rings_and_doorbells.md R147). -/
  coalFirst : Option Nat := none
  deriving DecidableEq, Repr

/-- One ARM_URGENT arming in force (04_rings_and_doorbells.md R122). -/
structure Arming where
  /-- Event code (04_rings_and_doorbells.md R120). -/
  event : Nat
  /-- Wing (04_rings_and_doorbells.md R118). -/
  wing : Nat
  /-- LIST_DVA (04_rings_and_doorbells.md R120). -/
  dva : BitVec 48
  /-- Number of steps (04_rings_and_doorbells.md R120). -/
  count : Nat
  /-- REARM (04_rings_and_doorbells.md R122). -/
  rearm : Bool
  /-- The arming descriptor's ticket (04_rings_and_doorbells.md R122). -/
  ticket : Ticket
  /-- The arming holds a reservation (04_rings_and_doorbells.md R139). -/
  reserved : Bool
  /-- Work id of the run in progress (04_rings_and_doorbells.md R123). -/
  run : Option Nat
  /-- A DISARM waits for the run in progress; its own record follows the run's (04_rings_and_doorbells.md R122). -/
  disarm : Option Ticket
  /-- The arming is withdrawn, with this status for the DISARM that still waits (04_rings_and_doorbells.md R124). -/
  ends : Option Byte := none
  deriving DecidableEq, Repr

/-- A completion record that waits for room in its completion ring (04_rings_and_doorbells.md R124, R134, R140). -/
structure Owed where
  /-- The completion ring (04_rings_and_doorbells.md R142). -/
  cq : Nat
  /-- A record for the error ring of this submission ring, which was set up anew meanwhile (04_rings_and_doorbells.md R134). -/
  sq : Option Nat
  /-- The record, its PHASE still 0 (04_rings_and_doorbells.md R142). -/
  bits : BitVec 256
  /-- Record of Urgent work (04_rings_and_doorbells.md R147). -/
  urgent : Bool
  deriving DecidableEq, Repr

/-- A mailbox request taken and not yet answered (04_rings_and_doorbells.md R153). -/
structure MailReq where
  /-- SEQ of the request (04_rings_and_doorbells.md R153). -/
  seq : BitVec 16
  /-- The request's body (04_rings_and_doorbells.md R153). -/
  body : List Byte
  /-- The doorbell's VALUE differed from the header's SEQ, or the header is malformed (04_rings_and_doorbells.md R153). -/
  bad : Bool
  deriving DecidableEq, Repr

/-- Rings, armings, mailbox. -/
structure RingSt where
  /-- Submission rings by number (unlisted: never enabled) (04_rings_and_doorbells.md R114). -/
  sq : Tbl SqSt := []
  /-- Completion rings by number (unlisted: never enabled) (04_rings_and_doorbells.md R114). -/
  cq : Tbl CqSt := []
  /-- Armings in force (04_rings_and_doorbells.md R123). -/
  armings : List Arming := []
  /-- Records that wait for room, oldest first (04_rings_and_doorbells.md R140). -/
  owed : List Owed := []
  /-- Mailbox request not yet answered (04_rings_and_doorbells.md R153). -/
  mail : Option MailReq := none
  /-- Admission closed (sleep entry, ordered MDR, stop, tenant switch) (04_rings_and_doorbells.md R124). -/
  closed : Bool := false
  /-- Next ring of the PRIO 1 group (04_rings_and_doorbells.md R137). -/
  rrHi : Nat := 0
  /-- Next ring of the PRIO 0 group (04_rings_and_doorbells.md R137). -/
  rrLo : Nat := 0
  deriving DecidableEq, Repr

/-- Who ordered a piece of work (04_rings_and_doorbells.md R122, R142; 13_porch.md R436): it decides what its end writes. -/
inductive Src where
  /-- A STEP_LIST descriptor. -/
  | ring (t : Ticket)
  /-- A run of the arming for `event`; its record carries the arming's INDEX and TAG. -/
  | arming (event : Nat) (t : Ticket)
  /-- A stage of the Porch's wake chain: its record's fields, and the SEQ of the wake record. -/
  | chain (t : Ticket) (seq : BitVec 32)
  deriving DecidableEq, Repr

/-- Where a step list stands (02_the_tick.md R62 to R70; 05_steps_and_wings.md R184, R188). -/
inductive Phase where
  /-- Admitted; waits for its boundary, background phase, tiles or predecessor. -/
  | waiting
  /-- Its tiles run it. -/
  | running
  /-- A Background list whose tiles hold its stopped context (R184). -/
  | stopped
  /-- Pre-empted by Urgent work (R183). -/
  | preempted
  /-- Parked at a step that has joined a batch (R188). -/
  | parked
  deriving DecidableEq, Repr

/-- A work item of a step (05_steps_and_wings.md R158, R169). -/
structure PlanItem where
  /-- Its number: of an output block, unit, row, slab, box, or item (05_steps_and_wings.md R158). -/
  no : Nat
  /-- Wing rank that runs it (05_steps_and_wings.md R158). -/
  rank : Nat
  /-- Part of a split block (06_tile_arithmetic.md R210). -/
  part : Nat := 0
  /-- It writes its rows; a part of a split block does not (06_tile_arithmetic.md R211). -/
  drains : Bool := true
  /-- First output row it writes (05_steps_and_wings.md R169). -/
  lo : Nat
  /-- The row after its last (05_steps_and_wings.md R169). -/
  hi : Nat
  /-- Ranges of the main input that it reads: offset and length (05_steps_and_wings.md R169). -/
  needs : List (Nat × Nat) := []
  /-- DVA ranges of its other sources (05_steps_and_wings.md R169). -/
  extra : List (Nat × Nat) := []
  deriving DecidableEq, Repr

/-- How a step is divided among the tiles of its wing, and which of its work items have not run yet (05_steps_and_wings.md R158, R169). -/
structure StepPlan where
  /-- The step (05_steps_and_wings.md R158). -/
  step : Nat
  /-- Its descriptor (05_steps_and_wings.md R159). -/
  desc : BitVec 512
  /-- Its output operand (05_steps_and_wings.md R169). -/
  base : Nat
  /-- Bytes from one output row to the next (05_steps_and_wings.md R169). -/
  pitch : Nat
  /-- Rows of an output slab (05_steps_and_wings.md R169). -/
  slab : Nat
  /-- Work items not yet run, in order (05_steps_and_wings.md R158). -/
  items : List PlanItem
  deriving DecidableEq, Repr

/-- An output block in one of the two accumulator sets of a bay, until it is drained (06_tile_arithmetic.md R202, R211). -/
structure AccBlock where
  /-- The step (06_tile_arithmetic.md R202). -/
  step : Nat
  /-- The block (06_tile_arithmetic.md R210). -/
  no : Nat
  /-- Tile of its part 0 (06_tile_arithmetic.md R211). -/
  tile : Nat
  /-- Bay of its part 0 (06_tile_arithmetic.md R210). -/
  bay : Nat
  /-- Parts that have arrived: number and FP32 sums (06_tile_arithmetic.md R211). -/
  parts : List (Nat × List (BitVec 32)) := []
  deriving DecidableEq, Repr

/-- A consumer tile of a hand-off (05_steps_and_wings.md R170). -/
structure HandTile where
  /-- Logical tile (05_steps_and_wings.md R170). -/
  tile : Nat
  /-- Slabs that it reads, ascending (05_steps_and_wings.md R169). -/
  slabs : List Nat
  /-- Slabs it has finished with, whose slots are free again (05_steps_and_wings.md R170). -/
  freed : Nat := 0
  deriving DecidableEq, Repr

/-- A step whose output is handed to the next one (05_steps_and_wings.md R170). -/
structure HandOff where
  /-- The producing step (05_steps_and_wings.md R170). -/
  step : Nat
  /-- The next step's input operand: the slots (05_steps_and_wings.md R170). -/
  base : BitVec 48
  /-- Slab slots of each consumer tile (05_steps_and_wings.md R170). -/
  slots : Nat
  /-- Bytes of a slab (05_steps_and_wings.md R170). -/
  bytes : Nat
  /-- The consumer tiles (05_steps_and_wings.md R170). -/
  tiles : List HandTile
  deriving DecidableEq, Repr

/-- Bytes of a slab that wait for a credit of a consumer tile (05_steps_and_wings.md R170). -/
structure OutPiece where
  /-- Consumer tile (05_steps_and_wings.md R170). -/
  tile : Nat
  /-- Offset in the output (05_steps_and_wings.md R170). -/
  off : Nat
  /-- The bytes (05_steps_and_wings.md R170). -/
  bytes : List Byte
  deriving DecidableEq, Repr

/-- One tile's progress through a step list (05_steps_and_wings.md R167). -/
structure TileRun where
  /-- Logical tile (05_steps_and_wings.md R158). -/
  tile : Nat
  /-- Shares of steps below this one are complete (05_steps_and_wings.md R167). -/
  next : Nat := 0
  /-- The share of step `next` runs (05_steps_and_wings.md R167). -/
  busy : Bool := false
  /-- A stop request is pending; it takes effect at the end of the running quantum (05_steps_and_wings.md R179). -/
  stop : Bool := false
  /-- The share is stopped and its context spilled (05_steps_and_wings.md R180). -/
  spilled : Bool := false
  /-- Boundaries waited for the named token of step `next` (05_steps_and_wings.md R175). -/
  waited : Nat := 0
  /-- Previous contents of each output unit that the share has written (none: of a bad unit) (05_steps_and_wings.md R160). -/
  undo : List (List (Nat × Option Byte)) := []
  /-- Output that waits for slab credits (05_steps_and_wings.md R170). -/
  out : List OutPiece := []
  /-- DVA page of the access at which its next work item is held, and whether that is a table walk (08_memory_tiers.md R292). -/
  held : Option (Nat × Bool) := none
  /-- Outstanding reads of the share (05_steps_and_wings.md R177). -/
  reads : Nat := 0
  /-- Reads of the share that wait for a credit (05_steps_and_wings.md R177). -/
  unissued : Nat := 0
  /-- Pages that its outstanding reads lie in: DVA page, home, frame (05_steps_and_wings.md R177). -/
  pages : List (Nat × Nat × Nat) := []
  /-- Input rows that the share has read into its line buffer (11_vision_operators.md R361). -/
  lines : List Nat := []
  /-- A residue check has failed in the share (06_tile_arithmetic.md R222). -/
  broken : Bool := false
  /-- Token that the running step emits (05_steps_and_wings.md R172). -/
  emit : Option Nat := none
  /-- Status with which the share ends (05_steps_and_wings.md R176). -/
  status : Byte := 0
  /-- DETAIL that goes with it (04_rings_and_doorbells.md R142). -/
  detail : BitVec 32 := 0
  deriving DecidableEq, Repr

/-- What the shares of a step of a list have touched so far (05_steps_and_wings.md R168). -/
structure Touch where
  /-- The step (05_steps_and_wings.md R168). -/
  step : Nat
  /-- Its ORDER (05_steps_and_wings.md R168). -/
  ordered : Bool
  /-- Location ranges read: first and length (05_steps_and_wings.md R168). -/
  reads : List (Nat × Nat)
  /-- Location ranges written (05_steps_and_wings.md R168). -/
  writes : List (Nat × Nat)
  deriving DecidableEq, Repr

/-- One admitted step list (02_the_tick.md R62; 05_steps_and_wings.md R157). -/
structure Work where
  /-- The model's name for the list; admission order (02_the_tick.md R62). -/
  id : Nat
  /-- Work class (04_rings_and_doorbells.md R118). -/
  cls : Cls
  /-- Wing number (04_rings_and_doorbells.md R118). -/
  wing : Nat
  /-- Who ordered it (04_rings_and_doorbells.md R142). -/
  src : Src
  /-- LIST_DVA (04_rings_and_doorbells.md R120). -/
  dva : BitVec 48
  /-- Number of steps (04_rings_and_doorbells.md R120). -/
  count : Nat
  /-- Target tick of Tick work (02_the_tick.md R62). -/
  target : BitVec 64
  /-- Instant of admission (02_the_tick.md R71). -/
  admTime : Nat
  /-- Where the list stands (02_the_tick.md R63). -/
  phase : Phase := .waiting
  /-- Progress of each tile of its wing, in rank order (05_steps_and_wings.md R158). -/
  tiles : List TileRun := []
  /-- Steps completed on every tile (05_steps_and_wings.md R167). -/
  done : Nat := 0
  /-- The list ends with this status and DETAIL once no tile runs (05_steps_and_wings.md R176). -/
  ending : Option (Byte × BitVec 32) := none
  /-- The list ends with this status and DETAIL once every tile has completed its shares below this step (05_steps_and_wings.md R176). -/
  halt : Option (Nat × Byte × BitVec 32) := none
  /-- The batch its current step has joined (05_steps_and_wings.md R187). -/
  batch : Option Nat := none
  /-- The division of its last steps (05_steps_and_wings.md R158). -/
  plans : List StepPlan := []
  /-- Output blocks in accumulator sets (06_tile_arithmetic.md R202). -/
  blocks : List AccBlock := []
  /-- Hand-offs of its last steps (05_steps_and_wings.md R170). -/
  hands : List HandOff := []
  /-- SCAN step and item whose failure gave `halt` its status (10_state_streams.md R350). -/
  itemFail : Option (Nat × Nat) := none
  /-- CROP_RESIZE steps that have raised their VIS_BOX note (11_vision_operators.md R376). -/
  boxNoted : List Nat := []
  /-- GATHER steps that have raised their SP_GATHER_RANGE note (05_steps_and_wings.md R163). -/
  gatherNoted : List Nat := []
  /-- What the shares of its last steps have touched (05_steps_and_wings.md R168). -/
  touched : List Touch := []
  deriving DecidableEq, Repr

/-- An open or running batch (05_steps_and_wings.md R187). -/
structure Batch where
  /-- The model's name for the batch (05_steps_and_wings.md R187). -/
  id : Nat
  /-- Wing (05_steps_and_wings.md R187). -/
  wing : Nat
  /-- Class (05_steps_and_wings.md R187). -/
  cls : Cls
  /-- BATCH, weight DVA, K, N, formats and scale settings (05_steps_and_wings.md R187). -/
  key : List Nat
  /-- Rows gathered (05_steps_and_wings.md R187). -/
  rows : Nat
  /-- Instant of the first join (05_steps_and_wings.md R189). -/
  since : Nat
  /-- Lists parked in it, in join order (05_steps_and_wings.md R188). -/
  members : List Nat
  /-- The batch has been released and runs (05_steps_and_wings.md R189). -/
  released : Bool := false
  deriving DecidableEq, Repr

/-- What a half of a bay's feeder buffer was filled from last (06_tile_arithmetic.md R198, R201). -/
structure Feeder where
  /-- Bay (06_tile_arithmetic.md R198). -/
  bay : Nat
  /-- 0 activations, 1 weights, 2 scales (06_tile_arithmetic.md R198). -/
  kind : Nat
  /-- Which half (06_tile_arithmetic.md R198). -/
  half : Bool
  /-- The step and the round of its work items, one on each bay, for which it was filled (06_tile_arithmetic.md R201). -/
  round : Nat
  /-- DVA of the first byte (06_tile_arithmetic.md R198). -/
  dva : Nat
  /-- Length (06_tile_arithmetic.md R198). -/
  len : Nat
  deriving DecidableEq, Repr

/-- A spill context in use (05_steps_and_wings.md R180). -/
structure Spill where
  /-- The stopped list; its accumulators on the tile are the list's output blocks there (05_steps_and_wings.md R180). -/
  work : Nat
  /-- Names the bytes of the context, whose layout the manual does not give (05_steps_and_wings.md R180). -/
  key : Nat
  deriving DecidableEq, Repr

/-- Outstanding reads of a share that was discarded (05_steps_and_wings.md R177, R181). -/
structure Orphan where
  /-- Reads (05_steps_and_wings.md R177). -/
  n : Nat
  /-- Of Urgent work (05_steps_and_wings.md R178). -/
  urgent : Bool
  /-- Pages they lie in (05_steps_and_wings.md R177). -/
  pages : List (Nat × Nat × Nat)
  deriving DecidableEq, Repr

/-- What a tile holds beside its Pantry (05_steps_and_wings.md R172, R177, R180). -/
structure TileSt where
  /-- Named tokens that are set, in ascending order (05_steps_and_wings.md R172). -/
  tokens : List Nat := []
  /-- Outstanding reads of discarded shares (05_steps_and_wings.md R177). -/
  orphans : List Orphan := []
  /-- Feeder buffers (06_tile_arithmetic.md R198). -/
  feeders : List Feeder := []
  /-- Spill context 0: the Background list whose stopped context the tile holds (05_steps_and_wings.md R180). -/
  bgCtx : Option Spill := none
  /-- Spill context 1: the Tick list whose stopped context the tile holds (05_steps_and_wings.md R180). -/
  tickCtx : Option Spill := none
  deriving DecidableEq, Repr

/-- An emission of a named token on its way (05_steps_and_wings.md R172). -/
structure Emission where
  /-- Token (05_steps_and_wings.md R172). -/
  token : Nat
  /-- Emitting list (05_steps_and_wings.md R172). -/
  work : Nat
  /-- Emitting step (05_steps_and_wings.md R172). -/
  step : Nat
  /-- Tiles of the emitting wing whose emission every tile has received (05_steps_and_wings.md R172). -/
  from_ : List Nat
  /-- Tiles of the emitting wing (05_steps_and_wings.md R172). -/
  need : List Nat
  /-- Tiles that have not yet taken the emission (05_steps_and_wings.md R172). -/
  to_ : List Nat
  /-- The emission has raised its SP_TOKEN note (05_steps_and_wings.md R172). -/
  noted : Bool := false
  deriving DecidableEq, Repr

/-- A PLACE descriptor on the migration engine, or a MIGRATE share (08_memory_tiers.md R277). -/
structure PlaceJob where
  /-- The model's name for the request (08_memory_tiers.md R277). -/
  id : Nat
  /-- The PLACE descriptor's ticket; none for a MIGRATE step (08_memory_tiers.md R277). -/
  ticket : Option Ticket
  /-- The MIGRATE step's list and tile (08_memory_tiers.md R277). -/
  work : Option (Nat × Nat)
  /-- The MIGRATE step (08_memory_tiers.md R277). -/
  step : Nat
  /-- DVA of the range's first page (08_memory_tiers.md R272). -/
  base : BitVec 48
  /-- Pages of the range (08_memory_tiers.md R272). -/
  count : Nat
  /-- Next page of the range to be handled (08_memory_tiers.md R273). -/
  pos : Nat
  /-- Distance to the page after it: 1, or the ranks of the wing (08_memory_tiers.md R277). -/
  stride : Nat
  /-- Hint class (08_memory_tiers.md R272). -/
  cls : Nat
  /-- Its argument (08_memory_tiers.md R272). -/
  arg : Nat
  /-- 0 place, 1 release, 2 reclass, 3 place and zero (08_memory_tiers.md R272). -/
  mode : Nat
  /-- FORCE (08_memory_tiers.md R272). -/
  force : Bool
  /-- First page of the range that met UNCORRECTABLE (08_memory_tiers.md R662). -/
  uncorr : Option Nat := none
  /-- First that met NO_HOME (08_memory_tiers.md R662). -/
  noHome : Option Nat := none
  /-- First that met TRANSLATION_FAULT (08_memory_tiers.md R662). -/
  fault : Option Nat := none
  /-- A move could not be completed over the links (18_party_wall.md R587). -/
  link : Bool := false
  /-- Pages left unplaced (08_memory_tiers.md R275). -/
  unplaced : Nat := 0
  /-- A PINNED page was refused (08_memory_tiers.md R276). -/
  pinned : Bool := false
  /-- Its moves and zeroings still in flight (08_memory_tiers.md R277). -/
  moves : Nat := 0
  deriving DecidableEq, Repr

/-- An INVALIDATE in progress (08_memory_tiers.md R292). -/
structure InvalJob where
  /-- Its ticket (08_memory_tiers.md R292). -/
  ticket : Ticket
  /-- First DVA page (08_memory_tiers.md R291). -/
  lo : Nat
  /-- Number of pages (08_memory_tiers.md R291). -/
  pages : Nat
  /-- ALL (08_memory_tiers.md R291). -/
  all_ : Bool
  /-- Shares that had an access in the range under way at its admission (08_memory_tiers.md R292). -/
  waits : List (Nat × Nat) := []
  deriving DecidableEq, Repr

/-- Step lists, tiles, batches and the descriptors that wait for something other than a tile. -/
structure WorkSt where
  /-- Next admission number (02_the_tick.md R62). -/
  nextId : Nat := 0
  /-- 64-byte units that the work item under way reads (the MODEL's own count) (05_steps_and_wings.md R177). -/
  unitReads : Nat := 0
  /-- Pages they lie in (the MODEL's own) (05_steps_and_wings.md R177). -/
  pageLog : List (Nat × Nat × Nat) := []
  /-- Location ranges that the work item under way has read (the MODEL's own) (05_steps_and_wings.md R160). -/
  readLog : List (Nat × Nat) := []
  /-- What the output unit under way has overwritten (the MODEL's own) (05_steps_and_wings.md R160). -/
  undoCur : List (Nat × Option Byte) := []
  /-- What each output unit of the work item under way overwrote (the MODEL's own) (05_steps_and_wings.md R160). -/
  undoLog : List (List (Nat × Option Byte)) := []
  /-- Elements that running steps have written to parts of compressed blocks, by step and place (08_memory_tiers.md R297). -/
  exact : Tbl Mem := []
  /-- Admitted step lists, in admission order (02_the_tick.md R62). -/
  works : List Work := []
  /-- Tile states by logical number (unlisted: idle and empty) (05_steps_and_wings.md R167). -/
  tiles : Tbl TileSt := []
  /-- Named-token emissions not yet complete (05_steps_and_wings.md R172). -/
  emissions : List Emission := []
  /-- Open and running batches (05_steps_and_wings.md R187). -/
  batches : List Batch := []
  /-- Accepted WING_TABLE descriptors, which wait for the next boundary (05_steps_and_wings.md R165). -/
  wingJobs : List (Ticket × BitVec 256) := []
  /-- PLACE requests and MIGRATE shares in progress (08_memory_tiers.md R277). -/
  places : List PlaceJob := []
  /-- INVALIDATE descriptors in progress (08_memory_tiers.md R292). -/
  invals : List InvalJob := []
  /-- SEQUENCE edits that wait to be applied (09_attention_and_kv.md R313). -/
  seqJobs : List (Ticket × BitVec 256) := []
  /-- STREAM_AWAY (0) and STREAM_HOME (1) edits that wait to be applied (10_state_streams.md R353). -/
  strmJobs : List (Ticket × Nat × BitVec 256) := []
  /-- PERF_REQUEST descriptors that wait for the boundary or for the sleep entry (14_power.md R465). -/
  perfJobs : List (Ticket × BitVec 256) := []
  deriving DecidableEq, Repr

/-- A page move in flight (08_memory_tiers.md R278). -/
structure Move where
  /-- UPA page (08_memory_tiers.md R278). -/
  page : Nat
  /-- Destination home (08_memory_tiers.md R278). -/
  home : Nat
  /-- Destination frame (08_memory_tiers.md R278). -/
  frame : Nat
  /-- The entry as it stood before MOVING (08_memory_tiers.md R278). -/
  entry : BitVec 64
  /-- The request that ordered it (08_memory_tiers.md R277). -/
  job : Option Nat
  /-- Its place in the range of that request (08_memory_tiers.md R662). -/
  idx : Nat := 0
  /-- Mode 3: zero the page after the move if it is SCRUB_PENDING (08_memory_tiers.md R273). -/
  zero : Bool
  /-- The destination is another device of the job (18_party_wall.md R586). -/
  remote : Bool := false
  deriving DecidableEq, Repr

/-- A write held in a Deed partition (08_memory_tiers.md R270, R283). -/
structure Held where
  /-- UPA page (08_memory_tiers.md R270). -/
  page : Nat
  /-- Byte offset in the page (08_memory_tiers.md R270). -/
  off : Nat
  /-- The bytes (08_memory_tiers.md R270). -/
  bytes : List Byte
  /-- Who wrote it (08_memory_tiers.md R290). -/
  agent : Nat := 17
  /-- The step of a share that wrote it (08_memory_tiers.md R270). -/
  key : Nat := 0
  /-- Its DVA (04_rings_and_doorbells.md R142). -/
  dva : Nat := 0
  deriving DecidableEq, Repr

/-- The Deed table and the migration engine. -/
structure DeedSt where
  /-- Deed entries by UPA page (unlisted: UNHOMED, HOME 31) (08_memory_tiers.md R269). -/
  entries : Tbl (BitVec 64) := []
  /-- Moves in flight (08_memory_tiers.md R279). -/
  moves : List Move := []
  /-- Writes held until their page leaves MOVING or ZEROING, oldest first (08_memory_tiers.md R270). -/
  held : List Held := []
  /-- Frames held by FAILED pages, never returned to a free list (08_memory_tiers.md R302). -/
  lost : List (Nat × Nat) := []
  /-- Page the background scrubber last zeroed (08_memory_tiers.md R284). -/
  scrubPos : Option Nat := none
  /-- Pages being zeroed for a mode 3 request, and their place in its range (08_memory_tiers.md R273). -/
  zeroJobs : List (Nat × Nat × Nat) := []
  deriving DecidableEq, Repr

/-- A cached leaf translation (08_memory_tiers.md R290). -/
structure XlatEntry where
  /-- DVA page (of a block: its first) (08_memory_tiers.md R290). -/
  page : Nat
  /-- The table entry (08_memory_tiers.md R287). -/
  entry : BitVec 64
  /-- 512 MiB block entry (08_memory_tiers.md R287). -/
  block : Bool
  deriving DecidableEq, Repr

/-- Translation caches. -/
structure XlatSt where
  /-- Caches by agent: tiles 0 to 15, the Gallery 16, the companion-die bridge 17; most recently used first (08_memory_tiers.md R290). -/
  caches : Tbl (List XlatEntry) := []
  deriving DecidableEq, Repr

/-- One item of an ATTENTION step, with its sequence-table entry as it stood at the step's start (09_attention_and_kv.md R316). -/
structure AttItem where
  /-- SEQ (09_attention_and_kv.md R316). -/
  seq : Nat
  /-- N (09_attention_and_kv.md R316). -/
  n : Nat
  /-- Its entry (09_attention_and_kv.md R319). -/
  entry : BitVec 256
  deriving DecidableEq, Repr

/-- An ATTENTION step that is running (09_attention_and_kv.md R313). -/
structure AttRun where
  /-- Its list (09_attention_and_kv.md R313). -/
  work : Nat
  /-- Its step (09_attention_and_kv.md R313). -/
  step : Nat
  /-- Its items (09_attention_and_kv.md R313). -/
  items : List AttItem
  /-- APPEND (09_attention_and_kv.md R319). -/
  append : Bool
  /-- ADVANCE (09_attention_and_kv.md R321). -/
  advance : Bool
  /-- SPLIT_CLASS as the step began, by which every tile divides it (09_attention_and_kv.md R328). -/
  split : Nat
  /-- Its new rows are written (09_attention_and_kv.md R320). -/
  appended : Bool := false
  /-- Status and DETAIL of the lowest-numbered failing item (09_attention_and_kv.md R319). -/
  verdict : Option (Byte × BitVec 32) := none
  deriving DecidableEq, Repr

/-- Attention. -/
structure AttSt where
  /-- ATTENTION steps running, from their first start until complete on every tile (09_attention_and_kv.md R313). -/
  runs : List AttRun := []
  deriving DecidableEq, Repr

/-- One item of a SCAN share (10_state_streams.md R344). -/
structure ScanItem where
  /-- Item index in the list (10_state_streams.md R344). -/
  idx : Nat
  /-- Stream-table entry (10_state_streams.md R344). -/
  stream : Nat
  /-- Valid positions (10_state_streams.md R344). -/
  valid : Nat
  /-- Sequence number (10_state_streams.md R344). -/
  seq : BitVec 32
  /-- Another item of the same step names its stream (10_state_streams.md R347). -/
  dup : Bool := false
  /-- Boundaries met since it became held; none: not held (10_state_streams.md R354). -/
  heldAt : Option Nat := none
  /-- It is to be checked again: its entry has changed since it became held (10_state_streams.md R347). -/
  again : Bool := false
  deriving DecidableEq, Repr

/-- The share of a SCAN step that runs on a tile (10_state_streams.md R346). -/
structure ScanShare where
  /-- List (10_state_streams.md R346). -/
  work : Nat
  /-- Step (10_state_streams.md R346). -/
  step : Nat
  /-- Tile (10_state_streams.md R346). -/
  tile : Nat
  /-- The step's descriptor (10_state_streams.md R343). -/
  desc : BitVec 512
  /-- Items not yet come to start, in list order (10_state_streams.md R346). -/
  todo : List ScanItem
  /-- Held items (10_state_streams.md R347). -/
  held : List ScanItem := []
  /-- The item that runs (10_state_streams.md R347). -/
  running : Option ScanItem := none
  /-- STATE_DVA as read at its start (10_state_streams.md R348). -/
  stateDva : BitVec 48 := 0
  /-- Its carried-out state, already in STATE_FMT, to be written when it completes (10_state_streams.md R336). -/
  carry : List Byte := []
  /-- Lowest-numbered item that failed: index, stream, status (10_state_streams.md R350). -/
  failed : Option (Nat × Nat × Byte) := none
  deriving DecidableEq, Repr

/-- State-carrying streams. -/
structure StrmSt where
  /-- SCAN shares in progress (10_state_streams.md R346). -/
  shares : List ScanShare := []
  deriving DecidableEq, Repr

/-- One received line of a frame (12_gallery.md R387). -/
structure GalLine where
  /-- Pixel codes as received, cut to EXP_W (12_gallery.md R387). -/
  px : List Nat
  /-- SHORT_LINE, LONG_LINE, CRC, missing (12_gallery.md R387). -/
  flags : BitVec 4
  deriving DecidableEq, Repr

/-- The frame in progress of an input stream (12_gallery.md R388). -/
structure GalFrame where
  /-- Instant of its frame start (12_gallery.md R401). -/
  start : Nat
  /-- Tick number at its frame start (12_gallery.md R401). -/
  tick : BitVec 64
  /-- Vehicle time at its frame start (12_gallery.md R401). -/
  vt : BitVec 64
  /-- Its FRAME (12_gallery.md R386). -/
  frame : BitVec 32
  /-- Lines received so far (12_gallery.md R387). -/
  lines : List GalLine := []
  /-- Lines after EXP_H, which are cut (LONG_FRAME) (12_gallery.md R388). -/
  extra : Nat := 0
  /-- LATE (12_gallery.md R389). -/
  late : Bool := false
  /-- Lines lost by overflow (12_gallery.md R390). -/
  lost : Nat := 0
  /-- Embedded-data payloads of this frame (12_gallery.md R399). -/
  embedded : List (List Byte) := []
  /-- Parallel data bits that have changed in this frame (12_gallery.md R409). -/
  changed : BitVec 16 := 0
  /-- Last sample of the data pins (for R409) (12_gallery.md R409). -/
  lastCode : Option Nat := none
  deriving DecidableEq, Repr

/-- Input stream as in force (12_gallery.md R404). -/
structure GalIn where
  /-- Enabled and in force (12_gallery.md R404). -/
  on : Bool := false
  /-- CTRL in force (12_gallery.md R404). -/
  ctrl : BitVec 32 := 0
  /-- GEOM in force (12_gallery.md R404). -/
  geom : BitVec 32 := 0
  /-- TIMING in force (12_gallery.md R404). -/
  timing : BitVec 32 := 0
  /-- LEVEL in force (12_gallery.md R404). -/
  level : BitVec 32 := 0
  /-- GAIN0 to GAIN3 in force (12_gallery.md R404). -/
  gains : List (BitVec 16) := [0, 0, 0, 0]
  /-- Frame in progress (12_gallery.md R388). -/
  cur : Option GalFrame := none
  /-- Previous frame start (12_gallery.md R389). -/
  lastStart : Option Nat := none
  /-- The late event of the awaited frame was raised (12_gallery.md R389). -/
  lateDone : Bool := false
  deriving DecidableEq, Repr

/-- A frame that has ended and whose outputs are not all written (12_gallery.md R388, R401). -/
structure GalEnd where
  /-- Its input stream (12_gallery.md R388). -/
  stream : Nat
  /-- That stream's registers as they were in force for it (12_gallery.md R404). -/
  regs : GalIn
  /-- The frame (12_gallery.md R388). -/
  frame : GalFrame
  /-- When it ended (12_gallery.md R401). -/
  ended : Nat
  /-- Output streams that take it and are still to be written, with their configuration (12_gallery.md R400). -/
  outs : List (Nat × List (BitVec 32))
  deriving DecidableEq, Repr

/-- Output stream as in force (12_gallery.md R404). -/
structure GalOut where
  /-- Enabled and in force (12_gallery.md R404). -/
  on : Bool := false
  /-- Its eight configuration words in force (12_gallery.md R404). -/
  cfg : List (BitVec 32) := []
  /-- Delivered frames since enable (12_gallery.md R400). -/
  d : Nat := 0
  /-- Source frames since enable (FRAME_DIV) (12_gallery.md R400). -/
  seen : Nat := 0
  /-- It takes the frame in progress (12_gallery.md R404). -/
  inFrame : Bool := false
  deriving DecidableEq, Repr

/-- Wire state of a port (12_gallery.md R406 to R408). -/
structure GalPort where
  /-- Lanes whose GAL_POLARITY note was raised since the port was enabled (12_gallery.md R406). -/
  noted : BitVec 4 := 0
  /-- Packets are discarded until LANE_MAP is written (12_gallery.md R407). -/
  discard : Bool := false
  /-- The port waits for a frame start that is received whole (12_gallery.md R408). -/
  faulted : Bool := false
  /-- Lane order under which the last header, which failed, would have passed (12_gallery.md R407). -/
  wrong : Option (BitVec 8) := none
  /-- Packets of data types that are not supported (12_gallery.md R381). -/
  unsupported : Nat := 0
  /-- Parallel: HSYNC was active at the last PCLK (12_gallery.md R384). -/
  hs : Bool := false
  /-- Parallel: VSYNC was active at the last PCLK, or the embedded codes were those of active video (12_gallery.md R384). -/
  vs : Bool := false
  /-- Parallel: samples of the line in progress (12_gallery.md R384). -/
  buf : List Nat := []
  /-- Parallel, embedded: the last three samples, oldest first (12_gallery.md R384). -/
  last3 : List Nat := []
  /-- Parallel, embedded: between the start and the end code of an active line (12_gallery.md R384). -/
  inLine : Bool := false
  deriving DecidableEq, Repr

/-- Gallery. -/
structure GalSt where
  /-- Input streams (unlisted: off) (12_gallery.md R380). -/
  ins : Tbl GalIn := []
  /-- Output streams (unlisted: off) (12_gallery.md R380). -/
  outs : Tbl GalOut := []
  /-- Frames that have ended and whose outputs are not all written, oldest first (12_gallery.md R388). -/
  ends : List GalEnd := []
  /-- Ports (unlisted: as after reset) (12_gallery.md R380). -/
  ports : Tbl GalPort := []
  deriving DecidableEq, Repr

/-- A Porch change (13_porch.md R427), waiting or applied. -/
inductive PorChange where
  /-- A write that alters RATE. -/
  | rate (v : Nat)
  /-- A write that alters RING_MASK. -/
  | ringMask (m : BitVec 16)
  /-- A switch to the SLEEP (true) or the RUN (false) profile. -/
  | profile (sleep : Bool)
  /-- A swap correction of data wire `d`. -/
  | swap (d : Nat)
  /-- The load of a Keyhole image: interface level, phrases, digest. -/
  | image (level phrases : Nat)
  /-- Entry into S3. -/
  | enterS3
  deriving DecidableEq, Repr

/-- Where the wake chain stands (13_porch.md R436, R437). -/
inductive ChainPhase where
  /-- Waits for the main die to be in S0 and for RG_CTRL.ENABLE. -/
  | starting
  /-- The stage's list has been admitted as the work of this number. -/
  | posted (work : Nat)
  /-- That list has completed with this status. -/
  | ended (status : Byte)
  deriving DecidableEq, Repr

/-- A partial match of one phrase (13_porch.md R432). -/
structure Partial where
  /-- Its start (13_porch.md R432). -/
  start : Nat
  /-- START_SAMPLE (13_porch.md R433). -/
  startSample : BitVec 64
  /-- STATE_START (13_porch.md R434). -/
  startState : Nat
  /-- Highest score reached (13_porch.md R434). -/
  score : Nat
  deriving DecidableEq, Repr

/-- A running wake chain (13_porch.md R435). -/
structure Chain where
  /-- Stage last started (or to be started) (13_porch.md R435). -/
  stage : Nat
  /-- Where it stands (13_porch.md R436). -/
  phase : ChainPhase
  /-- SEQ of its wake record (13_porch.md R436). -/
  seq : BitVec 32
  /-- START_SAMPLE of its wake record (13_porch.md R440). -/
  startSample : BitVec 64
  /-- First posting of the stage (13_porch.md R437). -/
  firstPost : Option Nat
  /-- CHAIN_EN was cleared; ends after the list in flight (13_porch.md R438). -/
  stopping : Bool := false
  deriving DecidableEq, Repr

/-- The audio feed (13_porch.md R440). -/
structure Feed where
  /-- FEED_DVA (13_porch.md R440). -/
  base : BitVec 48
  /-- FEED_PAGES (13_porch.md R440). -/
  pages : Nat
  /-- FEED_MASK (13_porch.md R440). -/
  mask : BitVec 17
  /-- FEED_FMT (13_porch.md R440). -/
  fmt : Nat
  /-- FIRST_SAMPLE (13_porch.md R441). -/
  first : BitVec 64
  /-- Next sample to be copied (13_porch.md R440). -/
  next : BitVec 64
  /-- WRITTEN (13_porch.md R441). -/
  written : BitVec 64 := 0
  /-- GAP (13_porch.md R441). -/
  gap : Bool := false
  /-- MUTED (13_porch.md R441). -/
  muted : Bool := false
  deriving DecidableEq, Repr

/-- Porch and Keyhole. -/
structure PorSt where
  /-- POR_SAMPLE: the next sample number (13_porch.md R425). -/
  sample : BitVec 64 := 0
  /-- POR_SAMPLE_HI as latched (13_porch.md R444). -/
  sampleHi : BitVec 32 := 0
  /-- Pre-roll ring (13_porch.md R424). -/
  ring : Mem := []
  /-- Beam samples of the frames the ring holds, newest first (the beam is formed again from them for a feed) (13_porch.md R440). -/
  beams : List (BitVec 24) := []
  /-- Sample number below which a sample may have been muted (13_porch.md R441). -/
  mutedUpTo : BitVec 64 := 0
  /-- RATE in force (13_porch.md R428). -/
  rate : Nat := 0
  /-- RING_MASK in force (13_porch.md R428). -/
  ringMask : BitVec 16 := 1
  /-- SLEEP profile in force (13_porch.md R427). -/
  sleepProf : Bool := false
  /-- OSR in force (13_porch.md R413). -/
  profOsr : Nat := 0
  /-- CLK1_EN in force (13_porch.md R412). -/
  profClk1 : Bool := false
  /-- BEAM_MASK in force (13_porch.md R417). -/
  profBeam : BitVec 16 := 0
  /-- Settling samples still to come (13_porch.md R430). -/
  settle_ : Nat := 0
  /-- Waiting changes with the instant of their request (13_porch.md R428). -/
  changes : List (PorChange × Nat) := []
  /-- Power state at the last Keyhole frame boundary (STATE_START of a partial match that starts in the frame after it) (13_porch.md R434). -/
  frameState : Nat := 0
  /-- Partial matches by phrase (13_porch.md R432). -/
  partials : Tbl Partial := []
  /-- Phrases whose partial match ended by the 2.5 s limit and whose score has not yet been below ARM (13_porch.md R432). -/
  blocked : List Nat := []
  /-- Consecutive windows in which a channel's fault condition no longer held (13_porch.md R420). -/
  good : List Nat := []
  /-- Consecutive windows in which a wire looked swapped (13_porch.md R421). -/
  swapRun : List Nat := []
  /-- Wires whose two channels have exchanged numbers (13_porch.md R422). -/
  swapMap : List Nat := []
  /-- The POR_MIC fault of too few healthy channels is held (13_porch.md R420). -/
  beamFault : Bool := false
  /-- Sequence number of the next wake record (13_porch.md R434). -/
  seqNext : BitVec 32 := 1
  /-- The running chain (13_porch.md R435). -/
  chain : Option Chain := none
  /-- The running feed (13_porch.md R440). -/
  feed : Option Feed := none
  /-- Channels that carried zeros in those samples, newest first (13 R420, R423). -/
  quiet : List (BitVec 16) := []
  /-- Aligned signals of the newest sample (13_porch.md R440). -/
  newest : List (BitVec 24) := []
  /-- Bits of the channels since the decimators were reset, newest first, as far as the filters of R414 look back (13_porch.md R411). -/
  pdm : List (BitVec 16) := []
  /-- Beam at 16 kHz of the last 10 ms, newest first (13_porch.md R418). -/
  keyBeam : List (BitVec 24) := []
  /-- The last decimated samples of each channel, for the filters of R416 (13_porch.md R416). -/
  hist : List (List (BitVec 24)) := []
  deriving DecidableEq, Repr

/-- The power states (14_power.md R469). -/
inductive PState where
  | s0 | s1 | s2 | s3 | s4
  deriving DecidableEq, Repr

/-- Where a sleep entry stands (14_power.md R471, R473). -/
inductive Entry where
  /-- No entry in progress. -/
  | none
  /-- Admission is closed and work is being stopped; a wake source abandons the entry (R472). -/
  | stopping (toS3 : Bool)
  /-- Irrevocable: the record is written and the grace time runs. -/
  | grace (toS3 : Bool)
  /-- The main group is off; the entry waits for the Porch's change (R471, R473). -/
  | porch (toS3 : Bool)
  deriving DecidableEq, Repr

/-- Supplies, levels and sleep states. -/
structure PwrSt where
  /-- Power state (14_power.md R469). -/
  state : PState := .s0
  /-- Sleep entry in progress (14_power.md R471). -/
  entry : Entry := .none
  /-- The PERF_REQUEST that ordered it (14_power.md R471). -/
  sleepTicket : Option Ticket := none
  /-- LEVEL of that PERF_REQUEST (14_power.md R465). -/
  sleepLevel : Nat := 0
  /-- Instant at which the entry became irrevocable (14_power.md R471). -/
  irrevAt : Nat := 0
  /-- Instant of the entry into S2 or S3 (14_power.md R475). -/
  sleptAt : Nat := 0
  /-- Wake source held until the entry ends, with its WAKE_SEQ (14_power.md R472). -/
  wakePending : Option (Nat × BitVec 32) := none
  /-- State being left by a wake (2 or 3), until the main die has started (14_power.md R478). -/
  waking : Option Nat := none
  /-- Level whose frequency the arithmetic clock has (14_power.md R462). -/
  clock : Nat := 0
  /-- Highest level whose voltage the regulator has reported reached (14_power.md R463). -/
  reached : Nat := 0
  /-- Level whose voltage was last written (14_power.md R462). -/
  target : Nat := 0
  /-- Since the main group came up, the first voltage write has completed (14_power.md R450). -/
  coreSet : Bool := true
  /-- A start's voltage write awaits completion; what the start's self-test then finds (14_power.md R450). -/
  startAvs : Option (List Finding) := none
  /-- The thermal cap applies, even at a CAP_LEVEL that does not limit (14_power.md R466). -/
  thermOn : Bool := false
  /-- Requested level (14_power.md R461). -/
  requested : Nat := 0
  /-- Rails below their warning threshold (14_power.md R452). -/
  supplyBad : List Nat := []
  /-- When the supply cap next rises (14_power.md R461). -/
  supplyHold : Option Nat := none
  /-- When the battery cap next rises (14_power.md R461). -/
  battHold : Option Nat := none
  /-- When the thermal cap next rises (14_power.md R461). -/
  thermRise : Option Nat := none
  /-- When the thermal cap next falls by a further level (14_power.md R466). -/
  thermFall : Option Nat := none
  /-- When the power cap next rises (14_power.md R461). -/
  powerRise : Option Nat := none
  /-- BATT_WARN_N low since (14_power.md R456). -/
  battLowSince : Option Nat := none
  /-- The BATT_WARN_STUCK fault of this low period was raised (14_power.md R456). -/
  battFaulted : Bool := false
  /-- Every rail of the main group is good (14_power.md R449). -/
  mainGood : Bool := true
  /-- Every rail of the Loft group is good (14_power.md R449). -/
  loftGood : Bool := true
  /-- Every rail of the companion group is good (14_power.md R449). -/
  aonGood : Bool := true
  /-- REFCLK_MAIN present (14_power.md R460). -/
  refMain : Bool := true
  /-- REFCLK_AON present (14_power.md R460). -/
  refAon : Bool := true
  /-- Both groups are off after a thermal trip (14_power.md R468). -/
  tripped : Bool := false
  /-- Last temperature readings (16_study.md R505). -/
  temps : List Int := []
  /-- Sensors judged faulty (16_study.md R506). -/
  sensBad : List Nat := []
  /-- Consecutive readings that differ from both neighbours (16_study.md R506). -/
  sensDiff : List Nat := []
  /-- A Loft-group dip during S2 lost the retained slices (14_power.md R474). -/
  loftLost : Bool := false
  /-- No work admitted or running since (14_power.md R470). -/
  idleSince : Option Nat := some 0
  deriving DecidableEq, Repr

/-- Why a main-die reset is under way (15_resets_and_retention.md R486, R502): the SOURCE code of RST_CAUSE and what follows it. -/
inductive After where
  /-- Nothing further. -/
  | nothing
  /-- A PCR follows (settings activation, revert; firmware activation). -/
  | pcr
  deriving DecidableEq, Repr

/-- An ordered MDR in progress (15_resets_and_retention.md R486). -/
structure MdrJob where
  /-- SOURCE code (15_resets_and_retention.md R502). -/
  source : Nat
  /-- What follows it (15_resets_and_retention.md R497). -/
  after : After
  /-- The Study's decision (15_resets_and_retention.md R486). -/
  t0 : Nat
  /-- The start counts against STARTS_LEFT (not so for the activation's own MDR) (15_resets_and_retention.md R498). -/
  countStart : Bool
  deriving DecidableEq, Repr

/-- Resets in progress. -/
structure ResetSt where
  /-- An ordered MDR whose grace time runs (15_resets_and_retention.md R486). -/
  mdr : Option MdrJob := none
  /-- A main-die start waits for its supplies (PHASE tells how far it is) (15_resets_and_retention.md R484). -/
  starting : Bool := false
  /-- Reset code of that start: 1 POR, 2 WRM, 4 MDR, 9 wake from S2, 10 wake from S3 (15_resets_and_retention.md R488). -/
  startKind : Nat := 1
  /-- The Loft group's rails caused it: the shadow and every row are lost (15_resets_and_retention.md R489). -/
  loftLost : Bool := false
  /-- It is an ordered MDR (Cellar contents and saved sectors kept) (15_resets_and_retention.md R488). -/
  ordered : Bool := false
  /-- RESET_N is low (15_resets_and_retention.md R485). -/
  resetLow : Bool := false
  /-- Fitted Cellar channels are being trained; accesses to their pages are held (15_resets_and_retention.md R486). -/
  cellarWait : Bool := false
  /-- Tiles under a TLR, back at the first boundary at least 100 µs after the trigger (15_resets_and_retention.md R481). -/
  tlr : List (Nat × Nat) := []
  /-- The Study restarts (15_resets_and_retention.md R483). -/
  strBusy : Bool := false
  /-- A PCR follows the STR in progress (16_study.md R535). -/
  afterPcr : Bool := false
  /-- An ordered MDR follows it (16_study.md R535). -/
  afterMdr : Bool := false
  /-- Held in reset by a lost reference clock (19_fusebox.md R602). -/
  mdrHeld : Bool := false
  deriving DecidableEq, Repr

/-- Slot states of settings generations (15_resets_and_retention.md R496), in the encoding of RST_GEN. -/
inductive GenState where
  | empty | staged | trial | settled | rejected
  deriving DecidableEq, Repr

/-- The flash's contents that the device acts on (16_study.md R510). -/
structure FlashSt where
  /-- Image slots: Study A, B, Porch A, B, microcode A, B (16_study.md R510). -/
  images : List (Option Image) := []
  /-- Active slot of each kind (16_study.md R511). -/
  active : List Nat := [0, 0, 0]
  /-- Sequence number of the governing directory copy (16_study.md R511). -/
  dirSeq : Nat := 1
  /-- Settings generation slots (15_resets_and_retention.md R496). -/
  gens : List (Option Generation) := []
  /-- Their states (15_resets_and_retention.md R496). -/
  genState : List GenState := []
  /-- STARTS_LEFT as last written (15_resets_and_retention.md R498). -/
  startsLeft : Nat := 0
  /-- TICKS_LEFT as last written (15_resets_and_retention.md R498). -/
  ticksLeft : Nat := 0
  /-- The current generation was restored by a revert (15_resets_and_retention.md R502). -/
  reverted : Bool := false
  /-- Repair ledger: P-tiles failed in service, in the order of their failure (19_fusebox.md R616). -/
  tileBad : List Nat := []
  /-- Repair ledger: P-tiles repaired at the factory (01_house_plan.md R25). -/
  factoryBad : List Nat := []
  /-- Repair ledger: failed lane rows (P-tile, bay, lane row) (19_fusebox.md R609). -/
  bayRows : List (Nat × Nat × Nat) := []
  /-- Repair ledger: how many of these are in effect, the oldest first (19_fusebox.md R615). -/
  rowsApplied : Nat := 0
  /-- Repair ledger: replaced bond lanes (slice, lane) (19_fusebox.md R612). -/
  bondBad : List (Nat × Nat) := []
  /-- Repair ledger: its entries as stored, in the order of their findings (19_fusebox.md R615). -/
  ledger : List (BitVec 128) := []
  /-- A record of the reservation region can be written and read back (17_security.md R549). -/
  recordOk : Bool := true
  /-- Flash log, oldest first (16_study.md R540). -/
  log : List (BitVec 512) := []
  deriving DecidableEq, Repr

/-- Fuses (never change but by programming). -/
structure FuseSt where
  /-- 1: SH16-A2L36P (16_study.md R541). -/
  links : Bool := false
  /-- Device serial (16_study.md R541). -/
  serial : BitVec 64 := 0
  /-- Owner secrets provisioned, oldest first (16_study.md R524). -/
  slots : List (BitVec 256) := []
  /-- Anti-rollback counter (16_study.md R534). -/
  rollback : Nat := 0
  /-- Device root secret DRS, which nothing outside the Strongroom can read (17_security.md R544). -/
  rootSecret : BitVec 256 := 0
  /-- Pairing root of the party-wall set (17_security.md R571). -/
  pairRoot : BitVec 256 := 0
  /-- Identity key digest (16_study.md R541). -/
  idKey : BitVec 256 := 0
  /-- MAC address (16_study.md R530). -/
  mac : BitVec 48 := 0
  deriving DecidableEq, Repr

/-- A management session (16_study.md R525). -/
structure Session where
  /-- Session number S (16_study.md R525). -/
  num : Nat
  /-- Session key KS (16_study.md R525). -/
  key : List Byte
  /-- Last accepted request counter (16_study.md R526). -/
  counter : Nat := 0
  /-- Instant of its last message (16_study.md R526). -/
  last : Nat
  deriving DecidableEq, Repr

/-- An update in progress (16_study.md R532, R533). -/
structure Update where
  /-- Update kind 1 to 5 (16_study.md R532). -/
  kind : Nat
  /-- Length named by UPDATE_BEGIN (16_study.md R533). -/
  length : Nat
  /-- SHAKE256 digest named by it (16_study.md R533). -/
  digest : List Byte
  /-- Chunks received, keyed by offset (16_study.md R533). -/
  data : Mem := []
  /-- 1 staging, 2 verified, 3 committed (16_study.md R533). -/
  phase : Nat := 1
  /-- Owning session (16_study.md R532). -/
  session : Nat
  /-- What UPDATE_VERIFY found the staged bytes to hold (16_study.md R533). -/
  what : Option Staged := none
  deriving DecidableEq, Repr

/-- The Study. -/
structure StudySt where
  /-- The Study runs (16_study.md R504). -/
  up : Bool := true
  /-- Nonces issued and not yet used, with the instant (16_study.md R525). -/
  nonces : List (List Byte × Nat) := []
  /-- Open sessions (16_study.md R526). -/
  sessions : List Session := []
  /-- Failed proofs or tags of the last 60 s, by transport (16_study.md R526). -/
  fails : List (Nat × Bool) := []
  /-- Transports that refuse AUTH, with the end of the refusal (16_study.md R526). -/
  lockout : List (Nat × Bool) := []
  /-- Update in progress (16_study.md R532). -/
  update : Option Update := none
  /-- Logbook tail (retention SRAM), oldest first (16_study.md R540). -/
  tail : List (BitVec 512) := []
  /-- SEQ of the newest logbook entry (16_study.md R539). -/
  logSeq : Nat := 0
  /-- Completed sensor scans since POR (16_study.md R536). -/
  scans : Nat := 0
  /-- Heartbeats answered since POR (16_study.md R536). -/
  hbSeq : Nat := 0
  /-- Last heartbeat (or note of its absence) (16_study.md R538). -/
  hbLast : Nat := 0
  /-- Consecutive sync messages within ±1 µs (16_study.md R531). -/
  gptpGood : Nat := 0
  /-- Reply body and RESULT that the next MAILBOX_REPLY writes (04_rings_and_doorbells.md R154). -/
  replyMail : Option (List Byte × Nat) := none
  /-- Datagrams sent on the management port, oldest first (16_study.md R522). -/
  portOut : List (List Byte) := []
  /-- Slots of the running set (16_study.md R515). -/
  set_ : List Nat := [0, 0, 0]
  deriving DecidableEq, Repr

/-- A tenant switch in progress (17_security.md R551). -/
structure TsrJob where
  /-- Its descriptor's ticket (17_security.md R551). -/
  ticket : Ticket
  /-- Its admission (17_security.md R551). -/
  t0 : Nat
  /-- The epoch has advanced (17_security.md R555). -/
  advanced : Bool := false
  /-- Rows that its start marked scrub-pending (17_security.md R555). -/
  rows : List (Nat × Nat) := []
  deriving DecidableEq, Repr

/-- The Strongroom. -/
structure SecSt where
  /-- Tenant switch in progress (noted in retention SRAM, R555) (17_security.md R551). -/
  tsr : Option TsrJob := none
  /-- Ports on which a packet was already discarded since the last switch (17_security.md R548). -/
  retiredPorts : List Nat := []
  /-- Block of the attestation index kept in retention SRAM (17_security.md R560). -/
  attBlock : Nat := 0
  /-- Block of the identity index (17_security.md R560). -/
  idBlock : Nat := 0
  /-- Highest attestation block reserved in flash (17_security.md R561). -/
  attHigh : Nat := 0
  /-- Highest identity block reserved in flash (17_security.md R561). -/
  idHigh : Nat := 0
  /-- Highest valid link start-count record (17_security.md R549). -/
  startHigh : Nat := 0
  /-- The start-count record of this POR was read back (17_security.md R549). -/
  startOk : Bool := true
  /-- Identity index with which the attestation certificate in flash was made (17_security.md R562). -/
  certIndex : Nat := 0
  deriving DecidableEq, Repr


/-- What a device holds of a member of an opening or open job (18_party_wall.md R576). -/
structure Peer where
  /-- Board position (18_party_wall.md R576). -/
  pos : Nat
  /-- Its JOB_OPEN has arrived and verified (18_party_wall.md R576). -/
  open_ : Bool := false
  /-- Its key epoch (18_party_wall.md R576). -/
  ke : BitVec 16 := 0
  /-- SEQ values accepted, within 4,096 of the highest (18_party_wall.md R579). -/
  recv : List (BitVec 64) := []
  /-- Last SEQ sent to it (18_party_wall.md R578). -/
  sent : BitVec 64 := 0
  deriving DecidableEq, Repr

/-- A job register's engine state (18_party_wall.md R576). -/
structure PwJob where
  /-- Members other than this device (18_party_wall.md R576). -/
  peers : List Peer := []
  /-- Instant of the write of OPEN (18_party_wall.md R577). -/
  openAt : Nat := 0
  /-- CLOSE written; outstanding requests are waited for (18_party_wall.md R577). -/
  closing : Bool := false
  deriving DecidableEq, Repr

/-- A party-wall port (18_party_wall.md R573). -/
structure PwPort where
  /-- The peer's link start count, recorded at pairing (18_party_wall.md R573). -/
  peerPc : BitVec 32 := 0
  /-- Faulty lanes (also in the repair ledger) (18_party_wall.md R574). -/
  bad : BitVec 9 := 0
  deriving DecidableEq, Repr

/-- A request sent to a remote home and not yet answered (18_party_wall.md R581). -/
structure RemoteReq where
  /-- Requesting agent (tiles 0 to 15, the Gallery 16, the companion-die bridge 17) (18_party_wall.md R581). -/
  agent : Nat
  /-- Request tag (18_party_wall.md R578). -/
  rtag : BitVec 16
  /-- Job register (18_party_wall.md R581). -/
  job : Nat
  /-- UPA page (18_party_wall.md R581). -/
  page : Nat
  /-- First unit (18_party_wall.md R578). -/
  unit : Nat
  /-- WRITE_REQ (18_party_wall.md R581). -/
  write : Bool
  /-- Payload of a write; length of a read (18_party_wall.md R581). -/
  data : List Byte
  /-- Member it was sent to (18_party_wall.md R582). -/
  target : Nat
  /-- The step of the share that sent it (18_party_wall.md R581). -/
  key : Nat := 0
  /-- The DVA that it serves (04_rings_and_doorbells.md R142). -/
  dva : Nat := 0
  /-- Redirects so far (18_party_wall.md R582). -/
  redirects : Nat := 0
  /-- Waits its 5 µs before starting again (18_party_wall.md R582). -/
  waiting : Bool := false
  deriving DecidableEq, Repr

/-- A page that arrives from another device (18_party_wall.md R586). -/
structure Incoming where
  /-- UPA page (18_party_wall.md R586). -/
  page : Nat
  /-- Home of its frame here (18_party_wall.md R586). -/
  home : Nat
  /-- Its frame (18_party_wall.md R586). -/
  frame : Nat
  /-- Board position of the source (18_party_wall.md R586). -/
  src : Nat
  /-- Job register (18_party_wall.md R586). -/
  job : Nat
  /-- MOVE_DATA packets that have arrived, by first unit ÷ 32 (18_party_wall.md R586). -/
  units : List Nat := []
  /-- MOVE_COMMIT has been sent; MOVE_DONE is awaited (18_party_wall.md R586). -/
  committed : Bool := false
  /-- The entry as it stood before, to be kept when the peer is lost (18_party_wall.md R588). -/
  before : BitVec 64
  deriving DecidableEq, Repr

/-- Party-wall links. -/
structure PwSt where
  /-- Ports (unlisted: as after reset) (18_party_wall.md R573). -/
  ports : Tbl PwPort := []
  /-- Job registers' engine state (18_party_wall.md R576). -/
  jobs : Tbl PwJob := []
  /-- Job numbers used under the current key epoch (retention SRAM) (18_party_wall.md R577). -/
  used : List (BitVec 16) := []
  /-- Packets sent, oldest first (18_party_wall.md R578). -/
  out : List Packet := []
  /-- Outstanding remote requests (18_party_wall.md R581). -/
  reqs : List RemoteReq := []
  /-- Remote bytes that READ_RSP brought for the steps that asked, keyed by UPA (18_party_wall.md R581). -/
  cache : Tbl Byte := []
  /-- Remote units whose response carried a status other than OK, keyed by UPA unit (18_party_wall.md R581). -/
  refused : Tbl Byte := []
  /-- UPA units a waiting share has asked for: unit, requester (18_party_wall.md R581). -/
  asked : List (Nat × Nat) := []
  /-- Pages arriving from other devices (18_party_wall.md R586). -/
  incoming : List Incoming := []
  /-- Requests held because their page is MOVING or ZEROING here (18_party_wall.md R581). -/
  lateReqs : List Packet := []
  /-- JOB_OPEN packets that verified before this device opened the job (DEDUCED): packet, MEMBERS, BASE, PAGES (18_party_wall.md R576). -/
  early : List (Packet × BitVec 4 × BitVec 22 × BitVec 23) := []
  /-- Next request tag (18_party_wall.md R578). -/
  rtagNext : BitVec 16 := 0
  deriving DecidableEq, Repr

/-- A record slot (19_fusebox.md R592). -/
structure FaultRec where
  /-- CLASS (19_fusebox.md R592). -/
  cls : Nat
  /-- LEVEL: 0 to 3 for L1 to L4 (19_fusebox.md R592). -/
  level : Nat
  /-- ACKED (19_fusebox.md R592). -/
  acked : Bool := false
  /-- ACTIVE (19_fusebox.md R592). -/
  active : Bool := false
  /-- ESCALATED (19_fusebox.md R592). -/
  escalated : Bool := false
  /-- UNIT (19_fusebox.md R592). -/
  unit : BitVec 16 := 0
  /-- COUNT (19_fusebox.md R592). -/
  count : BitVec 32 := 1
  /-- FIRST_TICK (19_fusebox.md R592). -/
  first : BitVec 64 := 0
  /-- LAST_TICK (19_fusebox.md R592). -/
  last : BitVec 64 := 0
  /-- DETAIL (19_fusebox.md R592). -/
  detail : BitVec 64 := 0
  /-- Creation order (earliest-created record) (19_fusebox.md R593). -/
  born : Nat := 0
  deriving DecidableEq, Repr

/-- A rotating test in progress (19_fusebox.md R607). -/
structure RotTest where
  /-- P-tile under test (19_fusebox.md R606). -/
  ptile : Nat
  deriving DecidableEq, Repr

/-- Fusebox. -/
structure FbSt where
  /-- Record slots in use (19_fusebox.md R592). -/
  recs : Tbl FaultRec := []
  /-- Next creation number (19_fusebox.md R593). -/
  nextBorn : Nat := 0
  /-- Main-die reports not yet forwarded to the classifier, oldest first (19_fusebox.md R590). -/
  collector : List Report := []
  /-- Reports of companion-die blocks on their way to the classifier (19_fusebox.md R590). -/
  direct : List Report := []
  /-- A stop waits for a switch, MDR or sleep entry already under way (19_fusebox.md R603). -/
  stopWait : Bool := false
  /-- Rotating test in progress (19_fusebox.md R606). -/
  test : Option RotTest := none
  /-- Next Pantry bank of the march test (19_fusebox.md R607). -/
  bank : Nat := 0
  /-- P-tiles fenced as a whole (06_tile_arithmetic.md R225). -/
  tilesOut : List Nat := []
  /-- Bond lanes found faulty, to be replaced at the next background phase (19_fusebox.md R613). -/
  bondBad : List (Nat × Nat) := []
  /-- Slices whose writes are held by a replacement (19_fusebox.md R613). -/
  bondHold : List Nat := []
  deriving DecidableEq, Repr

/-- Levels of the control pins (21_signals_and_ratings.md R634): outputs as driven, inputs as last sampled. -/
structure Pins where
  /-- FAULT_N (true: high) (19_fusebox.md R596). -/
  faultN : Bool := true
  /-- STOP_N (19_fusebox.md R596). -/
  stopN : Bool := true
  /-- FD_READY (03_front_door.md R100). -/
  fdReady : Bool := true
  /-- Bit k set: HOST_ATTNk_N is asserted (low) (04_rings_and_doorbells.md R147). -/
  hostAttn : BitVec 4 := 0
  /-- PWR_EN_MAIN (14_power.md R449). -/
  pwrEnMain : Bool := true
  /-- PWR_EN_LOFT (14_power.md R449). -/
  pwrEnLoft : Bool := true
  /-- RESET_N input (15_resets_and_retention.md R485). -/
  resetN : Bool := true
  /-- BATT_WARN_N input, filtered (14_power.md R455). -/
  battWarnN : Bool := true
  /-- WAKE_IN input, filtered (14_power.md R477). -/
  wakeIn : Bool := false
  deriving DecidableEq, Repr

/-- The SH16, as seen between two commands. -/
structure State where
  /-- The commands that are waiting, first in, first out (model). -/
  pending : List Instr := []
  /-- Nanoseconds since POR at the last command (model). -/
  now : Nat := 0
  /-- The next free value's number (DESIGN CHOICE 0, log 3); no statement rests on it (MODEL's own). -/
  free : Nat := 0
  /-- The set-up registers by aperture offset (unlisted: 0) (22_register_index.md R649). -/
  regs : Tbl Word := []
  /-- Word returned by the last register read command (02_the_tick.md R73). -/
  readData : Word := 0
  /-- Every byte-addressed store, keyed space × 2^40 + offset (see "Memory and ordering") (08_memory_tiers.md R254). -/
  mem : Mem := []
  /-- Keys of the units of memory that hold an uncorrectable error (08_memory_tiers.md R299). -/
  badUnits : List Nat := []
  /-- Control pins (21_signals_and_ratings.md R634). -/
  pins : Pins := {}
  /-- The tick (02_the_tick.md). -/
  tick : TickSt := {}
  /-- The Front Door (03_front_door.md). -/
  fd : FdSt := {}
  /-- Rings and doorbells (04_rings_and_doorbells.md). -/
  rg : RingSt := {}
  /-- Steps and wings (05_steps_and_wings.md). -/
  wk : WorkSt := {}
  /-- The Deed table (08_memory_tiers.md). -/
  deed : DeedSt := {}
  /-- Translation caches (08_memory_tiers.md). -/
  xlat : XlatSt := {}
  /-- Attention (09_attention_and_kv.md). -/
  att : AttSt := {}
  /-- Streams (10_state_streams.md). -/
  strm : StrmSt := {}
  /-- The Gallery (12_gallery.md). -/
  gal : GalSt := {}
  /-- The Porch (13_porch.md). -/
  por : PorSt := {}
  /-- Supplies and sleep states (14_power.md). -/
  pwr : PwrSt := {}
  /-- Resets in progress (15_resets_and_retention.md). -/
  rst : ResetSt := {}
  /-- The flash (16_study.md). -/
  flash : FlashSt := {}
  /-- The fuses (16_study.md). -/
  fuses : FuseSt := {}
  /-- The Study (16_study.md). -/
  sty : StudySt := {}
  /-- The Strongroom (17_security.md). -/
  sec : SecSt := {}
  /-- Party-wall links (18_party_wall.md). -/
  pw : PwSt := {}
  /-- The Fusebox (19_fusebox.md). -/
  fb : FbSt := {}
  deriving DecidableEq, Repr

/-- Registers below the ring registers that are not 0 at reset (22_register_index.md R652 and the register tables; the
values that no table gives are named in assumption 12). -/
def resetRegsLow : Tbl Word :=
  [
    (0x0, 0xb1167a11), (0x4, 0xa0), (0x14, 0x1010000), (0x18, 0x1010000), (0x1c, 0x1010000), (0x1000, 0x20),
    (0x101c, 0x1), (0x2000, 0x100), (0x3000, 0x1), (0x300c, 0x30001), (0x4000, 0x10), (0x4008, 0xfff),
    (0x5004, 0x282a1e24), (0x6008, 0x3e814)]

/-- The ring registers at reset: LOG2_ENTRIES 6, and COAL_COUNT 1 on every completion ring (04_rings_and_doorbells.md
R155). -/
def resetRegsRings : Tbl Word :=
  ((List.range 64).map fun n => (0x6104 + 8 * n, 0x6)) ++ ((List.range 64).map fun n => (0x6304 + 8 * n, 0x106))

/-- Registers above the ring registers that are not 0 at reset. -/
def resetRegsHigh : Tbl Word :=
  [
    (0x7004, 0x7d0), (0x7020, 0xe0000), (0x8000, 0x100200), (0x8010, 0xc800c0), (0x8014, 0xc800c0),
    (0x8018, 0xc800c0), (0x801c, 0xc800c0), (0x9000, 0xffff), (0x9080, 0x10ffff00), (0xa040, 0x200),
    (0xa044, 0x201), (0xa048, 0x202), (0xa04c, 0x203), (0xa050, 0x204), (0xa054, 0x205), (0xa058, 0x206),
    (0xa05c, 0x207), (0xa060, 0x208), (0xa064, 0x209), (0xa068, 0x20a), (0xa06c, 0x20b), (0xa070, 0x20c),
    (0xa074, 0x20d), (0xa078, 0x20e), (0xa07c, 0x20f), (0x1000c, 0x3ffff), (0x12008, 0x6), (0x13008, 0x4)]
    ++ ((List.range 48).map fun n => (0x16C1C + 32 * n, 0x3F800000))
    ++ [
    (0x1800c, 0x1), (0x18020, 0x4000), (0x18024, 0x4000), (0x18028, 0x4000), (0x1802c, 0x4000), (0x18030, 0x4000),
    (0x18034, 0x4000), (0x18038, 0x4000), (0x1803c, 0x4000), (0x18040, 0x5000), (0x18044, 0x5000),
    (0x18048, 0x5000), (0x1804c, 0x5000), (0x18050, 0x5000), (0x18054, 0x5000), (0x18058, 0x5000),
    (0x1805c, 0x5000), (0x18104, 0x10000), (0x18200, 0x10000), (0x18220, 0x10000), (0x18240, 0x10000)]

/-- The firmware image that each slot A holds on a device as shipped (DESIGN CHOICE, assumption 12: the manual gives no
version). -/
def shippedImage (kind : Nat) : Image :=
  { version := 0x010000, level := 1, release := 1, rollback := 0, floor := 0, kind := kind, good := true,
    steppings := [(0xB1, 1)], compat := [] }

/-- Vallury's default settings generation (15_resets_and_retention.md R659): NUMBER 1; its field values are not given, so
all are 0 but PERIOD_US, which stands at its nearer limit (assumption 12); a field whose 0 reads as another value holds
that value. -/
def defaultGeneration : Generation :=
  { number := 1, vals := [(0x7004, 2000)], keyhole := none, ticks := 64, starts := 1, good := true }

/-- The machine right after reset: a device as shipped whose POR start-up has completed (assumption 6): FD_READY is high,
the rings are off, the host has not yet initialised a channel, nothing has been written to memory and no command waits.
Which ordering code the device is, the manual leaves to the device (00_scope.md R3); DESIGN CHOICE, assumption 6:
SH16-A2L36 (`fuses.links` false), whose party-wall links are fused off. -/
def State.reset : State :=
  { regs := resetRegsLow ++ resetRegsRings ++ resetRegsHigh
    flash :=
      { images := [some (shippedImage 1), none, some (shippedImage 2), none, some (shippedImage 3), none]
        gens := [some defaultGeneration, none]
        genState := [.settled, .empty] } }

end Sys2Proof.Machine
end

