-- ==== Sys2Proof/Machine/Ops.lean ====
section
/-! DEFINITION. Named operations over the plain data of the state: sparse tables, bit fields, bytes, registers, time and
free values. Every later file reads and writes the state through them. -/

namespace Sys2Proof.Machine

/-! ### Sparse tables -/

/-- What a table holds at a key, if the key is listed. -/
def tfind {α : Type} : Tbl α → Nat → Option α
  | [], _ => none
  | (k, v) :: r, q => if k = q then some v else tfind r q

/-- What a table holds at a key; `d` where the key is not listed. -/
def tget {α : Type} (m : Tbl α) (q : Nat) (d : α) : α := (tfind m q).getD d

/-- List `v` at key `q`, keeping the keys strictly rising. -/
def tset {α : Type} : Tbl α → Nat → α → Tbl α
  | [], q, v => [(q, v)]
  | (k, w) :: r, q, v =>
    if k = q then (q, v) :: r else if q < k then (q, v) :: (k, w) :: r else (k, w) :: tset r q v

/-- Unlist a key. -/
def tdel {α : Type} (m : Tbl α) (q : Nat) : Tbl α := m.filter fun e => e.1 != q

/-- Store `v` at `q` in canonical form: the default `d` is never listed. -/
def tput {α : Type} [DecidableEq α] (d : α) (m : Tbl α) (q : Nat) (v : α) : Tbl α :=
  if v = d then tdel m q else tset m q v

/-- Keep the entries whose key lies outside `[lo, lo + n)`. -/
def tclear {α : Type} (m : Tbl α) (lo n : Nat) : Tbl α := m.filter fun e => e.1 < lo || lo + n ≤ e.1

/-- Keys strictly rising, all above `lo`. -/
def tsorted {α : Type} : Option Nat → Tbl α → Bool
  | _, [] => true
  | none, (k, _) :: r => tsorted (some k) r
  | some b, (k, _) :: r => b < k && tsorted (some k) r

/-- Change the element at index `i` of a list. -/
def lset {α : Type} : List α → Nat → α → List α
  | [], _, _ => []
  | _ :: r, 0, v => v :: r
  | x :: r, i + 1, v => x :: lset r i v

/-- Element `i` of a list; `d` beyond its end. -/
def lget {α : Type} (l : List α) (i : Nat) (d : α) : α := (l[i]?).getD d

/-- Element `i` of a list of counters that reads 0 beyond its end, set to `v`. -/
def lput : List Nat → Nat → Nat → List Nat
  | [], 0, v => [v]
  | [], i + 1, v => 0 :: lput [] i v
  | _ :: r, 0, v => v :: r
  | x :: r, i + 1, v => x :: lput r i v

/-- Insert a number into a list of rising numbers, once. -/
def sins : List Nat → Nat → List Nat
  | [], x => [x]
  | y :: r, x => if x = y then y :: r else if x < y then x :: y :: r else y :: sins r x

/-! ### Bit fields and bytes -/

/-- Bits `[lo + w - 1 : lo]` of a number. -/
def bitsAt (x lo w : Nat) : Nat := (x >>> lo) % 2 ^ w

/-- Bit `i` of a number. -/
def bitAt (x i : Nat) : Bool := x.testBit i

/-- A number with bits `[lo + w - 1 : lo]` replaced. -/
def putBits (x lo w v : Nat) : Nat := x - (bitsAt x lo w) <<< lo + (v % 2 ^ w) <<< lo

/-- One bit as a number. -/
def b2n (b : Bool) : Nat := if b then 1 else 0

/-- A number as `n` bytes, little-endian (00_scope.md R11). -/
def toBytes : Nat → Nat → List Byte
  | 0, _ => []
  | n + 1, x => BitVec.ofNat 8 x :: toBytes n (x / 256)

/-- The number that bytes spell, little-endian. -/
def ofBytes : List Byte → Nat
  | [] => 0
  | b :: r => b.toNat + 256 * ofBytes r

/-- Two's complement value of the low `w` bits of a number. -/
def signed (w x : Nat) : Int := if x % 2 ^ w < 2 ^ (w - 1) then (x % 2 ^ w : Nat) else (x % 2 ^ w : Nat) - (2 ^ w : Nat)

/-- Two's complement encoding of an integer in `w` bits, saturating. -/
def signedSat (w : Nat) (i : Int) : Nat :=
  let hi : Int := 2 ^ (w - 1) - 1
  let lo : Int := -(2 ^ (w - 1) : Nat)
  let c := if hi < i then hi else if i < lo then lo else i
  (c % (2 ^ w : Nat)).toNat

/-- Indices of the set bits of a mask, ascending, below `n`. -/
def maskBits (n m : Nat) : List Nat := (List.range n).filter fun i => m.testBit i

/-- The mask with the listed bits. -/
def maskOf (l : List Nat) : Nat := l.foldl (fun a i => a ||| 1 <<< i) 0

/-- Smallest `i` below `n` with `p i`. -/
def firstSat (n : Nat) (p : Nat → Bool) : Option Nat := (List.range n).find? p

/-- Ceiling division. -/
def cdiv (a b : Nat) : Nat := (a + b - 1) / b

/-! ### Byte stores -/

/-- Read `n` bytes from key `k` on; what nothing has written reads 0 (assumption 4). -/
def mread (m : Mem) (k : Nat) : Nat → List Byte
  | 0 => []
  | n + 1 => tget m k 0 :: mread m (k + 1) n

/-- Write bytes from key `k` on, keeping the canonical form. -/
def mwrite (m : Mem) (k : Nat) : List Byte → Mem
  | [] => m
  | b :: r => mwrite (tput 0 m k b) (k + 1) r

/-- The canonical form of a byte store: keys strictly rising, no entry 0. -/
def Mem.wf (m : Mem) : Bool := tsorted none m && m.all fun e => e.2 != 0

/-! ### Registers -/

/-- The word of the register at an aperture offset. -/
def State.word (s : State) (off : Nat) : Word := tget s.regs off 0

/-- Store a register word. -/
def State.setWord (s : State) (off : Nat) (w : Word) : State := { s with regs := tput 0 s.regs off w }

/-- The value of a field. -/
def State.reg (s : State) (f : Field) : Nat := bitsAt (s.word f.off).toNat f.lo f.width

/-- A one-bit field. -/
def State.flag (s : State) (f : Field) : Bool := s.reg f != 0

/-- Store a field's value. -/
def State.setReg (s : State) (f : Field) (v : Nat) : State :=
  s.setWord f.off (BitVec.ofNat 32 (putBits (s.word f.off).toNat f.lo f.width v))

/-- Store a one-bit field. -/
def State.setFlag (s : State) (f : Field) (b : Bool) : State := s.setReg f (b2n b)

/-- Add to a saturating count. -/
def State.bump (s : State) (f : Field) (n : Nat := 1) : State :=
  s.setReg f (min (s.reg f + n) (2 ^ f.width - 1))

/-! ### Time, free values, outcomes -/

/-- The state at the instant of a command: time never runs backwards (assumption 1). -/
def State.at_ (s : State) (t : Nat) : State := { s with now := max s.now t }

/-- The next free value's number, and the state that has used it (assumption 3). -/
def State.fresh (s : State) : Nat × State := (s.free, { s with free := s.free + 1 })

/-- Nanoseconds in a microsecond. -/
def us (n : Nat) : Nat := n * 1000

/-- Nanoseconds in a millisecond. -/
def ms (n : Nat) : Nat := n * 1000000

/-- The tick number of the current tick. -/
def State.tickNo (s : State) : BitVec 64 := s.tick.number

/-! ### Memory spaces (INVENTORY.md, "Memory and ordering") -/

/-- Key of a byte of a space: homes 0 to 17 Loft slices, 18 to 21 Cellar channels, 32 + t the Pantry of Tt. -/
def spaceKey (space off : Nat) : Nat := space * 2 ^ 40 + off

/-- The space of a key. -/
def keySpace (k : Nat) : Nat := k / 2 ^ 40

/-- The offset of a key in its space. -/
def keyOff (k : Nat) : Nat := k % 2 ^ 40

/-- The space of the Pantry of logical tile `t` (08_memory_tiers.md R265). -/
def pantrySpace (t : Nat) : Nat := 32 + t

/-- Lose the contents of a space's bytes `[off, off + n)`. -/
def State.loseBytes (s : State) (space off n : Nat) : State :=
  { s with mem := tclear s.mem (spaceKey space off) n
           badUnits := s.badUnits.filter fun k => k < spaceKey space off || spaceKey space off + n ≤ k }

/-- Lose a tile's Pantry (08_memory_tiers.md R267). -/
def State.losePantry (s : State) (t : Nat) : State := s.loseBytes (pantrySpace t) 0 0xC00000

/-! ### Tiles -/

/-- Logical tile `t` is present (01_house_plan.md R25). -/
def State.present (s : State) (t : Nat) : Bool := (s.reg Reg.wgCurrentPresent).testBit t

/-- The P-tile that holds logical tile `t`. -/
def State.ptile (s : State) (t : Nat) : Nat := s.reg (Reg.tlMapPtile.ix t)

/-- The present logical tiles, ascending. -/
def State.tilesPresent (s : State) : List Nat := maskBits 16 (s.reg Reg.wgCurrentPresent)

/-- What a tile holds beside its Pantry. -/
def State.tileSt (s : State) (t : Nat) : TileSt := tget s.wk.tiles t {}

/-- Store it. -/
def State.setTileSt (s : State) (t : Nat) (x : TileSt) : State :=
  { s with wk := { s.wk with tiles := tput {} s.wk.tiles t x } }

/-- Run a list of updates. -/
def State.each {α : Type} (s : State) (l : List α) (f : State → α → State) : State := l.foldl f s

end Sys2Proof.Machine
end

