-- ==== Sys2Proof/Machine/Formats.lean ====
section
/-! DEFINITION. Numbers: the sixteen formats, exact values, the two rounding modes, FP32 arithmetic, conversions, scales
and packing (07_formats_and_scaling.md R229 to R256; 06_tile_arithmetic.md R197, R207). -/

namespace Sys2Proof.Machine

/-- An exact value: NaN, an infinity, or (-1)^neg × m × 2^e. -/
inductive Fp where
  | nan
  | inf (neg : Bool)
  | fin (neg : Bool) (m : Nat) (e : Int)
  deriving DecidableEq, Repr

/-- The sixteen data formats (R207). -/
inductive Fmt where
  | fp32 | fp24 | bf16 | fp16 | e4m3 | e5m2 | e3m2 | e2m3 | e2m1 | int32 | int16 | int8 | uint8 | int4 | uint4 | int2
  deriving DecidableEq, Repr

/-- The format of a 4-bit code (R207). -/
def Fmt.ofCode (c : Nat) : Fmt :=
  lget [.fp32, .fp24, .bf16, .fp16, .e4m3, .e5m2, .e3m2, .e2m3, .e2m1, .int32, .int16, .int8, .uint8, .int4, .uint4,
        .int2] c .fp32

/-- Width in bits (R229). -/
def Fmt.bits : Fmt → Nat
  | .fp32 | .int32 => 32
  | .fp24 => 24
  | .bf16 | .fp16 | .int16 => 16
  | .e4m3 | .e5m2 | .int8 | .uint8 => 8
  | .e3m2 | .e2m3 => 6
  | .e2m1 | .int4 | .uint4 => 4
  | .int2 => 2

/-- An integer format. -/
def Fmt.isInt : Fmt → Bool
  | .int32 | .int16 | .int8 | .uint8 | .int4 | .uint4 | .int2 => true
  | _ => false

/-- Layout of a floating-point format: mantissa bits, bias, code of the largest finite magnitude, canonical NaN (none: NaN
converts to 0), and whether the all-ones exponent holds infinity and NaN (R229, R249). -/
structure FloatSpec where
  mant : Nat
  bias : Nat
  maxCode : Nat
  nan : Option Nat
  ieee : Bool
  deriving DecidableEq, Repr

/-- The floating-point layouts of R229 (integer formats have none). -/
def Fmt.spec : Fmt → FloatSpec
  | .fp32 => ⟨23, 127, 0x7F7FFFFF, some 0x7FC00000, true⟩
  | .fp24 => ⟨15, 127, 0x7F7FFF, some 0x7FC000, true⟩
  | .bf16 => ⟨7, 127, 0x7F7F, some 0x7FC0, true⟩
  | .fp16 => ⟨10, 15, 0x7BFF, some 0x7E00, true⟩
  | .e5m2 => ⟨2, 15, 0x7B, some 0x7E, true⟩
  | .e4m3 => ⟨3, 7, 0x7E, some 0x7F, false⟩
  | .e3m2 => ⟨2, 3, 0x1F, none, false⟩
  | .e2m3 => ⟨3, 1, 0x1F, none, false⟩
  | .e2m1 => ⟨1, 1, 0x7, none, false⟩
  | _ => ⟨0, 0, 0, none, false⟩

/-- Lowest and highest value of an integer format (R229). -/
def Fmt.intRange : Fmt → Int × Int
  | .int32 => (-2147483648, 2147483647)
  | .int16 => (-32768, 32767)
  | .int8 => (-128, 127)
  | .uint8 => (0, 255)
  | .int4 => (-8, 7)
  | .uint4 => (0, 15)
  | .int2 => (-1, 1)
  | _ => (0, 0)

/-! ### Exact values -/

/-- Zero. -/
def Fp.zero : Fp := .fin false 0 0

/-- One. -/
def Fp.one : Fp := .fin false 1 0

/-- An integer. -/
def Fp.ofInt (i : Int) : Fp := .fin (decide (i < 0)) i.natAbs 0

/-- Negation. -/
def Fp.neg : Fp → Fp
  | .nan => .nan
  | .inf n => .inf (!n)
  | .fin n m e => .fin (!n) m e

/-- Sign bit. -/
def Fp.sign : Fp → Bool
  | .nan => false
  | .inf n => n
  | .fin n _ _ => n

/-- NaN. -/
def Fp.isNan (x : Fp) : Bool := x == .nan

/-- A finite value. -/
def Fp.isFin : Fp → Bool
  | .fin _ _ _ => true
  | _ => false

/-- ±0. -/
def Fp.isZero : Fp → Bool
  | .fin _ m _ => m == 0
  | _ => false

/-- The integer that `m × 2^e`, signed, is in units of `2^q`, for `q ≤ e`. -/
def Fp.units (n : Bool) (m : Nat) (e q : Int) : Int :=
  let u : Int := (m <<< (e - q).toNat : Nat)
  if n then -u else u

/-- Exact sum; an exact zero sum of unlike signs is +0 (R247: IEEE 754 in both nearest modes). -/
def Fp.add : Fp → Fp → Fp
  | .nan, _ => .nan
  | _, .nan => .nan
  | .inf a, .inf b => if a = b then .inf a else .nan
  | .inf a, .fin _ _ _ => .inf a
  | .fin _ _ _, .inf b => .inf b
  | .fin a m e, .fin b n f =>
    let q := min e f
    let s := Fp.units a m e q + Fp.units b n f q
    if s = 0 then .fin (a && b) 0 0 else .fin (decide (s < 0)) s.natAbs q

/-- Exact product (R247: 0 × ∞ is NaN). -/
def Fp.mul : Fp → Fp → Fp
  | .nan, _ => .nan
  | _, .nan => .nan
  | .inf a, .inf b => .inf (a != b)
  | .inf a, .fin b m _ => if m = 0 then .nan else .inf (a != b)
  | .fin a m _, .inf b => if m = 0 then .nan else .inf (a != b)
  | .fin a m e, .fin b n f => .fin (a != b) (m * n) (e + f)

/-- Exact order of two values that are not NaN: `a ≤ b` (−0 and +0 are equal). -/
def Fp.le : Fp → Fp → Bool
  | .nan, _ => false
  | _, .nan => false
  | .inf true, _ => true
  | _, .inf false => true
  | .inf false, _ => false
  | _, .inf true => false
  | .fin a m e, .fin b n f =>
    let q := min e f
    Fp.units a m e q ≤ Fp.units b n f q

/-- Exact strict order. -/
def Fp.lt (a b : Fp) : Bool := Fp.le a b && !Fp.le b a

/-- Magnitude. -/
def Fp.abs : Fp → Fp
  | .nan => .nan
  | .inf _ => .inf false
  | .fin _ m e => .fin false m e

/-! ### Rounding (R243) -/

/-- `m / 2^k` rounded to nearest; ties away from zero, or to even. -/
def roundShift (away : Bool) (m k : Nat) : Nat :=
  if k = 0 then m
  else
    let q := m >>> k
    let r := m % 2 ^ k
    let half := 2 ^ (k - 1)
    if half < r then q + 1
    else if r = half then (if away || q % 2 == 1 then q + 1 else q)
    else q

/-- The magnitude code of `m × 2^e` rounded to a layout, before saturation: exponent field and mantissa as one number. -/
def roundCode (away : Bool) (sp : FloatSpec) (m : Nat) (e : Int) : Nat :=
  if m = 0 then 0
  else
    let emin : Int := 1 - (sp.bias : Int) - (sp.mant : Int)
    let q := max ((Nat.log2 m : Int) + e - (sp.mant : Int)) emin
    let r := if q ≤ e then m <<< (e - q).toNat else roundShift away m (q - e).toNat
    (q - emin).toNat * 2 ^ sp.mant + r

/-- The exact value of a magnitude code. -/
def codeValue (sp : FloatSpec) (neg : Bool) (code : Nat) : Fp :=
  let x := code >>> sp.mant
  let f := code % 2 ^ sp.mant
  let emin : Int := 1 - (sp.bias : Int) - (sp.mant : Int)
  if x = 0 then .fin neg f emin else .fin neg (2 ^ sp.mant + f) (emin + (x : Int) - 1)

/-- Round to FP32 as arithmetic does: a result beyond the range becomes infinite (R247). -/
def Fp.r32 (away : Bool) : Fp → Fp
  | .fin n m e =>
    let c := roundCode away (Fmt.spec .fp32) m e
    if 0x7F800000 ≤ c then .inf n else codeValue (Fmt.spec .fp32) n c
  | x => x

/-- The nearest integer under the mode's tie rule, as a signed integer. -/
def roundInt (away : Bool) (n : Bool) (m : Nat) (e : Int) : Int :=
  let r : Int := ((if 0 ≤ e then m <<< e.toNat else roundShift away m (-e).toNat : Nat) : Int)
  if n then -r else r

/-! ### Encoding and decoding -/

/-- The exact value of a code of a format (R229, R232). -/
def Fmt.decode (f : Fmt) (code : Nat) : Fp :=
  let c := code % 2 ^ f.bits
  match f with
  | .uint8 | .uint4 => .fin false c 0
  | .int32 | .int16 | .int8 | .int4 => Fp.ofInt (signed f.bits c)
  | .int2 => if c = 1 then .fin false 1 0 else if c = 3 then .fin true 1 0 else Fp.zero
  | _ =>
    let neg := c.testBit (f.bits - 1)
    let mag := c % 2 ^ (f.bits - 1)
    let sp := f.spec
    if sp.ieee && sp.maxCode < mag then (if mag = sp.maxCode + 1 then .inf neg else .nan)
    else if f = .e4m3 && mag = 0x7F then .nan
    else codeValue sp neg mag

/-- Put an integer into an integer format, saturating (R243, R248). -/
def Fmt.encodeInt (f : Fmt) (i : Int) : Nat :=
  let (lo, hi) := f.intRange
  let c := if hi < i then hi else if i < lo then lo else i
  (c % (2 ^ f.bits : Nat)).toNat

/-- Convert a value to a format: one rounding, then saturation (R243, R248, R249, R250). -/
def Fmt.encode (f : Fmt) (away : Bool) (v : Fp) : Nat :=
  if f.isInt then
    match v with
    | .nan => 0
    | .inf n => f.encodeInt (if n then f.intRange.1 else f.intRange.2)
    | .fin n m e => f.encodeInt (roundInt away n m e)
  else
    let sp := f.spec
    let sgn := fun (n : Bool) => if n then 2 ^ (f.bits - 1) else 0
    match v with
    | .nan => sp.nan.getD 0
    | .inf n => sgn n + (if sp.ieee then sp.maxCode + 1 else sp.maxCode)
    | .fin n m e => sgn n + min (roundCode away sp m e) sp.maxCode

/-- The FP32 encoding of a value that FP32 holds. -/
def Fp.bits32 (v : Fp) : Nat := Fmt.encode .fp32 false v

/-- An FP32 word's value. -/
def Fp.of32 (w : Nat) : Fp := Fmt.decode .fp32 w

/-! ### FP32 arithmetic (R247): each operation rounds once -/

/-- Sum. -/
def f32add (away : Bool) (a b : Fp) : Fp := (Fp.add a b).r32 away

/-- Difference. -/
def f32sub (away : Bool) (a b : Fp) : Fp := (Fp.add a b.neg).r32 away

/-- Product. -/
def f32mul (away : Bool) (a b : Fp) : Fp := (Fp.mul a b).r32 away

/-- Fused multiply-add. -/
def f32fma (away : Bool) (a b c : Fp) : Fp := (Fp.add (Fp.mul a b) c).r32 away

/-- A quotient to at least `k` bits with a sticky bit below them: enough for any single rounding. -/
def quotient (a : Bool) (m : Nat) (e : Int) (b : Bool) (n : Nat) (f : Int) (k : Nat) : Fp :=
  let sh := k + Nat.log2 n + 1
  let q := (m <<< sh) / n
  let st := if (m <<< sh) % n = 0 then 0 else 1
  .fin (a != b) (2 * q + st) (e - f - (sh : Int) - 1)

/-- Quotient: 0 ÷ 0 and ∞ ÷ ∞ are NaN, x ÷ 0 is an infinity. -/
def f32div (away : Bool) : Fp → Fp → Fp
  | .nan, _ => .nan
  | _, .nan => .nan
  | .inf a, .fin b _ _ => .inf (a != b)
  | .inf _, .inf _ => .nan
  | .fin a _ _, .inf b => .fin (a != b) 0 0
  | .fin a m e, .fin b n f =>
    if n = 0 then (if m = 0 then .nan else .inf (a != b))
    else if m = 0 then .fin (a != b) 0 0
    else (quotient a m e b n f 40).r32 away

/-- The larger of two values; a NaN operand gives NaN (R247). Which of −0 and +0 counts as larger is open. -/
def f32max : Fp → Fp → Fp
  | .nan, _ => .nan
  | _, .nan => .nan
  | a, b =>
    if Fp.lt a b then b else if Fp.lt b a then a
    else if a.sign = b.sign then a else .fin (Config.largerZero a.sign b.sign) 0 0

/-- The smaller of two values. -/
def f32min (a b : Fp) : Fp := (f32max a.neg b.neg).neg

/-- An integer as FP32, rounded in the step's mode (R238, to_fp32). -/
def toF32 (away : Bool) (i : Int) : Fp := (Fp.ofInt i).r32 away

/-! ### Scales (R234, R235) -/

/-- The value of an E8M0 code. -/
def e8m0 (c : Nat) : Fp := if c % 256 = 255 then .nan else .fin false 1 (((c % 256 : Nat) : Int) - 127)

/-- A weight scale: E8M0, or FP8-E4M3. -/
def scaleValue (enc : Bool) (c : Nat) : Fp := if enc then Fmt.decode .e4m3 c else e8m0 c

/-- The smallest exponent `k` from `lo` up with `x ≤ 2^k`; `lo + n` at most. -/
def ceilPow2 (x : Fp) (lo : Int) : Nat → Int
  | 0 => lo
  | n + 1 => if Fp.le x (.fin false 1 lo) then lo else ceilPow2 x (lo + 1) n

/-- The scale of QUANTISE_DYN for a group whose largest finite magnitude is `amax` (R252). -/
def dynScale (enc : Bool) (amax dmax : Fp) : Fp :=
  if amax.isZero then Fp.one
  else if enc then
    -- smallest positive FP8-E4M3 value v with amax ≤ v × Dmax, from code 1 (2^−9) to 0x7E (448)
    let ok := fun i => Fp.le amax (Fp.mul (Fmt.decode .e4m3 (i + 1)) dmax)
    Fmt.decode .e4m3 ((firstSat 0x7E ok).getD 0x7D + 1)
  else
    let k := (List.range 254).find? fun (i : Nat) => Fp.le amax (Fp.mul (.fin false 1 ((i : Int) - 127)) dmax)
    .fin false 1 (((k.getD 254 : Nat) : Int) - 127)

/-- Largest finite magnitude of a QUANTISE_DYN target (R252: 127 for INT8, 7 for INT4). -/
def Fmt.dmax (f : Fmt) : Fp := if f.isInt then Fp.ofInt f.intRange.2 else codeValue f.spec false f.spec.maxCode

/-! ### Packing (R230, R231) -/

/-- Element `i` of a row held as a little-endian number. -/
def elemCode (f : Fmt) (row i : Nat) : Nat := bitsAt row (f.bits * i) f.bits

/-- Element `i` of a row. -/
def elem (f : Fmt) (row i : Nat) : Fp := f.decode (elemCode f row i)

/-- The first `n` elements of a row. -/
def elems (f : Fmt) (row n : Nat) : List Fp := (List.range n).map fun i => elem f row i

/-- Codes packed without gaps, as a number. -/
def packCodes (f : Fmt) : List Nat → Nat
  | [] => 0
  | c :: r => c % 2 ^ f.bits + (packCodes f r) <<< f.bits

/-- Values converted and packed into the bytes of a row (the last byte is filled with zeros). -/
def packRow (f : Fmt) (away : Bool) (vs : List Fp) : List Byte :=
  toBytes (cdiv (vs.length * f.bits) 8) (packCodes f (vs.map fun v => f.encode away v))

/-- Bytes of a row of `n` elements (R230). -/
def Fmt.rowBytes (f : Fmt) (n : Nat) : Nat := cdiv (n * f.bits) 8

/-- Row pitch: a stride of 0 pads rows to the next 64 bytes (R206, R217). -/
def rowPitch (f : Fmt) (n stride : Nat) : Nat := if stride = 0 then cdiv (f.rowBytes n) 64 * 64 else stride * 64

/-! ### The 32-bit class (06_tile_arithmetic.md R197) -/

/-- High and low BF16 parts of an FP32 operand. -/
def splitHiLo (code : Nat) : Fp × Fp :=
  let x := Fp.of32 code
  if x.isFin then
    let h := Fmt.decode .bf16 (bitsAt code 16 16)
    (h, Fmt.decode .bf16 (Fmt.encode .bf16 false (Fp.add x h.neg)))
  else (x, Fp.zero)

/-! ### Reductions of a row (R656) -/

/-- Fold `op` over every 256th value from index `i` on, ascending. -/
def strideFold (op : Fp → Fp → Fp) (acc : Fp) (vs : List Fp) : Nat → Fp
  | 0 => acc
  | fuel + 1 =>
    match vs with
    | [] => acc
    | v :: _ => strideFold op (op acc v) (vs.drop 256) fuel

/-- One level of the tree: the upper half of the list is combined into the lower half. -/
def foldHalf (op : Fp → Fp → Fp) (p : List Fp) : List Fp :=
  let w := p.length / 2
  List.zipWith op (p.take w) (p.drop w)

/-- Levels of the tree until one value is left. -/
def foldTree (op : Fp → Fp → Fp) (p : List Fp) : Nat → List Fp
  | 0 => p
  | n + 1 => foldTree op (foldHalf op p) n

/-- The fixed reduction of R656 with an operation and its identity. -/
def reduceRow (op : Fp → Fp → Fp) (ident : Fp) (vs : List Fp) : Fp :=
  let p := (List.range 256).map fun j =>
    match vs.drop j with
    | [] => ident
    | v :: _ => strideFold op v (vs.drop (j + 256)) (vs.length / 256 + 1)
  (foldTree op p 8).headD ident

/-- The sum of a row. -/
def rowSum (away : Bool) (vs : List Fp) : Fp := reduceRow (f32add away) Fp.zero vs

/-- The largest element of a row. -/
def rowMax (vs : List Fp) : Fp := reduceRow f32max (.inf true) vs

/-! ### Compressed blocks (08_memory_tiers.md R296, R297) -/

/-- FP32 biased exponent of a value (0 for zero and FP32 subnormals). -/
def biasedExp (v : Fp) : Nat := bitsAt v.bits32 23 8

/-- Code one sub-block of 16 elements: exponent byte and the 16 fields; `w` is the field width (7 or 3), `sub` the
exponent offset (132 or 128), `lim` the largest magnitude of m at the negative end. -/
def compressSub (away : Bool) (w : Nat) (sub lim : Int) (vs : List Fp) : Nat × List Nat :=
  if vs.any fun v => !v.isFin then (0xFF, vs.map fun _ => 0)
  else
    let e := vs.foldl (fun a v => max a (biasedExp v)) 0
    if vs.all Fp.isZero then (0, vs.map fun _ => 0)
    else
      let hi : Int := 2 ^ (w - 1) - 1
      (e, vs.map fun v => match v with
        | .fin n m x =>
          let i := roundInt away n m (x - ((e : Int) - sub))
          let c := if hi < i then hi else if i < lim then lim else i
          (c % (2 ^ w : Nat)).toNat
        | _ => 0)

/-- Decode one field of a sub-block. -/
def expandOne (w : Nat) (sub : Int) (e m : Nat) : Fp :=
  if e = 0xFF then .nan
  else
    let i := signed w m
    if i = 0 then Fp.zero else .fin (decide (i < 0)) i.natAbs ((e : Int) - sub)

/-- Field width, exponent offset and lowest m of a compression rate: 1 is 2:1, 2 is 4:1. -/
def compRate (comp : Nat) : Nat × Int × Int := if comp = 1 then (7, 132, -64) else (3, 128, -3)

/-- The stored bytes of a 256-byte block of 128 elements (2:1: 128 bytes; 4:1: 64 bytes). -/
def compressBlock (away : Bool) (comp : Nat) (f : Fmt) (block : List Byte) : List Byte :=
  let row := ofBytes block
  let (w, sub, lim) := compRate comp
  let subs := (List.range 8).map fun k => compressSub away w sub lim ((List.range 16).map fun i => elem f row (16 * k + i))
  let ms := (subs.flatMap fun x => x.2).foldr (fun m a => m + a <<< w) 0
  toBytes 8 (ofBytes (subs.map fun x => BitVec.ofNat 8 x.1)) ++ toBytes (if comp = 1 then 120 else 56) ms

/-- The 256 bytes that a stored block decodes to. -/
def expandBlock (comp : Nat) (f : Fmt) (stored : List Byte) : List Byte :=
  let n := ofBytes stored
  let (w, sub, _) := compRate comp
  packRow f false ((List.range 128).map fun i => expandOne w sub (bitsAt n (8 * (i / 16)) 8) (bitsAt n (64 + w * i) w))

end Sys2Proof.Machine
end

