-- ==== Sys2Proof/Machine/Flags.lean ====
section
/-! DEFINITION. Fault reports, fault records, the logbook tail, and the pins that follow them (19_fusebox.md R590 to
R599; 16_study.md R539, R540), with `finish`, which every meaning ends in. -/

namespace Sys2Proof.Machine

/-! ### Fault classes (19_fusebox.md R604) -/

/-- TICK_SOURCE. -/
def fcTickSource : Byte := 0x01
/-- TICK_OVERRUN. -/
def fcTickOverrun : Byte := 0x02
/-- BG_STARVED. -/
def fcBgStarved : Byte := 0x03
/-- URGENT_LIMIT. -/
def fcUrgentLimit : Byte := 0x04
/-- TICK_LOG. -/
def fcTickLog : Byte := 0x05
/-- FD_UNSUPPORTED. -/
def fcFdUnsupported : Byte := 0x08
/-- FD_PARTIAL. -/
def fcFdPartial : Byte := 0x09
/-- FD_KEPT_LIMIT. -/
def fcFdKeptLimit : Byte := 0x0A
/-- FD_LINK. -/
def fcFdLink : Byte := 0x0B
/-- RG_CONFIG. -/
def fcRgConfig : Byte := 0x10
/-- RG_EVENT_MISSED. -/
def fcRgEventMissed : Byte := 0x11
/-- RG_DOORBELL. -/
def fcRgDoorbell : Byte := 0x12
/-- RG_OVERFLOW. -/
def fcRgOverflow : Byte := 0x13
/-- RG_MAILBOX. -/
def fcRgMailbox : Byte := 0x14
/-- SP_GATHER_RANGE. -/
def fcSpGatherRange : Byte := 0x18
/-- SP_TOKEN. -/
def fcSpToken : Byte := 0x19
/-- VIS_BOX. -/
def fcVisBox : Byte := 0x1A
/-- TILE_FAILED. -/
def fcTileFailed : Byte := 0x20
/-- TILE_LOST. -/
def fcTileLost : Byte := 0x21
/-- MEM_UNCORR. -/
def fcMemUncorr : Byte := 0x28
/-- CEL_HOT. -/
def fcCelHot : Byte := 0x29
/-- LOFT_LANE. -/
def fcLoftLane : Byte := 0x2A
/-- LOFT_SLICE. -/
def fcLoftSlice : Byte := 0x2B
/-- LOFT_RETENTION_LOST. -/
def fcLoftRetentionLost : Byte := 0x2C
/-- CEL_CONFIG. -/
def fcCelConfig : Byte := 0x2D
/-- GAL_LATE. -/
def fcGalLate : Byte := 0x30
/-- GAL_WRITE. -/
def fcGalWrite : Byte := 0x31
/-- GAL_CONFIG. -/
def fcGalConfig : Byte := 0x32
/-- GAL_POLARITY. -/
def fcGalPolarity : Byte := 0x33
/-- GAL_WIRE. -/
def fcGalWire : Byte := 0x34
/-- GAL_STUCK. -/
def fcGalStuck : Byte := 0x35
/-- POR_CONFIG. -/
def fcPorConfig : Byte := 0x38
/-- POR_MIC. -/
def fcPorMic : Byte := 0x39
/-- KEY_IMAGE. -/
def fcKeyImage : Byte := 0x3A
/-- SUPPLY_WARN. -/
def fcSupplyWarn : Byte := 0x40
/-- SUPPLY_HIGH. -/
def fcSupplyHigh : Byte := 0x41
/-- BATT_WARN_STUCK. -/
def fcBattWarnStuck : Byte := 0x42
/-- CLOCK_LOST. -/
def fcClockLost : Byte := 0x43
/-- CLOCK_AON. -/
def fcClockAon : Byte := 0x44
/-- THERMAL_CAP. -/
def fcThermalCap : Byte := 0x45
/-- THERMAL. -/
def fcThermal : Byte := 0x46
/-- THERMAL_TRIP. -/
def fcThermalTrip : Byte := 0x47
/-- SENSOR. -/
def fcSensor : Byte := 0x48
/-- IMAGE_BAD. -/
def fcImageBad : Byte := 0x49
/-- FW_FALLBACK. -/
def fcFwFallback : Byte := 0x4A
/-- SAFE_FLOOR. -/
def fcSafeFloor : Byte := 0x4B
/-- SETTINGS_REVERTED. -/
def fcSettingsReverted : Byte := 0x4C
/-- RST_REQ. -/
def fcRstReq : Byte := 0x4D
/-- MGMT_AUTH. -/
def fcMgmtAuth : Byte := 0x4E
/-- HOST_SILENT. -/
def fcHostSilent : Byte := 0x4F
/-- LINK_KEY_RETIRED. -/
def fcLinkKeyRetired : Byte := 0x50
/-- PW_SET_MISMATCH. -/
def fcPwSetMismatch : Byte := 0x51
/-- PW_LANE. -/
def fcPwLane : Byte := 0x52
/-- PW_CONFIG. -/
def fcPwConfig : Byte := 0x53
/-- PW_AUTH. -/
def fcPwAuth : Byte := 0x54
/-- PW_PORT_DOWN. -/
def fcPwPortDown : Byte := 0x55
/-- PW_PEER_LOST. -/
def fcPwPeerLost : Byte := 0x56
/-- FB_OVERFLOW. -/
def fcFbOverflow : Byte := 0x58

/-! ### Raising a report -/

/-- A report of a class at LEVEL `lvl` (0 to 3 for L1 to L4). -/
def mkReport (cls : Byte) (lvl : Fin 4) (unit : Nat := 0) (detail : Nat := 0) (persistent : Bool := false) : Report :=
  { cls := cls, level := lvl, unit := BitVec.ofNat 16 unit, detail := BitVec.ofNat 64 detail, persistent := persistent }

/-- A fault at L2 or above, if `b`, is raised during the current tick (02_the_tick.md R53). -/
def State.markL2 (s : State) (b : Bool) : State := { s with tick := { s.tick with l2 := s.tick.l2 || b } }

/-- A main-die block raises a report: the collector holds it until it is forwarded (R590). -/
def State.raise (s : State) (r : Report) : State :=
  { s.markL2 (1 ≤ r.level.val) with fb := { s.fb with collector := s.fb.collector ++ [r] } }

/-- A companion-die block raises a report: it goes to the classifier without the collector (R590). -/
def State.raiseAon (s : State) (r : Report) : State :=
  { s.markL2 (1 ≤ r.level.val) with fb := { s.fb with direct := s.fb.direct ++ [r] } }

/-- An L1 note of a main-die block. -/
def State.note (s : State) (cls : Byte) (unit : Nat := 0) : State := s.raise (mkReport cls 0 unit)

/-- An L1 note of a companion-die block. -/
def State.noteAon (s : State) (cls : Byte) (unit : Nat := 0) : State := s.raiseAon (mkReport cls 0 unit)

/-! ### Logbook (16_study.md R539, R540) -/

/-- A logbook entry: SEQ, KIND, CODE, AON_MS, TICK and 40 bytes of DATA. -/
def logEntry (seq kind code now : Nat) (tick : BitVec 64) (data : Nat) : BitVec 512 :=
  BitVec.ofNat 512 (seq % 2 ^ 32 + (kind % 2 ^ 16) <<< 32 + (code % 2 ^ 16) <<< 48 + ((now / 1000000) % 2 ^ 64) <<< 64
    + tick.toNat <<< 128 + (data % 2 ^ 320) <<< 192)

/-- Make a logbook entry: it goes to the tail in retention SRAM, which holds 256 entries. -/
def State.log (s : State) (kind code : Nat) (data : Nat := 0) : State :=
  let seq := s.sty.logSeq + 1
  let t := s.sty.tail ++ [logEntry seq kind code s.now s.tick.number data]
  { s with sty := { s.sty with logSeq := seq, tail := t.drop (t.length - 256) } }

/-! ### Fault records (R592 to R595, R599) -/

/-- The 32 bytes of a record slot as R592 lays them out. -/
def FaultRec.bits (r : FaultRec) : Nat :=
  r.cls % 256 + (r.level % 4) <<< 8 + (b2n r.acked) <<< 10 + (b2n r.active) <<< 11 + (b2n r.escalated) <<< 12
    + r.unit.toNat <<< 16 + r.count.toNat <<< 32 + r.first.toNat <<< 64 + r.last.toNat <<< 128 + r.detail.toNat <<< 192

/-- The record of a report at the moment of its first report. -/
def freshRec (r : Report) (lvl : Nat) (tick : BitVec 64) (born : Nat) : FaultRec :=
  { cls := r.cls.toNat, level := lvl, active := r.persistent, escalated := r.level.val < lvl, unit := r.unit,
    first := tick, last := tick, detail := r.detail, born := born }

/-- COUNT grows by one, saturating. -/
def satInc {w : Nat} (x : BitVec w) : BitVec w := if x = BitVec.allOnes w then x else x + 1

/-- The slot of the uncleared record of the same fault, still present (first case of R593). -/
def sameFault (recs : Tbl FaultRec) (r : Report) : Option (Nat × FaultRec) :=
  recs.find? fun e => e.2.cls == r.cls.toNat && e.2.unit == r.unit && e.2.detail == r.detail && e.2.active

/-- The earliest-created unacknowledged record of the class. -/
def earliest (recs : Tbl FaultRec) (cls : Nat) : Option FaultRec :=
  (recs.filterMap fun e => if e.2.cls == cls && !e.2.acked then some e.2 else none).foldl
    (fun a r => match a with
      | none => some r
      | some b => if r.born < b.born then some r else some b) none

/-- The level at which the classifier takes a report (the escalation of R593). -/
def escalate (recs : Tbl FaultRec) (r : Report) : Nat :=
  match earliest recs r.cls.toNat with
  | none => r.level.val
  | some e => min 3 (max r.level.val (e.level + 1))

/-- An unacknowledged, inactive record of the class at that level, to merge into. -/
def mergeSlot (recs : Tbl FaultRec) (cls lvl : Nat) : Option (Nat × FaultRec) :=
  recs.find? fun e => e.2.cls == cls && e.2.level == lvl && !e.2.active && !e.2.acked

/-- The lowest free slot of slots 0 to 62 (slot 63 is reserved, R595). -/
def freeSlot (recs : Tbl FaultRec) : Option Nat := firstSat 63 fun i => (tfind recs i).isNone

/-- Store a record in a slot. -/
def State.setRec (s : State) (slot : Nat) (r : FaultRec) : State :=
  { s with fb := { s.fb with recs := tset s.fb.recs slot r } }

/-- What a record that is created sets off beside itself: a logbook entry (R594) and the Fusebox notice (R597). -/
def State.recordMade (s : State) (r : FaultRec) : State :=
  let s := s.log 2 r.cls (r.level + r.unit.toNat <<< 8 + r.detail.toNat <<< 32)
  if s.reg Reg.fbCtrlAttnLevel ≤ r.level then s.setReg Reg.rgAttnStatusFault 1 else s

/-- A free slot takes the record, or the report is lost and slot 63 says so (R595). -/
def State.takeSlot (s : State) (r : Report) (lvl : Nat) : State :=
  let fresh := freshRec r lvl s.tick.number s.fb.nextBorn
  let s := { s with fb := { s.fb with nextBorn := s.fb.nextBorn + 1 } }
  match freeSlot s.fb.recs with
  | some i => (s.setRec i fresh).recordMade fresh
  | none =>
    let s := s.bump Reg.fbStatusLost
    match tfind s.fb.recs 63 with
    | some o => s.setRec 63 { o with count := satInc o.count, last := s.tick.number }
    | none =>
      let o := freshRec (mkReport fcFbOverflow 1) 1 s.tick.number fresh.born
      (s.setRec 63 o).recordMade o

/-- The classifier takes a report (R593). A note that escalation lifts to L2 or above is a fault of the current tick
(02_the_tick.md R53). -/
def State.classify (s : State) (r : Report) : State :=
  match sameFault s.fb.recs r with
  | some (i, a) => s.setRec i { a with count := satInc a.count, last := s.tick.number }
  | none =>
    let lvl := escalate s.fb.recs r
    let s := s.markL2 (r.level.val = 0 && 1 ≤ lvl)
    match mergeSlot s.fb.recs r.cls.toNat lvl with
    | some (i, a) =>
      s.setRec i { a with count := satInc a.count, last := s.tick.number, unit := r.unit, detail := r.detail,
                          active := r.persistent, escalated := a.escalated || decide (r.level.val < lvl) }
    | none => s.takeSlot r lvl

/-- Some uncleared record stands at L4. -/
def State.hasStop (s : State) : Bool := s.fb.recs.any fun e => e.2.level == 3

/-- Records that are acknowledged and not ACTIVE clear, each with a logbook entry (R594, R599). -/
def State.clearRecords (s : State) : State :=
  let gone := s.fb.recs.filter fun e => e.2.acked && !e.2.active
  let s := s.each gone fun s e => s.log 2 e.2.cls (0x80 + e.2.level)
  { s with fb := { s.fb with recs := s.fb.recs.filter fun e => !(e.2.acked && !e.2.active) } }

/-- The condition of records of a class ends: those that `p` picks become inactive (R594). -/
def State.endCondition (s : State) (cls : Byte) (p : FaultRec → Bool) : State :=
  { s with fb := { s.fb with recs := s.fb.recs.map fun e =>
      if e.2.cls == cls.toNat && p e.2 then (e.1, { e.2 with active := false }) else e } }

/-! ### Pins (R596; 04_rings_and_doorbells.md R147 to R150; 21_signals_and_ratings.md R637) -/

/-- FAULT_N reads low while the companion die is unpowered, and is driven low while RESET_N is low and while an uncleared
record stands at PIN_LEVEL or above. -/
def State.faultLow (s : State) : Bool :=
  !s.pwr.aonGood || s.rst.resetLow || s.fb.recs.any fun e => s.reg Reg.fbCtrlPinLevel ≤ e.2.level

/-- STOP_N reads low while the companion die is unpowered, and is driven low while RESET_N is low and while an L4 record is
uncleared. -/
def State.stopLow (s : State) : Bool := !s.pwr.aonGood || s.rst.resetLow || s.hasStop

/-- Output HOST_ATTNk_N has a source that holds it: a notifying completion ring, a mailbox reply or a Fusebox notice. -/
def State.attnHeld (s : State) (k : Nat) : Bool :=
  (s.rg.cq.any fun e => e.2.notifying && s.flag (Reg.rgCqCfgAttnEn.ix e.1) && s.reg (Reg.rgCqCfgAttn.ix e.1) == k)
  || (s.flag Reg.rgAttnStatusMboxReply && s.flag Reg.rgAttnSrcMboxEn && s.reg Reg.rgAttnSrcMboxAttn == k)
  || (s.flag Reg.rgAttnStatusFault && s.flag Reg.rgAttnSrcFaultEn && s.reg Reg.rgAttnSrcFaultAttn == k)

/-- The four attention outputs as a mask of those asserted; released while the main die is in reset or off. -/
def State.attnPins (s : State) : BitVec 4 :=
  if s.pwr.mainGood && !s.rst.starting && !s.rst.resetLow then
    BitVec.ofNat 4 (b2n (s.attnHeld 0) + 2 * b2n (s.attnHeld 1) + 4 * b2n (s.attnHeld 2) + 8 * b2n (s.attnHeld 3))
  else 0

/-- The pins follow what drives them. -/
def State.settle (s : State) : State :=
  { s with pins := { s.pins with faultN := !s.faultLow, stopN := !s.stopLow, hostAttn := s.attnPins } }

/-- How every meaning ends: the next state, its pins settled. -/
def finish (s : State) : Host.Outcome State Fault Refusal := .next s.settle

/-- A meaning whose operands the event cannot carry stops the model (assumption 7). -/
def guarded (ok : Bool) (s : State) : Host.Outcome State Fault Refusal :=
  if ok then finish s else .fault .illFormedCommand

end Sys2Proof.Machine
end

