-- ==== Sys2Proof/Machine/Window.lean ====
section
/-! DEFINITION. The rows of the host window behind the row buffers: where a row lies, what its sectors hold, the
write-back queue and the spill area, scrub-pending rows, and the device's own reads and writes of window bytes
(01_house_plan.md R28, R29; 03_front_door.md R80 to R95, R106, R107). -/

namespace Sys2Proof.Machine

/-! ### Uncorrectable units (08_memory_tiers.md R299 to R301) -/

/-- UNIT of a MEM_UNCORR record (19_fusebox.md R605): store in [7:5]. -/
def State.memUnit (s : State) (space : Nat) : Nat :=
  if space < 18 then space
  else if space < 22 then space + 1 <<< 5
  else s.ptile (space - 32) + 2 <<< 5

/-- A MEM_UNCORR report of a bad unit. -/
def State.memReport (s : State) (space off : Nat) : Report := mkReport fcMemUncorr 1 (s.memUnit space) off true

/-- Count an uncorrectable read of a space. -/
def State.countUncorr (s : State) (space : Nat) : State :=
  if space < 18 then s.bump Reg.loftUncorrCount
  else if space < 22 then s.bump (Reg.celErrUncorr.ix (space - 18))
  else s.bump (Reg.panErrUncorr.ix (space - 32))

/-- Size of a protected unit of a space (R299). -/
def unitSize (space : Nat) : Nat := if space < 32 then 64 else 8

/-- Offsets of the units that bytes `[off, off + n)` touch. -/
def unitsIn (size off n : Nat) : List Nat :=
  if n = 0 then [] else (List.range (cdiv (off % size + n) size)).map fun i => (off / size + i) * size

/-- The bad units among those that a range touches. -/
def State.badIn (s : State) (space off n : Nat) : List Nat :=
  if s.badUnits.isEmpty then []
  else (unitsIn (unitSize space) off n).filter fun u => s.badUnits.contains (spaceKey space u)

/-- Mark a unit bad. -/
def State.markBad (s : State) (space u : Nat) : State := { s with badUnits := sins s.badUnits (spaceKey space u) }

/-- A read reports the bad units it met: counted, and one report each (R299). -/
def State.reportBad (s : State) (space : Nat) (l : List Nat) : State :=
  s.each l fun s u => (s.countUncorr space).raise (s.memReport space u)

/-- A write of whole units clears their marks and ends their records' condition (R300). -/
def State.clearBad (s : State) (space : Nat) (l : List Nat) : State :=
  s.each l fun s u =>
    let s := { s with badUnits := s.badUnits.filter (· != spaceKey space u) }
    s.endCondition fcMemUncorr fun r => r.unit.toNat == s.memUnit space && r.detail.toNat == u

/-- Clear the marks of units that are bad, by key. -/
def State.clearKeys (s : State) (l : List Nat) : State :=
  s.each (l.filter fun k => s.badUnits.contains k) fun s k => s.clearBad (keySpace k) [keyOff k]

/-- Report units, by key. -/
def State.reportKeys (s : State) (l : List Nat) : State := s.each l fun s k => s.reportBad (keySpace k) [keyOff k]

/-! ### Rows -/

/-- Number of a row among all rows of the window. -/
def rowId (ch bank row : Nat) : Nat := (ch * 16 + bank) * 8192 + row

/-- Rows 0 to 255 of banks 0 and 1 of channel 0 hold the register aperture (R92). -/
def isAperture (ch bank row : Nat) : Bool := ch == 0 && bank < 2 && row < 256

/-- Row 0 of bank 15 is the channel's doorbell row (R94). -/
def isDoorbell (bank row : Nat) : Bool := bank == 15 && row == 0

/-- Channel, bank, row and byte of a window offset (R91). -/
def winParts (off : Nat) : Nat × Nat × Nat × Nat :=
  (bitsAt off 28 2, bitsAt off 24 4, bitsAt off 11 13, bitsAt off 0 11)

/-- The 64 KiB window page holds an aperture or doorbell row (R95) or the mailbox (04_rings_and_doorbells.md R152). -/
def winExcluded (off : Nat) : Bool :=
  let (ch, bank, row, _) := winParts off
  (ch == 0 && bank < 2 && row < 256) || (bank == 15 && row < 32) || (ch == 0 && bank == 2 && row < 32)

/-- Key of a row's first byte in its window slice (01_house_plan.md R29). -/
def State.rowKey (s : State) (ch bank row : Nat) : Nat :=
  spaceKey (lget s.fd.slices (4 * (bank % 4) + ch) 0) (0x7C000000 + (bank / 4 * 8192 + row) * 2048)

/-- One of the four channels. -/
def State.chan (s : State) (c : Nat) : FdChan := s.fd.chans[c]?.getD {}

/-- Store a channel. -/
def State.setChan (s : State) (c : Nat) (x : FdChan) : State :=
  { s with fd := { s.fd with chans := s.fd.chans.setIfInBounds c x } }

/-- The bank's open row buffer. -/
def State.openRow (s : State) (c b : Nat) : Option RowBuf := tfind (s.chan c).open_ b

/-! ### Scrub-pending rows (R106, R107) -/

/-- The row is scrub-pending. -/
def State.scrubPending (s : State) (id : Nat) : Bool := s.fd.scrub.any fun i => i.1 ≤ id && id < i.2

/-- Take one number out of a list of intervals. -/
def dropFrom (l : List (Nat × Nat)) (id : Nat) : List (Nat × Nat) :=
  l.flatMap fun i =>
    if i.1 ≤ id && id < i.2 then [(i.1, id), (id + 1, i.2)].filter fun j => j.1 < j.2 else [i]

/-- Take a row out of the scrub-pending rows. -/
def State.clearScrub (s : State) (id : Nat) : State := { s with fd := { s.fd with scrub := dropFrom s.fd.scrub id } }

/-! ### Sectors -/

/-- The newer of two pending write-backs. -/
def newer (a b : Option WriteBack) : Option WriteBack :=
  match a, b with
  | some x, some y => if x.seq < y.seq then some y else some x
  | some x, none => some x
  | none, y => y

/-- The newest pending write-back of a sector in the write-back queue or the spill area (R81). -/
def State.pendingSector (s : State) (ch bank row sec : Nat) : Option WriteBack :=
  ((s.chan ch).queue ++ s.fd.spill).foldl
    (fun a w => if w.ch == ch && w.bank == bank && w.row == row && w.dirty.getLsbD sec then newer a (some w) else a) none

/-- The home of a sector's 64-byte unit holds an uncorrectable error. -/
def State.rowBad (s : State) (ch bank row sec : Nat) : Bool := s.badUnits.contains (s.rowKey ch bank row + sec / 2 * 64)

/-- The current contents of a sector of a row that is not open (R81, R106). What an uncorrectable unit gives is undefined:
a free value (08_memory_tiers.md R299). -/
def State.sectorNow (s : State) (ch bank row sec : Nat) : List Byte :=
  if s.scrubPending (rowId ch bank row) then List.replicate 32 0
  else match s.pendingSector ch bank row sec with
    | some w => mread w.data (32 * sec) 32
    | none =>
      let k := s.rowKey ch bank row + 32 * sec
      if s.rowBad ch bank row sec then (List.range 32).map fun i => Config.badByte (k + i) else mread s.mem k 32

/-- A sector can be had only from its home, which is uncorrectable there: no write-back of it is pending, and no open buffer
holds it as written. -/
def State.sectorFails (s : State) (ch bank row sec : Nat) : Bool :=
  s.rowBad ch bank row sec && !s.scrubPending (rowId ch bank row) && (s.pendingSector ch bank row sec).isNone
    && !((s.openRow ch bank).any fun b => b.row == row && b.dirty.getLsbD sec)

/-- A sector as the device reads it: from the open buffer when the row is open (R87). -/
def State.sectorSeen (s : State) (ch bank row sec : Nat) : List Byte :=
  match s.openRow ch bank with
  | some b => if b.row == row then mread b.data (32 * sec) 32 else s.sectorNow ch bank row sec
  | none => s.sectorNow ch bank row sec

/-- Clear a sector's dirty bit in the pending write-backs of a row. -/
def dropPending (l : List WriteBack) (ch bank row sec : Nat) : List WriteBack :=
  l.map fun w =>
    if w.ch == ch && w.bank == bank && w.row == row then { w with dirty := w.dirty &&& ~~~(1#64 <<< sec) } else w

/-- The row's home bytes become zero, its pending write-backs are dropped and an open buffer of it is zeroed; its mark
clears (17_security.md R552: a device write to a scrub-pending row first zeroes the row). -/
def State.zeroRow (s : State) (ch bank row : Nat) : State :=
  let c := s.chan ch
  let keep := fun (w : WriteBack) => !(w.ch == ch && w.bank == bank && w.row == row)
  let opn := c.open_.map fun e => if e.1 == bank && e.2.row == row then (e.1, { e.2 with data := [], dirty := 0 }) else e
  let s := s.clearKeys ((List.range 32).map fun u => s.rowKey ch bank row + 64 * u)
  let s := { s with mem := tclear s.mem (s.rowKey ch bank row) 2048 }
  let s := s.setChan ch { c with queue := c.queue.filter keep, open_ := opn }
  let s := { s with fd := { s.fd with spill := s.fd.spill.filter keep } }
  s.clearScrub (rowId ch bank row)

/-- A device write of one whole sector: Loft copy and open buffer (R86). Older pending write-backs of the sector no longer
count; the sector is clean. -/
def State.putSector (s : State) (ch bank row sec : Nat) (bs : List Byte) : State :=
  let c := s.chan ch
  let opn := c.open_.map fun e =>
    if e.1 == bank && e.2.row == row then
      (e.1, { e.2 with data := mwrite e.2.data (32 * sec) bs, dirty := e.2.dirty &&& ~~~(1#64 <<< sec) })
    else e
  let s := { s with mem := mwrite s.mem (s.rowKey ch bank row + 32 * sec) bs }
  let s := s.setChan ch { c with queue := dropPending c.queue ch bank row sec, open_ := opn }
  { s with fd := { s.fd with spill := dropPending s.fd.spill ch bank row sec } }

/-- Overlay bytes on a sector from byte `at_` on. -/
def overlay (sector : List Byte) (at_ : Nat) (bs : List Byte) : List Byte :=
  sector.take at_ ++ bs ++ sector.drop (at_ + bs.length)

/-- A device write within one sector; an uncorrectable unit stays as it is (08_memory_tiers.md R301). -/
def State.winPut (s : State) (off : Nat) (bs : List Byte) : State :=
  let (ch, bank, row, byte) := winParts off
  let s := if s.scrubPending (rowId ch bank row) then s.zeroRow ch bank row else s
  let sec := byte / 32
  if s.rowBad ch bank row sec then s
  else s.putSector ch bank row sec (overlay (s.sectorSeen ch bank row sec) (byte % 32) bs)

/-- A device write of any length, sector by sector in ascending order; `fuel` bounds the sectors. -/
def State.winWriteN (s : State) (off : Nat) (bs : List Byte) : Nat → State
  | 0 => s
  | fuel + 1 =>
    match bs with
    | [] => s
    | _ =>
      let n := 32 - off % 32
      (s.winPut off (bs.take n)).winWriteN (off + n) (bs.drop n) fuel

/-- Key of a window byte's home. -/
def State.winKey (s : State) (off : Nat) : Nat :=
  let (ch, bank, row, byte) := winParts off
  s.rowKey ch bank row + byte

/-- The row of a window byte is scrub-pending. -/
def State.winScrub (s : State) (off : Nat) : Bool :=
  let (ch, bank, row, _) := winParts off
  s.scrubPending (rowId ch bank row)

/-- Offsets of the 64-byte units that a range touches and whose homes hold uncorrectable errors. -/
def State.winBad (s : State) (off n : Nat) : List Nat :=
  if s.badUnits.isEmpty then [] else (unitsIn 64 off n).filter fun u => s.badUnits.contains (s.winKey u) && !s.winScrub u

/-- A range covers a 64-byte unit. -/
def coversUnit (off n u : Nat) : Bool := off ≤ u && u + 64 ≤ off + n

/-- A device write to the window (R86). A uncorrectable unit that it replaces is good again (08_memory_tiers.md R300); one of
which it writes a part is reported and stays as it is (R301). -/
def State.winWrite (s : State) (off : Nat) (bs : List Byte) : State :=
  let bad := s.winBad off bs.length
  let part := bad.filter fun u => !coversUnit off bs.length u
  let s := s.clearKeys ((bad.filter (coversUnit off bs.length)).map s.winKey)
  (s.reportKeys (part.map s.winKey)).winWriteN off bs (bs.length / 32 + 2)

/-- One byte of the window as the device reads it (R87). -/
def State.winByte (s : State) (off : Nat) : Byte :=
  let (ch, bank, row, byte) := winParts off
  lget (s.sectorSeen ch bank row (byte / 32)) (byte % 32) 0

/-- A device read of the window. -/
def State.winRead (s : State) (off n : Nat) : List Byte := (List.range n).map fun i => s.winByte (off + i)

/-- Keys of the uncorrectable units that a device read of a range meets. -/
def State.winFails (s : State) (off n : Nat) : List Nat :=
  ((s.winBad off n).filter fun u =>
    let (ch, bank, row, byte) := winParts u
    [0, 1].any fun i => off < u + 32 * i + 32 && u + 32 * i < off + n && s.sectorFails ch bank row (byte / 32 + i)).map s.winKey

/-- Such a read counts and reports them (08_memory_tiers.md R299). -/
def State.winReport (s : State) (off n : Nat) : State := s.reportKeys (s.winFails off n)

/-! ### Closing rows and writing back (R84, R85) -/

/-- Sectors of a row as a write-back of the sectors in `dirty`. -/
def closeOf (ch bank : Nat) (b : RowBuf) (dirty : BitVec 64) (now seq : Nat) : WriteBack :=
  { ch := ch, bank := bank, row := b.row, data := b.data, dirty := dirty, queuedAt := now, seq := seq }

/-- Queue a closed row: to the channel's queue of 32, or to the spill area when it is full (R84, R85). -/
def State.queueRow (s : State) (ch : Nat) (w : WriteBack) : State :=
  let c := s.chan ch
  let s := { s with fd := { s.fd with nextSeq := s.fd.nextSeq + 1 } }
  if c.queue.length < 32 then s.setChan ch { c with queue := c.queue ++ [w] }
  else { s with fd := { s.fd with spill := s.fd.spill ++ [w] } }

/-- Close a bank: its dirty sectors, or the whole row when it is scrub-pending (R107), are queued, and the buffer is
free. Aperture and doorbell rows close without side effects (R93, R94). -/
def State.closeBank (s : State) (ch bank : Nat) : State :=
  match s.openRow ch bank with
  | none => s
  | some b =>
    let c := s.chan ch
    let s := s.setChan ch { c with open_ := tdel c.open_ bank }
    if isAperture ch bank b.row || isDoorbell bank b.row then s
    else
      let id := rowId ch bank b.row
      let dirty := if s.scrubPending id then BitVec.allOnes 64 else b.dirty
      let s := s.clearScrub id
      if dirty = 0 then s else s.queueRow ch (closeOf ch bank b dirty s.now s.fd.nextSeq)

/-- Write the dirty sectors of a write-back to the row's home. An uncorrectable unit is replaced whole, or is reported and
stays as it is (08_memory_tiers.md R300, R301). -/
def State.applyWriteBack (s : State) (w : WriteBack) : State :=
  s.each (List.range 32) fun s u =>
    let secs := [2 * u, 2 * u + 1].filter fun i => w.dirty.getLsbD i
    let k := s.rowKey w.ch w.bank w.row + 64 * u
    if secs.isEmpty then s
    else if secs.length = 1 && s.badUnits.contains k then s.reportKeys [k]
    else
      let s := if s.badUnits.contains k then s.clearKeys [k] else s
      s.each secs fun s i =>
        { s with mem := mwrite s.mem (s.rowKey w.ch w.bank w.row + 32 * i) (mread w.data (32 * i) 32) }

/-- The window slice that holds the rows of a bank of a channel can take a write-back (R85). -/
def State.sliceOpen (s : State) (ch bank : Nat) : Bool :=
  !s.fb.bondHold.contains (lget s.fd.slices (4 * (bank % 4) + ch) 0)

/-- Save every pending and dirty sector of every channel in its home, and close every buffer: what the shadow area's
copies come to once they are merged back (R102, R103, R488). -/
def State.saveAll (s : State) : State :=
  let s := s.each (List.range 4) fun s ch => s.each (List.range 16) fun s b => s.closeBank ch b
  let all := ((List.range 4).flatMap fun ch => (s.chan ch).queue) ++ s.fd.spill
  let s := s.each (all.mergeSort fun a b => a.seq ≤ b.seq) fun s w => s.applyWriteBack w
  let s := s.each (List.range 4) fun s ch => s.setChan ch { s.chan ch with queue := [] }
  { s with fd := { s.fd with spill := [] } }

/-- Buffers and queues are lost; the rows of the spill area survive and are merged back (R103, R488). -/
def State.loseBuffers (s : State) : State :=
  let s := s.each (List.range 4) fun s ch => s.setChan ch { s.chan ch with queue := [], open_ := [] }
  let s := s.each (s.fd.spill.mergeSort fun a b => a.seq ≤ b.seq) fun s w => s.applyWriteBack w
  { s with fd := { s.fd with spill := [] } }

/-- Every window row reads zeros (15_resets_and_retention.md R489, R490). -/
def State.zeroWindow (s : State) : State :=
  let s := s.each (List.range 18) fun s n => { s with mem := tclear s.mem (spaceKey n 0x7C000000) 0x4000000 }
  let s := s.each (List.range 4) fun s ch => s.setChan ch { s.chan ch with queue := [], open_ := [] }
  { s with fd := { s.fd with spill := [], scrub := [] }
           badUnits := s.badUnits.filter fun k => !(keySpace k < 18 && 0x7C000000 ≤ keyOff k) }

end Sys2Proof.Machine
end

