-- ==== Sys2Proof/Machine/Access.lean ====
section
/-! DEFINITION. Memory access: the Deed table, translation, the Pantry, the window, compressed pages and pages homed on
another device (01_house_plan.md R30 to R40; 06_tile_arithmetic.md R199, R658; 08_memory_tiers.md R265 to R302;
18_party_wall.md R580 to R582). Every step, engine and record writer reads and writes through `rd` and `wr`. -/

namespace Sys2Proof.Machine

/-! ### Status codes (04_rings_and_doorbells.md R144 and the owning chapters) -/

/-- OK. -/
def stOk : Byte := 0x00
/-- BAD_DESCRIPTOR. -/
def stBadDescriptor : Byte := 0x10
/-- NOT_ARRIVED. -/
def stNotArrived : Byte := 0x11
/-- FENCE_TIMEOUT. -/
def stFenceTimeout : Byte := 0x12
/-- TABLE_REJECTED. -/
def stTableRejected : Byte := 0x13
/-- NO_SUCH_WING. -/
def stNoSuchWing : Byte := 0x14
/-- TICK_PASSED. -/
def stTickPassed : Byte := 0x15
/-- ARM_REJECTED. -/
def stArmRejected : Byte := 0x16
/-- NOT_ARMED. -/
def stNotArmed : Byte := 0x17
/-- OVERRUN_DROPPED. -/
def stOverrunDropped : Byte := 0x20
/-- DROPPED_AFTER_CARRY. -/
def stDroppedAfterCarry : Byte := 0x21
/-- TICK_SKIPPED. -/
def stTickSkipped : Byte := 0x22
/-- URGENT_LIMIT. -/
def stUrgentLimit : Byte := 0x23
/-- STREAM_AWAY_TIMEOUT. -/
def stStreamAwayTimeout : Byte := 0x24
/-- NO_HOME. -/
def stNoHome : Byte := 0x30
/-- WINDOW_EXCLUDED. -/
def stWindowExcluded : Byte := 0x31
/-- TRANSLATION_FAULT. -/
def stTranslationFault : Byte := 0x32
/-- UNCORRECTABLE. -/
def stUncorrectable : Byte := 0x33
/-- UNIT_FAILED. -/
def stUnitFailed : Byte := 0x34
/-- LINK_FAILED (18_party_wall.md R587). -/
def stLinkFailed : Byte := 0x36
/-- FAULT_STOP (19_fusebox.md R601). -/
def stFaultStop : Byte := 0x37
/-- BAD_STEP (05_steps_and_wings.md R161). -/
def stBadStep : Byte := 0x80
/-- WING_REJECTED (05_steps_and_wings.md R165). -/
def stWingRejected : Byte := 0x81
/-- TOKEN_TIMEOUT (05_steps_and_wings.md R175). -/
def stTokenTimeout : Byte := 0x82
/-- NO_SPACE (08_memory_tiers.md R275). -/
def stNoSpace : Byte := 0x90
/-- PINNED_REFUSED (08_memory_tiers.md R276). -/
def stPinnedRefused : Byte := 0x91
/-- COMPRESSED_PARTIAL (08_memory_tiers.md R298). -/
def stCompressedPartial : Byte := 0x92

/-- DETAIL of a failed access: DVA bits [47:16] (R142). -/
def pageDetail (dva : Nat) : BitVec 32 := BitVec.ofNat 32 (dva >>> 16)

/-! ### Accesses -/

/-- Why an access does not go on: it fails with a status and DETAIL, or it is held (by a page in MOVING or ZEROING, by a
Cellar that is being retrained, or until a remote home answers), as the access of a DVA or as a table walk for it. -/
inductive AFail where
  | status (code : Byte) (detail : BitVec 32)
  | blocked (dva : Nat) (walk : Bool)
  deriving DecidableEq, Repr

/-- A computation that reads and writes memory. -/
abbrev Acc (α : Type) := ExceptT AFail (StateM State) α

/-- Who makes an access: tiles 0 to 15, the Gallery 16, the companion-die bridge 17 (R290; it also writes the tick
records, assumption 20); the rounding mode of its writes to compressed pages (R297); `partOk`: its writes are parts of
output rows that are whole multiples of 256 bytes on 256-byte boundaries (R298, 11_vision_operators.md); `quiet`: its reads
are of an output's own previous contents (05_steps_and_wings.md R160, ACCUM); `fed`: another feeder of the tile has fetched
what it reads (06_tile_arithmetic.md R201); `key`: the step of a list whose share it is. -/
structure Who where
  agent : Nat
  away : Bool := false
  partOk : Bool := false
  quiet : Bool := false
  fed : Bool := false
  key : Nat := 0
  deriving DecidableEq, Repr

/-- The key of a step of a list. -/
def stepKey (work step : Nat) : Nat := (work + 1) * 65536 + step

/-- The Gallery. -/
def whoGallery : Who := { agent := 16 }

/-- The companion-die bridge and the tick-record writer. -/
def whoBridge : Who := { agent := 17 }

/-! ### Deed entries (R269) -/

/-- An entry that names no home. -/
def deedUnhomed : BitVec 64 := 0x1F

/-- The Deed entry of a UPA page. -/
def State.deedOf (s : State) (page : Nat) : Nat := (tget s.deed.entries page deedUnhomed).toNat

/-- HOME. -/
def dHome (e : Nat) : Nat := bitsAt e 0 5
/-- STATE. -/
def dState (e : Nat) : Nat := bitsAt e 5 3
/-- CLASS. -/
def dClass (e : Nat) : Nat := bitsAt e 8 3
/-- ARG. -/
def dArg (e : Nat) : Nat := bitsAt e 11 5
/-- EPOCH. -/
def dEpoch (e : Nat) : Nat := bitsAt e 16 16
/-- FRAME. -/
def dFrame (e : Nat) : Nat := bitsAt e 32 19

/-- Build an entry. -/
def mkDeed (home state cls arg epoch frame : Nat) : Nat :=
  home % 32 + (state % 8) <<< 5 + (cls % 8) <<< 8 + (arg % 32) <<< 11 + (epoch % 65536) <<< 16
    + (frame % 2 ^ 19) <<< 32

/-- Store a Deed entry. -/
def State.setDeed (s : State) (page e : Nat) : State :=
  { s with deed := { s.deed with entries := tput deedUnhomed s.deed.entries page (BitVec.ofNat 64 e) } }

/-- The current tenant epoch. -/
def State.epoch (s : State) : Nat := s.reg Reg.deedStateEpoch

/-! ### Homes -/

/-- The Cellar channel counts as fitted (R660). -/
def State.celFitted (s : State) (c : Nat) : Bool :=
  (s.reg Reg.celCtrlFitted).testBit c && (let k := bitsAt (s.reg Reg.celCtrlCap) (4 * c) 4; 1 ≤ k && k ≤ 5)
    && s.reg Reg.celCtrlRate ≤ 4

/-- Fitted Cellar channels, ascending. -/
def State.celChannels (s : State) : List Nat := (List.range 4).filter s.celFitted

/-- Frames that a home offers (R35, R262). -/
def State.homeFrames (s : State) (home : Nat) : Nat :=
  if home < 18 then 31744
  else if home < 22 then
    if s.celFitted (home - 18) then
      let n := 2 ^ (14 + bitsAt (s.reg Reg.celCtrlCap) (4 * (home - 18)) 4)
      if s.flag Reg.celCtrlEcc then n * 31 / 32 else n
    else 0
  else 0

/-- What an access to a UPA page meets (R270, R271, R661, R580). -/
inductive PageView where
  | unhomed
  | resident (home frame : Nat)
  | scrub (home frame : Nat)
  | held
  | failed
  | corrupt
  | remote (pos : Nat)
  deriving DecidableEq, Repr

/-- HOME is a reserved code, or FRAME lies beyond its home's frames (R661). -/
def State.deedCorrupt (s : State) (e : Nat) : Bool :=
  let h := dHome e
  6 ≤ dState e || (26 ≤ h && h ≤ 30) || (22 ≤ h && h ≤ 25 && !s.fuses.links)
    || (h < 18 && 31744 ≤ dFrame e) || (18 ≤ h && h < 22 && s.celFitted (h - 18) && s.homeFrames h ≤ dFrame e)

/-- The page as an access meets it. -/
def State.pageView (s : State) (page : Nat) : PageView :=
  let e := s.deedOf page
  let h := dHome e
  if dState e = 5 then .failed
  else if s.deedCorrupt e then .corrupt
  else if dState e = 0 then .unhomed
  else if dState e = 2 || dState e = 4 then .held
  else if 22 ≤ h && h ≤ 25 then .remote (h - 22)
  else if h = 31 then .unhomed
  else if 18 ≤ h && !s.celFitted (h - 18) then .unhomed
  else if 18 ≤ h && s.rst.cellarWait then .held
  else if dState e = 3 || dEpoch e ≠ s.epoch then .scrub h (dFrame e)
  else .resident h (dFrame e)

/-! ### Failed entries (R302, R661) -/

/-- Keep the first page. -/
def firstOf (a : Option Nat) (i : Nat) : Option Nat :=
  match a with
  | some x => some (min x i)
  | none => some i

/-- A share that runs, or is stopped to resume, ends with a status: the first one stands (05_steps_and_wings.md R176). -/
def State.shareFails (s : State) (agent key : Nat) (status : Byte) (detail : BitVec 32) : State :=
  let bad := fun (r : TileRun) =>
    if r.tile = agent && (r.busy || r.spilled) && r.status == 0 then { r with status := status, detail := detail } else r
  { s with wk := { s.wk with works := s.wk.works.map fun (w : Work) =>
      if key / 65536 = w.id + 1 then { w with tiles := w.tiles.map bad } else w } }

/-- Give up what waits for a page that has failed: the writes held for it fail (R270), and so does the zeroing that a
request asked for (R662). -/
def State.dropHeld (s : State) (page : Nat) : State :=
  let held := s.deed.held.filter fun h => h.page == page
  let jobs := s.deed.zeroJobs.filter fun z => z.1 == page
  let s := { s with deed := { s.deed with held := s.deed.held.filter fun h => h.page != page
                                          zeroJobs := s.deed.zeroJobs.filter fun z => z.1 != page } }
  let s := s.each held fun s h => s.shareFails h.agent h.key stUncorrectable (pageDetail h.dva)
  s.each jobs fun s z => { s with wk := { s.wk with places := s.wk.places.map fun (p : PlaceJob) =>
    if p.id = z.2.1 then { p with uncorr := firstOf p.uncorr z.2.2, moves := p.moves - 1 } else p } }

/-- Set a Deed entry FAILED (R302, R661): what it held is unknown from then on, so its other bits are free, but for HOME,
which is never a reserved code; the frame it held is lost to its free list. -/
def State.failEntry (s : State) (page : Nat) : State :=
  let e := s.deedOf page
  let (k, s) := s.fresh
  let junk := (Config.freeWord k).toNat % 2 ^ 51
  let lost := if dState e ≠ 0 && dState e ≠ 5 && dHome e < 22 then [(dHome e, dFrame e)] else []
  let s := s.setDeed page (putBits (putBits junk 0 5 31) 5 3 5)
  let s := { s with deed := { s.deed with lost := s.deed.lost ++ lost } }
  ((s.dropHeld page).bump Reg.deedErrUncorr).raise (mkReport fcMemUncorr 1 (3 <<< 5) page true)

/-! ### Read credits (05_steps_and_wings.md R177, R178) -/

/-- The list and share that run on a tile. -/
def State.runningOn (s : State) (t : Nat) : Option (Work × TileRun) :=
  s.wk.works.findSome? fun (w : Work) =>
    match w.tiles.find? fun r => r.tile == t && r.busy with
    | some r => some (w, r)
    | none => none

/-- Sum of a list. -/
def total (l : List Nat) : Nat := l.foldl (· + ·) 0

/-- Units that a tile has asked other devices for and that have not come (18_party_wall.md R581). -/
def State.remoteOut (s : State) (t : Nat) : Nat :=
  total ((s.pw.reqs.filter fun q => q.agent == t && !q.write).map fun q => q.data.length / 64)

/-- Read credits of a tile that are in use: by work that `p` picks. -/
def State.creditsUsed (s : State) (t : Nat) (p : Bool → Bool) : Nat :=
  total (s.wk.works.map fun (w : Work) =>
      if p (w.cls == .urgent) then total (w.tiles.map fun r => if r.tile = t then r.reads else 0) else 0)
    + total (((tget s.wk.tiles t {}).orphans.filter fun o => p o.urgent).map fun o => o.n)

/-- Credits of a tile that its running share can still use: RD_RESERVE are kept for Urgent work. -/
def State.creditsFree (s : State) (t : Nat) (urgent : Bool) : Nat :=
  let all := 8192 - (s.creditsUsed t fun _ => true) - s.remoteOut t
  if urgent then all
  else min all (8192 - s.reg Reg.spLimitsRdReserve - (s.creditsUsed t fun u => !u) - s.remoteOut t)

/-- The running share of an agent is Urgent. -/
def State.urgentOn (s : State) (t : Nat) : Bool := (s.runningOn t).any fun x => x.1.cls == .urgent

/-! ### Plain stores -/

/-- Read bytes of a space. -/
def mediaRead (detail : BitVec 32) (space off n : Nat) : Acc (List Byte) := do
  let s ← get
  let bad := s.badIn space off n
  if bad.isEmpty then return mread s.mem (spaceKey space off) n
  else
    set (s.reportBad space bad)
    throw (.status stUncorrectable detail)

/-- Bytes of a space as they stand, for the undo of a write. -/
def State.mediaPeek (s : State) (space off n : Nat) : List Byte := mread s.mem (spaceKey space off) n

/-- Write bytes of a space; whole units that were bad become good. -/
def State.mediaPut (s : State) (space off : Nat) (bs : List Byte) : State :=
  let bad := s.badIn space off bs.length
  let whole := bad.filter fun u => off ≤ u && u + unitSize space ≤ off + bs.length
  let s := s.clearBad space whole
  { s with mem := mwrite s.mem (spaceKey space off) bs }

/-- A partial write to a bad unit fails and leaves it unchanged (R301). -/
def mediaCheck (detail : BitVec 32) (space off n : Nat) : Acc Unit := do
  let s ← get
  let partly := (s.badIn space off n).filter fun u => !(off ≤ u && u + unitSize space ≤ off + n)
  if partly.isEmpty then return ()
  else
    set (s.reportBad space partly)
    throw (.status stUncorrectable detail)

/-! ### Packets to other devices (18_party_wall.md R576 to R582) -/

/-- The job register that is not CLOSED and whose range holds a UPA page. -/
def State.jobOf (s : State) (page : Nat) : Option Nat :=
  firstSat 16 fun j =>
    s.reg (Reg.pwJob0State.ix j) ≠ 0 && s.reg (Reg.pwJob1Base.ix j) ≤ page
      && page < s.reg (Reg.pwJob1Base.ix j) + s.reg (Reg.pwJob2Pages.ix j)

/-- Some port that is up reaches the board position. -/
def State.reaches (s : State) (pos : Nat) : Bool :=
  (List.range 4).any fun p =>
    (let st := s.reg (Reg.pwPortState.ix p); st == 2 || st == 3) && s.reg (Reg.pwPortPeer.ix p) == pos

/-- A job register's engine state. -/
def State.pwJob (s : State) (j : Nat) : PwJob := (tfind s.pw.jobs j).getD {}

/-- Store it. -/
def State.setPwJob (s : State) (j : Nat) (x : PwJob) : State := { s with pw := { s.pw with jobs := tput {} s.pw.jobs j x } }

/-- Put a packet of job register `j` on its way to a member: header fields, and the next SEQ of this direction (0 for
JOB_OPEN, R576). -/
def State.sendPkt (s : State) (j dst : Nat) (p : Packet) : State :=
  let job := s.pwJob j
  let seq : BitVec 64 :=
    if p.type = 1 then 0
    else match job.peers.find? fun q => q.pos == dst with
      | some q => q.sent + 1
      | none => 1
  let peers := job.peers.map fun q => if q.pos = dst then { q with sent := seq } else q
  let p := { p with src := s.reg Reg.pwIdPos, dst := dst, job := BitVec.ofNat 16 (s.reg (Reg.pwJob0J.ix j)),
                    ke := BitVec.ofNat 16 (s.reg Reg.secLinkKeyEpoch), seq := seq,
                    len := if p.type = 2 then p.len else p.payload.length / 64 }
  let s := s.setPwJob j { job with peers := peers }
  { s with pw := { s.pw with out := s.pw.out ++ [p] } }

/-- A packet with nothing in it yet. -/
def emptyPacket : Packet :=
  { type := 0, src := 0, dst := 0, job := 0, ke := 0, seq := 0, page := 0, unit := 0, len := 0, rtag := 0, status := 0,
    target := 0, payload := [] }

/-- Send a request for units of a remote page and remember it. -/
def State.sendReq (s : State) (agent j pos page unit : Nat) (write : Bool) (data : List Byte) (key dva : Nat := 0) : State :=
  let tag := s.pw.rtagNext
  let req : RemoteReq := { agent := agent, rtag := tag, job := j, page := page, unit := unit, write := write,
                           data := data, target := pos, key := key, dva := dva }
  let s := { s with pw := { s.pw with rtagNext := tag + 1, reqs := s.pw.reqs ++ [req] } }
  s.sendPkt j pos { emptyPacket with type := if write then 4 else 2, page := BitVec.ofNat 22 page,
                                     unit := BitVec.ofNat 10 unit, len := data.length / 64,
                                     rtag := tag, payload := if write then data else [] }

/-- Remote bytes that are here. -/
def State.cached (s : State) (addr n : Nat) : Option (List Byte) :=
  (List.range n).mapM fun i => tfind s.pw.cache (addr + i)

/-- DETAIL of a status that a remote home has answered: LINK_FAILED names no page (R142). -/
def remoteDetail (status : Byte) (dva : Nat) : BitVec 32 := if status = stLinkFailed then 0 else pageDetail dva

/-- Bytes of a page homed on another member (R581): they are here, or they are asked for, as far as a tile's read credits
go, and the access is held. A read request asks for at most 32 units. -/
def remoteRead (who : Who) (dva pos page off n : Nat) : Acc (List Byte) := do
  let s ← get
  let units := unitsIn 64 off n
  match units.find? fun u => (tfind s.pw.refused (page * 1024 + u / 64)).isSome with
  | some u =>
    let st := tget s.pw.refused (page * 1024 + u / 64) 0
    throw (.status st (remoteDetail st dva))
  | none =>
    match s.cached (page * 65536 + off) n with
    | some bs => return bs
    | none =>
      match s.jobOf page with
      | none => throw (.status stLinkFailed 0)
      | some j =>
        if s.reg (Reg.pwJob0State.ix j) ≠ 2 || !s.reaches pos then throw (.status stLinkFailed 0)
        else
          let missing := units.filter fun u =>
            (s.cached (page * 65536 + u) 64).isNone &&
              !(s.pw.reqs.any fun q => q.agent == who.agent && !q.write && q.page == page && q.unit ≤ u / 64
                  && u / 64 < q.unit + q.data.length / 64)
          let missing := if who.agent < 16 then missing.take (s.creditsFree who.agent (s.urgentOn who.agent)) else missing
          let (s, _) := missing.foldl (fun (p : State × Nat) u =>
            if u / 64 < p.2 then p
            else
              let m := min 32 (missing.filter fun v => u ≤ v && v < u + 2048).length
              (p.1.sendReq who.agent j pos page (u / 64) false (List.replicate (64 * m) 0) who.key dva, u / 64 + m)) (s, 0)
          let s := { s with pw := { s.pw with asked := s.pw.asked ++ missing.map fun u => (page * 1024 + u / 64, who.agent) } }
          set s
          throw (.blocked dva false)

/-- Split bytes into packets of at most 2,048 bytes and send each as a WRITE_REQ. -/
def State.sendWrites (s : State) (agent key dva j pos page unit : Nat) (bs : List Byte) : Nat → State
  | 0 => s
  | fuel + 1 =>
    if bs.isEmpty then s
    else (s.sendReq agent j pos page unit true (bs.take 2048) key dva).sendWrites agent key dva j pos page (unit + 32)
      (bs.drop 2048) fuel

/-- A write to a page homed on another member: whole units are sent (the rest of a partial unit is read first). -/
def remoteWrite (who : Who) (dva pos page off : Nat) (bs : List Byte) : Acc Unit := do
  let lo := off / 64 * 64
  let n := cdiv (off - lo + bs.length) 64 * 64
  let full ← if lo = off && n = bs.length then pure bs else do
    let cur ← remoteRead who dva pos page lo n
    pure (overlay cur (off - lo) bs)
  let s ← get
  match s.jobOf page with
  | none => throw (.status stLinkFailed 0)
  | some j =>
    if s.reg (Reg.pwJob0State.ix j) ≠ 2 || !s.reaches pos then throw (.status stLinkFailed 0)
    else
      let s := s.sendWrites who.agent who.key dva j pos page (lo / 64) full (n / 2048 + 1)
      let keep := full.zipIdx.foldl (fun c (b, i) =>
        let a := page * 65536 + lo + i
        if (tfind c a).isSome then tset c a b else c) s.pw.cache
      set { s with pw := { s.pw with cache := keep } }

/-! ### Unified physical addresses -/

/-- Count units that a tile's read asks of Loft, Cellar or window, and note the pages they lie in
(05_steps_and_wings.md R177). -/
def State.countUnits (s : State) (who : Who) (dva units : Nat) (at_ : List (Nat × Nat)) : State :=
  if who.agent < 16 && !who.fed then
    let l := at_.map fun p => (dva / 65536, p.1, p.2)
    { s with wk := { s.wk with unitReads := s.wk.unitReads + units
                               pageLog := s.wk.pageLog ++ l.filter fun p => !s.wk.pageLog.contains p } }
  else s

/-- Read within one UPA page; `dva` names the page in a failure's DETAIL. -/
def upaRead (who : Who) (dva addr n : Nat) : Acc (List Byte) := do
  let s ← get
  let page := addr / 65536
  match s.pageView page with
  | .unhomed => throw (.status stNoHome (pageDetail dva))
  | .held => throw (.blocked dva false)
  | .failed => throw (.status stUncorrectable (pageDetail dva))
  | .corrupt =>
    set (s.failEntry page)
    throw (.status stUncorrectable (pageDetail dva))
  | .scrub _ _ => return List.replicate n 0
  | .resident h f =>
    modify fun s => s.countUnits who dva (unitsIn 64 (addr % 64) n).length [(h, f)]
    mediaRead (pageDetail dva) h (f * 65536 + addr % 65536) n
  | .remote pos => remoteRead who dva pos page (addr % 65536) n

/-- Hold a write in the Deed partition (R270). -/
def State.holdWrite (s : State) (who : Who) (dva page off : Nat) (bs : List Byte) : State :=
  let h : Held := { page := page, off := off, bytes := bs, agent := who.agent, key := who.key, dva := dva }
  { s with deed := { s.deed with held := s.deed.held ++ [h] } }

/-- Write within one UPA page, where the page takes it: a resident page at once, a page in MOVING or ZEROING later, and a
page that is scrub-pending goes to ZEROING first (R283). -/
def State.upaPut (s : State) (who : Who) (dva addr : Nat) (bs : List Byte) : State :=
  let page := addr / 65536
  match s.pageView page with
  | .resident h f => s.mediaPut h (f * 65536 + addr % 65536) bs
  | .held => s.holdWrite who dva page (addr % 65536) bs
  | .scrub _ _ => (s.setDeed page (putBits (s.deedOf page) 5 3 4)).holdWrite who dva page (addr % 65536) bs
  | _ => s

/-- A byte of a space, unless its unit is uncorrectable. -/
def State.mediaByte (s : State) (space off : Nat) : Option Byte :=
  if (s.badIn space off 1).isEmpty then some (tget s.mem (spaceKey space off) 0) else none

/-- A byte of a UPA page as it would be read once what is held has been applied; none: its unit is uncorrectable. -/
def State.upaPeek (s : State) (addr : Nat) : Option Byte :=
  let page := addr / 65536
  let off := addr % 65536
  let held := s.deed.held.filter fun h => h.page == page && h.off ≤ off && off < h.off + h.bytes.length
  match held.getLast? with
  | some h => some (lget h.bytes (off - h.off) 0)
  | none =>
    let e := s.deedOf page
    match s.pageView page with
    | .resident h f => s.mediaByte h (f * 65536 + off)
    | .held => if dState e = 2 then s.mediaByte (dHome e) (dFrame e * 65536 + off) else some 0
    | .remote _ => some (tget s.pw.cache addr 0)
    | _ => some 0

/-- A write within one UPA page that can fail. -/
def upaWrite (who : Who) (dva addr : Nat) (bs : List Byte) : Acc Unit := do
  let s ← get
  let page := addr / 65536
  match s.pageView page with
  | .unhomed => throw (.status stNoHome (pageDetail dva))
  | .failed => throw (.status stUncorrectable (pageDetail dva))
  | .corrupt =>
    set (s.failEntry page)
    throw (.status stUncorrectable (pageDetail dva))
  | .remote pos => remoteWrite who dva pos page (addr % 65536) bs
  | .resident h f =>
    mediaCheck (pageDetail dva) h (f * 65536 + addr % 65536) bs.length
    modify fun s => s.upaPut who dva addr bs
  | .held => modify fun s => s.upaPut who dva addr bs
  | .scrub _ _ => modify fun s => s.upaPut who dva addr bs

/-- A write that was held goes on against the entry as it stands at its release (R270): it is applied, is held again by a
page that has yet to be zeroed, or fails, and with it the share that made it. -/
def State.heldGoes (s : State) (h : Held) : State :=
  let who : Who := { agent := h.agent, key := h.key }
  match (StateT.run (ExceptT.run (upaWrite who h.dva (h.page * 65536 + h.off) h.bytes)) s) with
  | (.error (.status st d), s) => s.shareFails h.agent h.key st d
  | (_, s) => s

/-! ### Translation (R286 to R290) -/

/-- A leaf entry's fields are as R287 and R288 require. -/
def leafOk (block : Bool) (e : Nat) : Bool :=
  if block then bitsAt e 3 13 == 0 && bitsAt e 16 13 == 0 && bitsAt e 38 26 == 0
  else
    let comp := bitsAt e 4 2
    let win := bitAt e 3
    bitsAt e 1 1 == 0 && bitsAt e 9 7 == 0 && bitsAt e 38 26 == 0 && comp != 3 && !(win && comp != 0)
      && !(win && bitsAt e 30 8 != 0) && !(comp == 1 && 1 < bitsAt e 7 2)

/-- A cached translation covers a DVA page. -/
def XlatEntry.covers (x : XlatEntry) (p : Nat) : Bool := if x.block then x.page / 8192 == p / 8192 else x.page == p

/-- Entries that a cache holds (R290 gives a tile's). -/
def cacheSize : Nat := 4096

/-- Make a leaf the most recently used entry of an agent's cache; a full cache drops the least recently used
(20_latency_bounds.md R628). -/
def State.cacheLeaf (s : State) (agent : Nat) (x : XlatEntry) : State :=
  let c := ((tget s.xlat.caches agent []).filter (· != x)).take (cacheSize - 1)
  { s with xlat := { s.xlat with caches := tput [] s.xlat.caches agent (x :: c) } }

/-- Read one 8-byte table entry by UPA; a walk holds no read credits (05_steps_and_wings.md R177). -/
def readEntry (who : Who) (dva addr : Nat) : Acc Nat := do
  let bs ← tryCatch (upaRead { who with fed := true } dva addr 8) fun x =>
    match x with
    | .blocked d _ => throw (.blocked d true)
    | e => throw e
  return ofBytes bs

/-- A TRANSLATION_FAULT of a DVA. -/
def xfault {α : Type} (dva : Nat) : Acc α := throw (.status stTranslationFault (pageDetail dva))

/-- Walk the three levels for the leaf that maps a DVA. -/
def walk (who : Who) (dva : Nat) : Acc XlatEntry := do
  let s ← get
  let root := s.reg Reg.mmuRootLoRootLo <<< 9 + s.reg Reg.mmuRootHiRootHi <<< 32
  let e1 ← readEntry who dva (root + 8 * bitsAt dva 42 6)
  if !bitAt e1 0 || bitsAt e1 1 15 != 0 || bitsAt e1 38 26 != 0 then xfault dva
  else
    let e2 ← readEntry who dva (bitsAt e1 16 22 * 65536 + 8 * bitsAt dva 29 13)
    if !bitAt e2 0 then xfault dva
    else if bitAt e2 1 then
      if leafOk true e2 then return { page := dva / 2 ^ 29 * 8192, entry := BitVec.ofNat 64 e2, block := true }
      else xfault dva
    else if bitsAt e2 1 15 != 0 || bitsAt e2 38 26 != 0 then xfault dva
    else
      let e3 ← readEntry who dva (bitsAt e2 16 22 * 65536 + 8 * bitsAt dva 16 13)
      if bitAt e3 0 && leafOk false e3 then
        return { page := dva / 65536, entry := BitVec.ofNat 64 e3, block := false }
      else xfault dva

/-- The leaf that maps a DVA, from the agent's cache or a walk. -/
def leafOf (who : Who) (dva : Nat) : Acc XlatEntry := do
  let s ← get
  match (tget s.xlat.caches who.agent []).find? fun x => x.covers (dva / 65536) with
  | some x =>
    modify fun s => s.cacheLeaf who.agent x
    return x
  | none =>
    let x ← walk who dva
    modify fun s => s.cacheLeaf who.agent x
    return x

/-- Where a DVA leads. -/
inductive Target where
  | window (off : Nat)
  | upa (addr : Nat)
  /-- A compressed page: rate, format, UPA of its part, byte offset in the DVA page. -/
  | packed (comp : Nat) (fmt : Fmt) (base off : Nat)
  deriving DecidableEq, Repr

/-- Translate a DVA that is not a Pantry DVA; an access through an entry that does not allow it fails (R288). -/
def translate (who : Who) (dva : Nat) (write : Bool) : Acc Target := do
  let x ← leafOf who dva
  let e := x.entry.toNat
  if write && !bitAt e 2 then xfault dva
  else if x.block then return .upa (bitsAt e 29 9 * 2 ^ 29 + dva % 2 ^ 29)
  else if bitAt e 3 then return .window (bitsAt e 16 14 * 65536 + dva % 65536)
  else
    let comp := bitsAt e 4 2
    if comp = 0 then return .upa (bitsAt e 16 22 * 65536 + dva % 65536)
    else
      let part := if comp = 1 then 32768 else 16384
      return .packed comp (if bitAt e 6 then .fp16 else .bf16) (bitsAt e 16 22 * 65536 + part * bitsAt e 7 2)
        (dva % 65536)

/-! ### Window entries -/

/-- Read window bytes through a DVA entry: excluded pages fail (03_front_door.md R95, 04_rings_and_doorbells.md R152). -/
def winReadDva (dva off n : Nat) : Acc (List Byte) := do
  let s ← get
  if winExcluded off then throw (.status stWindowExcluded (pageDetail dva))
  else
    if (s.winFails off n).isEmpty then return s.winRead off n
    else
      set (s.winReport off n)
      throw (.status stUncorrectable (pageDetail dva))

/-- Write window bytes through a DVA entry. -/
def winWriteDva (dva off : Nat) (bs : List Byte) : Acc Unit := do
  let s ← get
  if winExcluded off then throw (.status stWindowExcluded (pageDetail dva))
  else
    let part := (s.winBad off bs.length).filter fun u => !coversUnit off bs.length u
    if part.isEmpty then set (s.winWrite off bs)
    else
      set (s.reportKeys (part.map s.winKey))
      throw (.status stUncorrectable (pageDetail dva))

/-! ### Locations

A location's key: a UPA; 2^40 + a window offset; 2^41 + tile × 2^24 + a Pantry offset. -/

/-- What a write overwrote: location keys and previous bytes (none: of a unit that was uncorrectable). -/
abbrev Undo := List (Nat × Option Byte)

/-- Key of a window byte. -/
def winLoc (off : Nat) : Nat := 2 ^ 40 + off

/-- Key of a Pantry byte. -/
def pantryLoc (tile off : Nat) : Nat := 2 ^ 41 + tile * 2 ^ 24 + off

/-! ### Device virtual addresses -/

/-- A DVA of the Pantry (R199). -/
def isPantry (dva : Nat) : Bool := bitsAt dva 42 6 == 63

/-- First byte of a tile's Pantry above the operands: the spill contexts (R180). -/
def spillBase : Nat := 0xBB0000

/-- A Pantry access may start here: the agent has a Pantry, and the DVA lies below the spill contexts (R658). -/
def pantryStarts (who : Who) (dva : Nat) : Bool :=
  decide (who.agent < 16) && bitsAt dva 24 18 == 0 && decide (dva % 2 ^ 24 < spillBase)

/-- A Pantry access lies where R658 allows it. -/
def pantryOk (who : Who) (dva n : Nat) : Bool := pantryStarts who dva && decide (dva % 2 ^ 24 + n ≤ spillBase)

/-- The page at which a Pantry access leaves what R658 allows. -/
def pantryLeaves (who : Who) (dva : Nat) : Nat :=
  if pantryStarts who dva then dva - dva % 2 ^ 24 + spillBase else dva

/-- Cut a range at 64 KiB page ends: the pieces' DVA and length. -/
def pieces (dva n : Nat) : Nat → List (Nat × Nat)
  | 0 => []
  | fuel + 1 =>
    let m := 65536 - dva % 65536
    if n = 0 then [] else if n ≤ m then [(dva, n)] else (dva, m) :: pieces ((dva + m) % 2 ^ 48) (n - m) fuel

/-- Read a range of a compressed page from its decoded blocks (R298). -/
def packedRead (who : Who) (dva comp : Nat) (fmt : Fmt) (base off n : Nat) : Acc (List Byte) := do
  let size := if comp = 1 then 128 else 64
  let bs ← (unitsIn 256 off n).mapM fun b => do
    let st ← upaRead who dva (base + b / 256 * size) size
    return expandBlock comp fmt st
  return (bs.flatten.drop (off % 256)).take n

/-- The window slices and frames that window bytes lie in. -/
def State.winPages (s : State) (off n : Nat) : List (Nat × Nat) :=
  (unitsIn 64 off n).foldl (fun l u =>
    let k := s.winKey u
    let p := (keySpace k, keyOff k / 65536)
    if l.contains p then l else l ++ [p]) []

/-- Note the locations that a tile's share reads (05_steps_and_wings.md R160). -/
def State.logRead (s : State) (who : Who) (k n : Nat) : State :=
  if who.agent < 16 && !who.quiet then { s with wk := { s.wk with readLog := (k, n) :: s.wk.readLog } } else s

/-- Read within one 64 KiB page; a Pantry DVA that an access runs into from below is never walked (R199, R658). -/
def rdPiece (who : Who) (dva n : Nat) : Acc (List Byte) := do
  if isPantry dva then xfault dva
  else match ← translate who dva false with
  | .window off =>
    modify fun s => (s.countUnits who dva (unitsIn 64 off n).length (s.winPages off n)).logRead who (winLoc off) n
    winReadDva dva off n
  | .upa addr =>
    modify fun s => s.logRead who addr n
    upaRead who dva addr n
  | .packed c f base off =>
    let size := if c = 1 then 128 else 64
    modify fun s => s.logRead who (base + off / 256 * size) (cdiv (off % 256 + n) 256 * size)
    packedRead who dva c f base off n

/-- Read `n` bytes at a DVA. -/
def rd (who : Who) (dva n : Nat) : Acc (List Byte) := do
  if n = 0 then return []
  else if isPantry dva then
    if pantryOk who dva n then do
      modify fun s => s.logRead who (pantryLoc who.agent (dva % 2 ^ 24)) n
      mediaRead (pageDetail dva) (pantrySpace who.agent) (dva % 2 ^ 24) n
    else xfault (pantryLeaves who dva)
  else
    let l ← (pieces dva n (n / 65536 + 2)).mapM fun p => rdPiece who p.1 p.2
    return l.flatten

/-- Read `n` bytes as a little-endian number. -/
def rdNat (who : Who) (dva n : Nat) : Acc Nat := do
  let bs ← rd who dva n
  return ofBytes bs

/-! ### Writes, with what they overwrite -/

/-- Tile and offset of a Pantry location. -/
def pantryAt (k : Nat) : Nat × Nat := ((k - 2 ^ 41) / 2 ^ 24, (k - 2 ^ 41) % 2 ^ 24)

/-- A location as it stands; none: its unit is uncorrectable. -/
def State.locPeek (s : State) (k : Nat) : Option Byte :=
  if k < 2 ^ 40 then s.upaPeek k
  else if k < 2 ^ 41 then (if (s.winFails (k - 2 ^ 40) 1).isEmpty then some (s.winByte (k - 2 ^ 40)) else none)
  else s.mediaByte (pantrySpace (pantryAt k).1) (pantryAt k).2

/-- Put a byte back into a location. -/
def State.locPut (s : State) (k : Nat) (b : Byte) : State :=
  if k < 2 ^ 40 then s.upaPut whoBridge 0 k [b]
  else if k < 2 ^ 41 then s.winPut (k - 2 ^ 40) [b]
  else s.mediaPut (pantrySpace (pantryAt k).1) (pantryAt k).2 [b]

/-- A location's unit is uncorrectable again, where it is stored here (R300: it was never written as data). -/
def State.locBad (s : State) (k : Nat) : State :=
  if k < 2 ^ 40 then
    match s.pageView (k / 65536) with
    | .resident h f => s.markBad h ((f * 65536 + k % 65536) / 64 * 64)
    | _ => s
  else if k < 2 ^ 41 then
    let w := s.winKey (k - 2 ^ 40)
    s.markBad (keySpace w) (keyOff w / 64 * 64)
  else s.markBad (pantrySpace (pantryAt k).1) ((pantryAt k).2 / 8 * 8)

/-- Locations `[k, k + n)` and what they hold. -/
def State.undoOf (s : State) (k n : Nat) : Undo := (List.range n).map fun i => (k + i, s.locPeek (k + i))

/-- Put back what was overwritten. -/
def State.restore (s : State) (u : Undo) : State :=
  s.each u fun s p =>
    match p.2 with
    | some b => s.locPut p.1 b
    | none => s.locBad p.1

/-- A stored block with the sub-blocks that bytes `[at_, at_ + n)` touch coded anew from `block`; exponents and fields of
the others stand (R296 codes each sub-block by itself). -/
def spliceBlock (away : Bool) (comp : Nat) (fmt : Fmt) (stored block : List Byte) (at_ n : Nat) : List Byte :=
  let old := ofBytes stored
  let new := ofBytes (compressBlock away comp fmt block)
  let w := (compRate comp).1
  let k := at_ / 32
  let m := cdiv (at_ + n) 32 - k
  let x := putBits old (8 * k) (8 * m) (bitsAt new (8 * k) (8 * m))
  toBytes stored.length (putBits x (64 + 16 * w * k) (16 * w * m) (bitsAt new (64 + 16 * w * k) (16 * w * m)))

/-- Write a part of one block of a compressed page: its sub-blocks are coded from the elements that the step has written to
them, not from what an earlier part of the step was coded to (R297). -/
def packedPart (who : Who) (dva comp : Nat) (fmt : Fmt) (base blk at_ : Nat) (bs : List Byte) : Acc Undo := do
  let size := if comp = 1 then 128 else 64
  let addr := base + blk * size
  let s ← get
  let u := s.undoOf addr size
  let st ← upaRead { who with quiet := true, fed := true } dva addr size
  let exact := tget s.wk.exact who.key []
  let old := (expandBlock comp fmt st).zipIdx.map fun (b, i) => (tfind exact (4 * addr + i)).getD b
  let exact := bs.zipIdx.foldl (fun (m : Tbl Byte) (b, i) => tset m (4 * addr + at_ + i) b) exact
  upaWrite who dva addr (spliceBlock who.away comp fmt st (overlay old at_ bs) at_ bs.length)
  modify fun s => { s with wk := { s.wk with exact := tput [] s.wk.exact who.key exact } }
  return u

/-- Write a range of a compressed page: whole aligned 256-byte blocks only (R298), but for the parts of a row that is a
whole number of blocks. -/
def packedWrite (who : Who) (dva comp : Nat) (fmt : Fmt) (base off : Nat) (bs : List Byte) : Acc Undo := do
  let size := if comp = 1 then 128 else 64
  if off % 256 != 0 || bs.length % 256 != 0 then
    if who.partOk then
      let us ← (unitsIn 256 off bs.length).mapM fun b => do
        let lo := max b off
        let hi := min (b + 256) (off + bs.length)
        packedPart who dva comp fmt base (b / 256) (lo - b) ((bs.drop (lo - off)).take (hi - lo))
      return us.flatten
    else throw (.status stCompressedPartial 0)
  else
    let us ← (unitsIn 256 off bs.length).mapM fun b => do
      let addr := base + b / 256 * size
      let u := (← get).undoOf addr size
      upaWrite who dva addr (compressBlock who.away comp fmt ((bs.drop (b - off)).take 256))
      return u
    return us.flatten

/-- Write within one 64 KiB page. -/
def wrPiece (who : Who) (dva : Nat) (bs : List Byte) : Acc Undo := do
  if isPantry dva then xfault dva
  else match ← translate who dva true with
  | .window off =>
    let u := (← get).undoOf (winLoc off) bs.length
    winWriteDva dva off bs
    return u
  | .upa addr =>
    let u := (← get).undoOf addr bs.length
    upaWrite who dva addr bs
    return u
  | .packed c f base off => packedWrite who dva c f base off bs

/-- Write the pieces of a range in order; where one fails, those before it are as they were. -/
def wrPieces (who : Who) : List (Nat × Nat) → List Byte → Acc Undo
  | [], _ => return []
  | (d, n) :: r, bs => do
    let u ← wrPiece who d (bs.take n)
    let v ← tryCatch (wrPieces who r (bs.drop n)) fun x => do
      modify fun s => s.restore u
      throw x
    return u ++ v

/-- Write bytes at a DVA; answers what was overwritten. -/
def wr (who : Who) (dva : Nat) (bs : List Byte) : Acc Undo := do
  if isPantry dva then
    if pantryOk who dva bs.length then
      let o := dva % 2 ^ 24
      let u := (← get).undoOf (pantryLoc who.agent o) bs.length
      mediaCheck (pageDetail dva) (pantrySpace who.agent) o bs.length
      modify fun s => s.mediaPut (pantrySpace who.agent) o bs
      return u
    else xfault (pantryLeaves who dva)
  else wrPieces who (pieces dva bs.length (bs.length / 65536 + 2)) bs

/-! ### Running an access -/

/-- A held access has no effect yet, but for the requests it has sent to other devices and the pages that its first write
has put into ZEROING. -/
def State.blockedFrom (s t : State) : State :=
  let z := t.deed.entries.filter fun e => dState e.2.toNat == 4 && dState (s.deedOf e.1) != 4
  let s := { s with pw := t.pw }
  s.each z fun s e => s.setDeed e.1 e.2.toNat

/-- Run an access on a state. -/
def runAcc {α : Type} (s : State) (x : Acc α) : State × Except AFail α :=
  match StateT.run (ExceptT.run x) s with
  | (.ok a, t) => (t, .ok a)
  | (.error (.blocked d w), t) => (s.blockedFrom t, .error (.blocked d w))
  | (.error e, t) => (t, .error e)

/-- Run an access whose failure the caller answers with a status; a held access answers none. -/
def accStatus {α : Type} (r : Except AFail α) : Option (Byte × BitVec 32) :=
  match r with
  | .ok _ => some (stOk, 0)
  | .error (.status c d) => some (c, d)
  | .error (.blocked _ _) => none

end Sys2Proof.Machine
end

