-- ==== Sys2Proof/Machine/Work.lean ====
section
/-! DEFINITION. Completion records, wings, and the scheduling of step lists: how a list starts, stops, resumes and ends
(02_the_tick.md R47, R62 to R71; 04_rings_and_doorbells.md R122 to R124, R139 to R147; 05_steps_and_wings.md R164 to R190). -/

namespace Sys2Proof.Machine

/-! ### Rings -/

/-- A submission ring. -/
def State.sqSt (s : State) (n : Nat) : SqSt := tget s.rg.sq n {}

/-- Store it. -/
def State.setSq (s : State) (n : Nat) (x : SqSt) : State := { s with rg := { s.rg with sq := tput {} s.rg.sq n x } }

/-- A completion ring. -/
def State.cqSt (s : State) (n : Nat) : CqSt := tget s.rg.cq n {}

/-- Store it. -/
def State.setCq (s : State) (n : Nat) (x : CqSt) : State := { s with rg := { s.rg with cq := tput {} s.rg.cq n x } }

/-- Slots of a completion ring (R114). -/
def State.cqSlots (s : State) (n : Nat) : Nat := 2 ^ s.reg (Reg.rgCqCfgLog2Entries.ix n)

/-- The completion ring is enabled. -/
def State.cqOn (s : State) (n : Nat) : Bool := s.flag (Reg.rgCqCfgEnable.ix n)

/-- Records that wait for room in a completion ring (R140). -/
def State.owes (s : State) (n : Nat) : Nat := (s.rg.owed.filter fun o => o.sq.isNone && o.cq == n).length

/-- The completion ring can take one more record (R139). -/
def State.cqSpace (s : State) (n : Nat) : Bool :=
  let c := s.cqSt n
  s.cqOn n && (c.tail - c.head).toNat + c.reserved + s.owes n < s.cqSlots n

/-- Reserve one record (R139). -/
def State.reserve (s : State) (n : Nat) : State := s.setCq n { s.cqSt n with reserved := (s.cqSt n).reserved + 1 }

/-- Give a reservation back. -/
def State.release (s : State) (n : Nat) : State := s.setCq n { s.cqSt n with reserved := (s.cqSt n).reserved - 1 }

/-! ### Completion records (R142, R143, R147) -/

/-- The 32 bytes of a completion record, with PHASE for a completion-ring index. -/
def recordBits (sq : Nat) (index : Nat) (phase : Nat) (status : Byte) (detail : BitVec 32) (tag tick : BitVec 64)
    (steps runUs : Nat) : Nat :=
  index % 65536 + (sq % 64) <<< 16 + (phase % 2) <<< 22 + status.toNat <<< 24 + detail.toNat <<< 32
    + tag.toNat <<< 64 + tick.toNat <<< 128 + (steps % 2 ^ 32) <<< 192 + (min runUs (2 ^ 32 - 1)) <<< 224

/-- PHASE of an index: 1 on the first lap (R142). -/
def phaseOf (index slots : Nat) : Nat := 1 - index / slots % 2

/-- A record has been written: an enabled ring counts it and may start to notify (R147, R148). -/
def State.recordArrived (s : State) (n : Nat) (urgent : Bool) : State :=
  if !s.cqOn n then s
  else
  let c := s.cqSt n
  let coal := c.coal + 1
  let first := match c.coalFirst with
    | some x => some x
    | none => some s.now
  let now := urgent || max 1 (s.reg (Reg.rgCqCfgCoalCount.ix n)) ≤ coal || s.reg (Reg.rgCqCfgCoalUs.ix n) == 0
  s.setCq n { c with coal := coal, coalFirst := first, notifying := c.notifying || now }

/-- Write a record at the tail of a completion ring, as one sector of the window. -/
def State.writeRecord (s : State) (n : Nat) (bits : Nat → Nat) (urgent : Bool) : State :=
  let c := s.cqSt n
  let slots := s.cqSlots n
  let off := s.reg (Reg.rgCqBaseBase.ix n) <<< 11 + c.tail.toNat % slots * 32
  let s := s.winWrite off (toBytes 32 (bits (phaseOf c.tail.toNat slots)))
  (s.setCq n { s.cqSt n with tail := c.tail + 1 }).recordArrived n urgent

/-- A record that has no room yet waits behind those that wait already (R140). -/
def State.owe (s : State) (n : Nat) (sq : Option Nat) (bits : Nat → Nat) (urgent : Bool) : State :=
  let o : Owed := { cq := n, sq := sq, bits := BitVec.ofNat 256 (bits 0), urgent := urgent }
  { s with rg := { s.rg with owed := s.rg.owed ++ [o] } }

/-- A record goes to its completion ring: no slot that the host has not freed is overwritten, and records stay in the order
in which the work completed (R140, R143). -/
def State.putRecord (s : State) (n : Nat) (bits : Nat → Nat) (urgent : Bool) : State :=
  let c := s.cqSt n
  if s.owes n = 0 && (c.tail - c.head).toNat < s.cqSlots n then s.writeRecord n bits urgent
  else s.owe n none bits urgent

/-- A record that waited is written, if its ring has room: one that had to wait has no reservation. A record of a ring's
error CQ goes to the one that the ring names now, and carries the tick in which it is written (R134). -/
def State.payOne (s : State) (o : Owed) : State :=
  let n := match o.sq with
    | some q => s.reg (Reg.rgSqCfgErrCq.ix q)
    | none => o.cq
  let c := s.cqSt n
  if !s.cqOn n || s.cqSlots n ≤ (c.tail - c.head).toNat + c.reserved then s.owe o.cq o.sq (fun _ => o.bits.toNat) o.urgent
  else
    let rec_ := if o.sq.isSome then putBits o.bits.toNat 128 64 s.tick.number.toNat else o.bits.toNat
    s.writeRecord n (fun ph => putBits rec_ 22 1 ph) o.urgent

/-- Records that wait are written, oldest first, as far as there is room. -/
def State.payOwed (s : State) : State :=
  ({ s with rg := { s.rg with owed := [] } }).each s.rg.owed State.payOne

/-- Every record that admitted work has earned is written. -/
def State.paid (s : State) : Bool := s.rg.owed.all fun o => o.sq.isSome

/-- A descriptor, or a run of an arming, completes: its reservation becomes its record, or is released when it is QUIET and
OK (R139, R142). -/
def State.complete (s : State) (t : Ticket) (status : Byte) (detail : BitVec 32 := 0) (steps : Nat := 0)
    (tick : Option (BitVec 64) := none) : State :=
  let s := s.release t.cq
  if t.quiet && status == stOk then s
  else
    s.putRecord t.cq (fun ph => recordBits t.sq t.index.toNat ph status detail t.tag (tick.getD s.tick.number) steps
      ((s.now - t.at_) / 1000)) t.urgent

/-- A record for which nothing is reserved and no room is left waits for room (R124, R140). -/
def State.oweTicket (s : State) (t : Ticket) (status : Byte) : State :=
  s.owe t.cq none (fun ph => recordBits t.sq t.index.toNat ph status 0 t.tag s.tick.number 0 ((s.now - t.at_) / 1000)) t.urgent

/-! ### Wings (05_steps_and_wings.md R164) -/

/-- Mask of a wing of a wing table. -/
def State.wingMask (s : State) (table w : Nat) : Nat :=
  match w with
  | 0 => s.reg (Reg.wgTableLoMaskW0.ix table)
  | 1 => s.reg (Reg.wgTableLoMaskW1.ix table)
  | 2 => s.reg (Reg.wgTableHiMaskW2.ix table)
  | _ => s.reg (Reg.wgTableHiMaskW3.ix table)

/-- Tiles of a wing of the table in force for Tick and Urgent work. -/
def State.tickWing (s : State) (w : Nat) : List Nat := maskBits 16 (s.wingMask (s.reg Reg.wgCurrentTickWt) w)

/-- Tiles of a wing of the table in force in the background phase. -/
def State.bgWing (s : State) (w : Nat) : List Nat := maskBits 16 (s.wingMask (s.reg Reg.wgCurrentBgWt) w)

/-- Two tile sets share a tile. -/
def meets (a b : List Nat) : Bool := a.any fun t => b.contains t

/-! ### Step lists -/

/-- The tiles that a list runs on. -/
def Work.on (w : Work) : List Nat := w.tiles.map fun r => r.tile

/-- Some tile runs a share of the list. -/
def Work.busy (w : Work) : Bool := w.tiles.any fun r => r.busy

/-- The list still has steps to run. -/
def Work.open_ (w : Work) : Bool := w.ending.isNone

/-- Change one tile's progress. -/
def Work.mapTile (w : Work) (t : Nat) (f : TileRun → TileRun) : Work :=
  { w with tiles := w.tiles.map fun r => if r.tile = t then f r else r }

/-- A tile's progress. -/
def Work.run? (w : Work) (t : Nat) : Option TileRun := w.tiles.find? fun r => r.tile == t

/-- Fresh progress on the tiles of a wing. -/
def freshRuns (tiles : List Nat) : List TileRun := tiles.map fun t => { tile := t }

/-- The list of a number. -/
def State.work? (s : State) (id : Nat) : Option Work := s.wk.works.find? fun w => w.id == id

/-- Change a list. -/
def State.mapWork (s : State) (id : Nat) (f : Work → Work) : State :=
  { s with wk := { s.wk with works := s.wk.works.map fun w => if w.id = id then f w else w } }

/-- Change every list. -/
def State.mapWorks (s : State) (f : Work → Work) : State := { s with wk := { s.wk with works := s.wk.works.map f } }

/-- Admit a list: it takes the next number. -/
def State.addWork (s : State) (w : Work) : State :=
  { s with wk := { s.wk with works := s.wk.works ++ [{ w with id := s.wk.nextId }], nextId := s.wk.nextId + 1 } }

/-- A tile runs a share of some list. -/
def State.tileBusy (s : State) (t : Nat) : Bool :=
  s.wk.works.any fun w => w.tiles.any fun r => r.tile == t && r.busy

/-- Tiles on which Urgent work runs. -/
def State.urgentTiles (s : State) : List Nat :=
  (s.wk.works.filter fun w => w.cls == .urgent && w.phase == .running).flatMap Work.on

/-- Tiles that unfinished Tick work of the current tick holds. -/
def State.tickTiles (s : State) : List Nat :=
  (s.wk.works.filter fun w => w.cls == .tick && (w.phase == .running || w.phase == .preempted)).flatMap Work.on

/-- The tile under a rotating test, if its P-tile holds a logical tile (19_fusebox.md R607). -/
def State.testTiles (s : State) : List Nat :=
  match s.fb.test with
  | some x => s.tilesPresent.filter fun t => s.ptile t == x.ptile
  | none => []

/-! ### Stopping (05_steps_and_wings.md R179 to R186) -/

/-- Ask a list's running shares to stop. -/
def Work.askStop (w : Work) : Work := { w with tiles := w.tiles.map fun r => if r.busy then { r with stop := true } else r }

/-- A list is to end with a status: nothing further starts, its running shares stop at their quantum (the first status
stands, R176). -/
def Work.end_ (w : Work) (status : Byte) (detail : BitVec 32 := 0) : Work :=
  match w.ending with
  | some _ => w.askStop
  | none => { w.askStop with ending := some (status, detail) }

/-- Steps from this one on do not start (R176). -/
def Work.bound (w : Work) : Nat :=
  match w.halt with
  | some h => min h.1 w.count
  | none => w.count

/-- The list stops before step `bound`: the first step, in list order, that completes with a status other than OK decides
its status (R161, R176). -/
def Work.fail_ (w : Work) (bound : Nat) (status : Byte) (detail : BitVec 32) : Work :=
  if w.halt.all fun h => bound < h.1 then { w with halt := some (bound, status, detail) } else w

/-- The status with which the list ends now, if it does: no share runs, and it is to stop, or every tile has completed the
steps before its bound. -/
def Work.verdict (w : Work) : Option (Byte × BitVec 32) :=
  if w.busy then none
  else match w.ending with
    | some e => some e
    | none => match w.halt with
      | some h => if !w.tiles.isEmpty && w.tiles.all fun r => h.1 ≤ r.next then some h.2 else none
      | none => none

/-- Put back a free choice of the units that a stopped share had written; bytes that inputs of the step overlap become free
(R160). -/
def State.scatter (s : State) (units : List Undo) (overlap : List Nat) : State :=
  let s := s.each units fun s u =>
    let (k, s) := s.fresh
    if Config.freeBool k then s.restore u else s
  s.each overlap fun s l =>
    let (k, s) := s.fresh
    s.locPut l (Config.freeByte k)

/-- A MIGRATE share that stops leaves the pages it has not reached (08_memory_tiers.md R282). -/
def PlaceJob.cut (p : PlaceJob) (id t : Nat) : PlaceJob :=
  match p.work with
  | some (i, u) => if i = id && u = t then { p with pos := p.count } else p
  | none => p

/-- The context is the list's. -/
def ctxOf (c : Option Spill) (id : Nat) : Bool := c.any fun x => x.work == id

/-- Free the spill context that a list holds on a tile. -/
def State.dropCtx (s : State) (id t : Nat) : State :=
  let ts := s.tileSt t
  s.setTileSt t { ts with bgCtx := if ctxOf ts.bgCtx id then none else ts.bgCtx,
                          tickCtx := if ctxOf ts.tickCtx id then none else ts.tickCtx }

/-- Forget what the share of a list on a tile had under way elsewhere: stream items (10_state_streams.md R349), the pages
that a MIGRATE had not reached (08_memory_tiers.md R282), its context. -/
def State.dropShare (s : State) (id t : Nat) : State :=
  let s := { s with strm := { s.strm with shares := s.strm.shares.filter fun x => !(x.work == id && x.tile == t) } }
  let s := { s with wk := { s.wk with places := s.wk.places.map fun (p : PlaceJob) => p.cut id t } }
  s.dropCtx id t

/-- Every read of a tile is forgotten, and its credits are back (15_resets_and_retention.md R482). -/
def State.creditsBack (s : State) (t : Nat) : State :=
  let s := s.setTileSt t { s.tileSt t with orphans := [] }
  s.mapWorks fun w => w.mapTile t fun r => { r with reads := 0, unissued := 0, pages := [] }

/-- The outstanding reads of a share that is discarded are nobody's until they return (R177, R181). -/
def State.orphan (s : State) (urgent : Bool) (r : TileRun) : State :=
  if r.reads = 0 then s
  else
    let ts := s.tileSt r.tile
    s.setTileSt r.tile { ts with orphans := ts.orphans ++ [{ n := r.reads, urgent := urgent, pages := r.pages }] }

/-- Ranges of locations in which a key lies. -/
def inRanges (l : List (Nat × Nat)) (k : Nat) : Bool := l.any fun r => r.1 ≤ k && k < r.1 + r.2

/-- Locations that a share has written and that some share of its step reads (R160). -/
def Work.overlap (w : Work) (r : TileRun) : List Nat :=
  let reads := (w.touched.filter fun x => x.step == r.next).flatMap fun x => x.reads
  (r.undo.flatMap fun u => u.map fun p => p.1).filter (inRanges reads)

/-- Drop the remote data that an agent's share asked for (18_party_wall.md R581). -/
def State.forgetRemote (s : State) (agent : Nat) : State :=
  let mine := s.pw.asked.filter fun a => a.2 == agent
  let rest := s.pw.asked.filter fun a => a.2 != agent
  let gone := (mine.map fun a => a.1).filter fun u => !(rest.any fun a => a.1 == u)
  { s with pw := { s.pw with asked := rest
                             cache := gone.foldl (fun c u => tclear c (64 * u) 64) s.pw.cache
                             refused := gone.foldl tdel s.pw.refused } }

/-- A share that is dropped or has failed discards its context and leaves its outputs as R160 gives. -/
def State.discardShare (s : State) (id : Nat) (r : TileRun) : State :=
  match s.work? id with
  | none => s
  | some w =>
    let s := s.scatter r.undo (w.overlap r)
    let s := (s.dropShare id r.tile).orphan (w.cls == .urgent) r
    let s := s.forgetRemote r.tile
    s.mapWork id fun w => { (w.mapTile r.tile fun r =>
      { r with busy := false, stop := false, spilled := false, undo := [], out := [], held := none, reads := 0,
               unissued := 0, pages := [], emit := none })
      with blocks := w.blocks.filter fun b => !(b.tile == r.tile && b.step == r.next) }

/-! ### Armings (04_rings_and_doorbells.md R122 to R124) -/

/-- The arming of an event. -/
def State.arming? (s : State) (ev : Nat) : Option Arming := s.rg.armings.find? fun a => a.event == ev

/-- Change the arming of an event. -/
def State.mapArming (s : State) (ev : Nat) (f : Arming → Arming) : State :=
  { s with rg := { s.rg with armings := s.rg.armings.map fun a => if a.event = ev then f a else a } }

/-- Withdraw the arming of an event. -/
def State.dropArming (s : State) (ev : Nat) : State :=
  { s with rg := { s.rg with armings := s.rg.armings.filter fun a => a.event != ev } }

/-- A run of an arming has ended: without REARM the arming ends; with REARM it takes a new reservation if its ring has
room; a DISARM that waited completes (R122, R139). -/
def State.armingRan (s : State) (ev : Nat) : State :=
  match s.arming? ev with
  | none => s
  | some a =>
    match a.disarm with
    | some d => (s.dropArming ev).complete d (a.ends.getD stOk)
    | none =>
      if !a.rearm then s.dropArming ev
      else if s.cqSpace a.ticket.cq then
        (s.reserve a.ticket.cq).mapArming ev fun a => { a with run := none, reserved := true }
      else s.mapArming ev fun a => { a with run := none, reserved := false }

/-- Admit a list as Urgent work on the tiles of its wing in TICK_WT (02_the_tick.md R64). -/
def State.addUrgent (s : State) (wing : Nat) (src : Src) (dva : BitVec 48) (count : Nat) : State :=
  s.addWork { id := 0, cls := .urgent, wing := wing, src := src, dva := dva, count := count, target := 0,
              admTime := s.now, tiles := freshRuns (s.tickWing wing) }

/-- An event occurs (R122, R123; 02_the_tick.md R67). -/
def State.raiseEvent (s : State) (ev : Nat) : State :=
  match s.arming? ev with
  | none => s
  | some a =>
    if a.ends.isSome then s
    else if a.run.isSome || a.disarm.isSome then s.note fcRgEventMissed
    else
      -- an arming without a reservation takes one now, if it can
      let s := if !a.reserved && s.cqSpace a.ticket.cq then
          (s.reserve a.ticket.cq).mapArming ev fun a => { a with reserved := true }
        else s
      if !((s.arming? ev).any fun a => a.reserved) then s.note fcRgEventMissed
      else
        let t := { a.ticket with at_ := s.now }
        if (s.tickWing a.wing).isEmpty then
          ((s.complete t stNoSuchWing).armingRan ev).note fcRgEventMissed
        else
          let s := s.mapArming ev fun a => { a with run := some s.wk.nextId }
          s.addUrgent a.wing (.arming ev t) a.dva a.count

/-- Withdraw every arming with a status: one that runs leaves it to its run's record (R124); the record of a DISARM that
waits for that run follows it, with the same status. DESIGN CHOICE, assumption 28: the record of an arming that holds no
reservation waits until its ring has room. -/
def State.withdrawArmings (s : State) (status : Byte) : State :=
  let s := s.each s.rg.armings fun s a =>
    match a.run, a.disarm with
    | none, none =>
      if a.reserved then s.complete a.ticket status
      else if s.cqSpace a.ticket.cq then (s.reserve a.ticket.cq).complete a.ticket status
      else s.oweTicket a.ticket status
    | none, some d => s.complete d status
    | some _, _ => s
  let left := s.rg.armings.filter fun a => a.run.isSome && a.disarm.isSome
  { s with rg := { s.rg with armings := left.map fun a => { a with ends := some status } } }

/-! ### Ending (R142, R145, R176) -/

/-- Write what the end of a list writes. -/
def State.reportEnd (s : State) (w : Work) (status : Byte) (detail : BitVec 32) : State :=
  match w.src with
  | .ring t => s.complete t status detail w.done
  | .arming ev t => (s.complete t status detail w.done).armingRan ev
  | .chain t seq =>
    let s := s.complete t status seq w.done
    let end_ := fun (c : Chain) => if c.phase = .posted w.id then { c with phase := .ended status } else c
    { s with por := { s.por with chain := s.por.chain.map end_ } }

/-- The first member of a released batch is not parked: its shares run the work of all of them (R189). -/
def State.leadBatches (s : State) : State :=
  let leads := fun (w : Work) => s.wk.batches.any fun b => b.released && b.members.head? == some w.id
  s.mapWorks fun w => if w.phase == .parked && leads w then { w with phase := .waiting } else w

/-- Members of a batch lose a list that ends; an empty batch is gone. -/
def State.leaveBatches (s : State) (id : Nat) : State :=
  let bs := (s.wk.batches.map fun b => { b with members := b.members.filter (· != id) }).filter fun b => !b.members.isEmpty
  ({ s with wk := { s.wk with batches := bs } }).leadBatches

/-- A list ends: stopped shares discard their contexts, emissions that cannot complete are gone, the record is written. -/
def State.endList (s : State) (w : Work) (status : Byte) (detail : BitVec 32) : State :=
  let s := s.each (w.tiles.filter fun r => r.spilled) fun s r => s.discardShare w.id r
  let s := s.each w.on fun s t => s.dropShare w.id t
  let s := { s with att := { s.att with runs := s.att.runs.filter fun r => r.work != w.id } }
  let s := { s with wk := { s.wk with exact := s.wk.exact.filter fun e => e.1 / 65536 != w.id + 1 } }
  let s := { s with wk := { s.wk with works := s.wk.works.filter fun x => x.id != w.id
                                      emissions := s.wk.emissions.filter fun e =>
                                        !(e.work == w.id && e.from_.length < e.need.length) } }
  (s.leaveBatches w.id).reportEnd w status detail

/-- Lists that are to end and have no running share end now, in admission order. -/
def State.reap (s : State) : State :=
  s.each (s.wk.works.filter fun w => w.verdict.isSome) fun s w =>
    match (s.work? w.id).bind fun w => w.verdict.map fun e => (w, e) with
    | some (w, e) => s.endList w e.1 e.2
    | none => s

/-! ### Starting and resuming -/

/-- Tick work whose tick has begun. -/
def State.due (s : State) (w : Work) : Bool := w.cls == .tick && w.target.toNat ≤ s.tick.number.toNat

/-- The list's current step is one of a released batch (R189). -/
def State.inBatch (s : State) (w : Work) : Bool :=
  match w.batch with
  | some b => s.wk.batches.any fun x => x.id == b && x.released
  | none => false

/-- `x` comes before `w` in its wing and class: by admission, and Tick work by its tick first, since carried work runs before
the new tick's (02_the_tick.md R62, R63, R66, R68). -/
def Work.before (x w : Work) : Bool :=
  if w.cls == .tick && x.target != w.target then x.target.toNat < w.target.toNat else x.id < w.id

/-- A list that comes before `w`, of the same wing and class, still stands in its way (R171, R188). -/
def State.ahead (s : State) (w : Work) : Bool :=
  s.wk.works.any fun x =>
    x.before w && x.cls == w.cls && x.wing == w.wing && x.phase != .parked && (w.cls != .tick || s.due x)

/-- A list that comes after `w`, of the same wing and class, already runs (only past parked lists, R188). -/
def State.behindRuns (s : State) (w : Work) : Bool :=
  s.wk.works.any fun x =>
    w.before x && x.cls == w.cls && x.wing == w.wing && (x.phase == .running || x.phase == .preempted)

/-- The tiles that the list is to run on now. -/
def State.layout (s : State) (w : Work) : List Nat :=
  match w.cls with
  | .urgent => w.on
  | .tick => if w.tiles.isEmpty then s.tickWing w.wing else w.on
  | .background => s.bgWing w.wing

/-- A background wing may run on these tiles (02_the_tick.md R63, R65; 05_steps_and_wings.md R184, R185). -/
def State.bgFree (s : State) (w : Work) (tiles : List Nat) : Bool :=
  s.tick.bgStart.isSome && !tiles.isEmpty && (w.tiles.isEmpty || w.on == tiles)
    && !meets tiles s.tickTiles && !meets tiles s.testTiles
    && tiles.all fun t => match (s.tileSt t).bgCtx with
      | some c => match s.work? c.work with
        | some x => x.wing == w.wing
        | none => true
      | none => true

/-- The list may start, or go on, now. -/
def State.mayRun (s : State) (w : Work) : Bool :=
  let tiles := s.layout w
  w.open_ && !tiles.isEmpty && !meets tiles s.urgentTiles &&
    match w.phase, w.cls with
    | .running, _ => false
    | .parked, _ => false
    | .preempted, .background => s.bgFree w tiles
    | .preempted, _ => true
    | _, .urgent => !(s.wk.works.any fun x => x.id < w.id && x.cls == .urgent && meets tiles x.on) && !s.ahead w
    | _, .tick => s.due w && (s.inBatch w || (!s.ahead w && !s.behindRuns w))
    | _, .background => (s.inBatch w || (!s.ahead w && !s.behindRuns w)) && s.bgFree w tiles

/-- Release a batch: it waits to run as one step (R189). -/
def State.releaseBatch (s : State) (id : Nat) : State :=
  let bs := s.wk.batches.map fun b => if b.id = id then { b with released := true } else b
  ({ s with wk := { s.wk with batches := bs } }).leadBatches

/-- Release every open batch that `p` picks. -/
def State.releaseWhere (s : State) (p : Batch → Bool) : State :=
  s.each (s.wk.batches.filter fun b => !b.released && p b) fun s b => s.releaseBatch b.id

/-- The lists of a batch run on some of these tiles. -/
def State.batchOn (s : State) (b : Batch) (tiles : List Nat) : Bool :=
  b.members.any fun m => match s.work? m with
    | some w => meets w.on tiles
    | none => false

/-- Urgent work takes tiles: Tick and Background lists on them are pre-empted at their quantum (02_the_tick.md R64, R65), a
rotating test there is abandoned (19_fusebox.md R608), and the batches of the stopped wings are released (R189). -/
def State.preempt (s : State) (tiles : List Nat) : State :=
  let s := s.releaseWhere fun b => b.cls != .urgent && s.batchOn b tiles
  let s := s.mapWorks fun w =>
    if w.cls != .urgent && w.phase == .running && meets w.on tiles then { w.askStop with phase := .preempted } else w
  if meets tiles s.testTiles then { s with fb := { s.fb with test := none } } else s

/-- The list runs: a stop request that has not taken effect is withdrawn. -/
def State.startList (s : State) (w : Work) : State :=
  let tiles := s.layout w
  let s := if w.cls == .urgent then s.preempt tiles else s
  s.mapWork w.id fun w =>
    let w := if w.tiles.isEmpty then { w with tiles := freshRuns tiles } else w
    { w with phase := .running, tiles := w.tiles.map fun r => { r with stop := false } }

/-- Start or resume every list that may run, in admission order within each class, Urgent work first. -/
def State.promoteN (s : State) : Nat → State
  | 0 => s
  | n + 1 =>
    let order := (s.wk.works.filter fun w => w.cls == .urgent) ++ (s.wk.works.filter fun w => w.cls == .tick)
      ++ (s.wk.works.filter fun w => w.cls == .background)
    match order.find? s.mayRun with
    | some w => (s.startList w).promoteN n
    | none => s

/-- A stopped share resumes as soon as its list runs and its tile is free (R183); its context is restored. -/
def State.resumeShares (s : State) : State :=
  s.each s.wk.works fun s w =>
    if w.phase == .running then
      s.each (w.tiles.filter fun r => r.spilled) fun s r =>
        if s.tileBusy r.tile then s
        else
          (s.dropCtx w.id r.tile).mapWork w.id fun w => w.mapTile r.tile fun r => { r with spilled := false, busy := true }
    else s

/-! ### Batches (R187 to R190) -/

/-- Admitted lists of a class on a wing that can take part in a phase of it. -/
def State.peers (s : State) (wing : Nat) (cls : Cls) : List Work :=
  s.wk.works.filter fun w => w.cls == cls && w.wing == wing && (cls != .tick || s.due w)

/-- A batch whose every peer is parked is released (R189). -/
def State.releaseParked (s : State) : State :=
  s.each (s.wk.batches.filter fun b => !b.released) fun s b =>
    if (s.peers b.wing b.cls).all fun w => w.phase == .parked then s.releaseBatch b.id else s

/-- Everything about step lists that follows at once from a change. -/
def State.schedule (s : State) : State :=
  let s := s.reap.releaseParked
  (s.promoteN (s.wk.works.length + 1)).resumeShares

/-! ### Closing (19_fusebox.md R602; 14_power.md R471; 15_resets_and_retention.md R486; 17_security.md R551) -/

/-- Close admission, withdraw the armings and end every admitted list, and every descriptor that waits for something else,
with a status. -/
def State.stopAll (s : State) (status : Byte) : State :=
  let s := { s with rg := { s.rg with closed := true } }
  let s := s.withdrawArmings status
  let s := s.mapWorks fun w => w.end_ status
  let s := s.each s.wk.wingJobs fun s j => s.complete j.1 status
  let s := s.each s.tick.switches fun s j => s.complete j.ticket status
  let s := s.each s.wk.invals fun s j => s.complete j.ticket status
  let s := s.each s.wk.seqJobs fun s j => s.complete j.1 status
  let s := s.each s.wk.strmJobs fun s j => s.complete j.1 status
  let s := s.each s.wk.perfJobs fun s j => s.complete j.1 status
  let s := s.each (s.wk.places.filterMap fun p => p.ticket) fun s t => s.complete t status
  let left := (s.wk.places.filter fun (p : PlaceJob) => p.ticket.isNone).map fun (p : PlaceJob) => { p with pos := p.count }
  let s := { s with tick := { s.tick with switches := [] } }
  let s := { s with wk := { s.wk with wingJobs := [], invals := [], seqJobs := [], strmJobs := [], perfJobs := [],
                                      places := left } }
  s.reap

/-- No list is left. -/
def State.quiet (s : State) : Bool := s.wk.works.isEmpty

end Sys2Proof.Machine
end

