-- ==== Sys2Proof/Machine/StepCore.lean ====
section
/-! DEFINITION. How a tile starts and ends its share of a step, whatever the kind (05_steps_and_wings.md R157 to R181,
R187 to R189): the header, the checks of R161, the conditions of R167, work items, slabs and hand-offs, and the log of what an
output unit overwrote. -/

namespace Sys2Proof.Machine

/-! ### The header (R159) -/

/-- KIND. -/
def hKind (d : Nat) : Nat := bitsAt d 0 8
/-- ROUND. -/
def hRound (d : Nat) : Nat := bitsAt d 8 2
/-- ORDER. -/
def hOrder (d : Nat) : Bool := bitAt d 10
/-- PIPE. -/
def hPipe (d : Nat) : Bool := bitAt d 11
/-- SLAB_LOG2. -/
def hSlabLog2 (d : Nat) : Nat := bitsAt d 12 4
/-- OUT_SLOTS. -/
def hOutSlots (d : Nat) : Nat := bitsAt d 16 4
/-- BATCH. -/
def hBatch (d : Nat) : Nat := bitsAt d 20 8
/-- WAIT_TOKEN. -/
def hWaitToken (d : Nat) : Nat := bitsAt d 32 10
/-- WAIT_EN. -/
def hWaitEn (d : Nat) : Bool := bitAt d 42
/-- CONSUME. -/
def hConsume (d : Nat) : Bool := bitAt d 43
/-- EMIT_TOKEN. -/
def hEmitToken (d : Nat) : Nat := bitsAt d 44 10
/-- EMIT_EN. -/
def hEmitEn (d : Nat) : Bool := bitAt d 54
/-- The main input operand of every kind that accepts PIPE as consumer lies in bits [111:64]. -/
def hInput (d : Nat) : Nat := bitsAt d 64 48

/-- Kinds that accept PIPE as consumer (R160). -/
def pipeKinds : List Nat := [0x01, 0x02, 0x03, 0x04, 0x07, 0x09, 0x0A, 0x0B]

/-- Every operand bit outside the listed fields (lowest bit, width) is zero. -/
def onlyFields (d : Nat) (fields : List (Nat × Nat)) : Bool :=
  fields.foldl (fun x f => putBits x f.1 f.2 0) (d >>> 64 <<< 64) == 0

/-- Causes 1, 4 and 5 that the header shows (R161); `next` is the next step, if the list has one. -/
def headerCauses (d : Nat) (next : Option Nat) : List Nat :=
  let k := hKind d
  let c1 := if k = 0 || 13 < k || hRound d = 3 || hOutSlots d = 1 || 12 < hSlabLog2 d || bitsAt d 28 4 != 0
      || bitsAt d 55 9 != 0 then [1] else []
  let followed := match next with
    | some n => hOrder n && hPipe n
    | none => false
  let c4 := if (hOutSlots d != 0 && !followed) || (hPipe d && !pipeKinds.contains k) then [4] else []
  let c5 := if hBatch d != 0 && k != 1 then [5] else []
  c1 ++ c4 ++ c5

/-- The lowest-numbered cause. -/
def lowest (l : List Nat) : Option Nat :=
  l.foldl (fun a c => match a with
    | none => some c
    | some b => some (min b c)) none

/-- Causes 2 and 3 of an operand of `n` bytes (R161, R199, R200). -/
def operandCauses (dva n align : Nat) : List Nat :=
  let o := dva % 2 ^ 24 + n
  (if dva % align != 0 then [2] else [])
    ++ (if isPantry dva && (bitsAt dva 24 18 != 0 || 0xC00000 < o) then [2] else [])
    ++ (if isPantry dva && spillBase < o then [3] else [])

/-- Causes of a Pantry offset operand (a work area or line buffer). -/
def workCauses (off n : Nat) : List Nat :=
  (if off % 64 != 0 || 0xC00000 < off + n then [2] else []) ++ (if spillBase < off + n then [3] else [])

/-- Cause 2 when a condition holds. -/
def cause2 (b : Bool) : List Nat := if b then [2] else []

/-! ### What a share knows -/

/-- Where a consumer tile finds the slabs of a hand-off (R170): the slots and the slabs that it reads, in order. -/
structure HandIn where
  base : Nat
  slots : Nat
  bytes : Nat
  slabs : List Nat
  deriving DecidableEq, Repr

/-- What a share knows of its step; `group` names the step whose rounds its bays take together: its own, or that of the list
which leads its batch. -/
structure Ctx where
  who : Who
  tile : Nat
  rank : Nat
  n : Nat
  d : Nat
  away : Bool
  idx : Nat
  work : Nat
  group : Nat
  handIn : Option HandIn
  handOut : Option HandOff
  deriving DecidableEq, Repr

/-- An operand field. -/
def Ctx.f (c : Ctx) (lo w : Nat) : Nat := bitsAt c.d lo w

/-- A one-bit operand field. -/
def Ctx.b (c : Ctx) (lo : Nat) : Bool := bitAt c.d lo

/-- The step hands its output to the next one. -/
def Ctx.hands (c : Ctx) : Bool := hOutSlots c.d != 0

/-- Causes of the main input operand: under a hand-off it holds the slots, else all its bytes. -/
def Ctx.inputCauses (c : Ctx) (n align : Nat) : List Nat :=
  match c.handIn with
  | some h => operandCauses (hInput c.d) (h.slots * h.bytes) align
  | none => operandCauses (hInput c.d) n align

/-- Causes of the output operand (none when it is handed off). -/
def Ctx.outputCauses (c : Ctx) (dva n align : Nat) : List Nat := if c.hands then [] else operandCauses dva n align

/-! ### Input -/

/-- Place of a slab of a hand-off in a consumer tile's slots. -/
def slotAt (slabs : List Nat) (slots k : Nat) : Nat := (slabs.findIdx? fun x => x == k).getD 0 % max 1 slots

/-- Cut bytes `[off, off + n)` of an output at slab ends: slab, offset, length. -/
def slabPieces (bytes off n : Nat) : List (Nat × Nat × Nat) :=
  if n = 0 || bytes = 0 then []
  else (List.range ((off + n - 1) / bytes + 1 - off / bytes)).map fun i =>
    let k := off / bytes + i
    let lo := max off (k * bytes)
    (k, lo, min (off + n) ((k + 1) * bytes) - lo)

/-- Read bytes of a hand-off from the tile's own slots. -/
def HandIn.read (h : HandIn) (who : Who) (off n : Nat) : Acc (List Byte) := do
  let l ← (slabPieces h.bytes off n).mapM fun p =>
    rd who (h.base + slotAt h.slabs h.slots p.1 * h.bytes + p.2.1 % h.bytes) p.2.2
  return l.flatten

/-- Read the main input at a byte offset: from the hand-off slots, or from memory. -/
def Ctx.input (c : Ctx) (off n : Nat) : Acc (List Byte) :=
  match c.handIn with
  | some h => h.read c.who off n
  | none => rd c.who (hInput c.d + off) n

/-! ### Output -/

/-- Note what the output unit under way has overwritten, newest first (R160). -/
def addUndo (u : Undo) : Acc Unit := modify fun s => { s with wk := { s.wk with undoCur := u ++ s.wk.undoCur } }

/-- The output unit under way is complete, within a work item of several (R160). -/
def logUnit : Acc Unit :=
  modify fun s => { s with wk := { s.wk with undoLog := s.wk.undoLog ++ [s.wk.undoCur], undoCur := [] } }

/-- What output bytes come to for the consumer tiles of a hand-off: pieces that wait for their slots (R170). -/
def HandOff.pieces (h : HandOff) (off : Nat) (bs : List Byte) : List OutPiece :=
  (slabPieces h.bytes off bs.length).flatMap fun p =>
    (h.tiles.filter fun x => x.slabs.contains p.1).map fun x =>
      { tile := x.tile, off := p.2.1, bytes := (bs.drop (p.2.1 - off)).take p.2.2 }

/-- Write output bytes at a byte offset of the output operand `base`: to memory, or towards the consumer tiles. -/
def Ctx.output (c : Ctx) (base off : Nat) (bs : List Byte) : Acc Unit :=
  match c.handOut with
  | some h => modify fun s => s.mapWork c.work fun w => w.mapTile c.tile fun r => { r with out := r.out ++ h.pieces off bs }
  | none => do
    let u ← wr c.who (base + off) bs
    addUndo u

/-- Previous contents of an output, for an addition to it (ACCUM): not an input that the output overlaps. -/
def Ctx.previous (c : Ctx) (base off n : Nat) : Acc (List Byte) :=
  match c.handOut with
  | some _ => return List.replicate n 0
  | none => rd { c.who with quiet := true } (base + off) n

/-! ### Work items (R158, R169) -/

/-- Run an action for each element of a list. -/
def forEach {α : Type} (l : List α) (f : α → Acc Unit) : Acc Unit :=
  match l with
  | [] => return ()
  | x :: r => do
    f x
    forEach r f

/-- Work items 0 to `count` − 1, each dealt to a rank. -/
def itemsOf (count : Nat) (f : Nat → PlanItem) : List PlanItem := (List.range count).map f

/-- How a kind divides a step: its output operand, the pitch of its rows, and its work items in order, with their ranks. -/
structure Division where
  base : Nat
  pitch : Nat
  items : List PlanItem
  deriving DecidableEq, Repr

/-- A division of a step whose output has no rows that another step could consume. -/
def Division.plain (items : List PlanItem) : Division := { base := 0, pitch := 0, items := items }

/-- What a kind of step does: its checks, its division, what its share on a tile does before its first item, one item,
whether an item can run now, and what it reads, where that depends on data. -/
structure Kind where
  check : Ctx → Acc (List Nat)
  plan : Ctx → Acc Division
  begins : Ctx → Acc Unit := fun _ => pure ()
  run : Ctx → PlanItem → Acc Unit
  ready : State → Ctx → PlanItem → Bool := fun _ _ _ => true
  reads : State → Ctx → PlanItem → PlanItem := fun _ _ x => x
  bays : Bool := false

/-- Slabs that a range of rows touches: first and last. -/
def slabSpan (slab lo hi : Nat) : Nat × Nat := (lo / max 1 slab, (hi - 1) / max 1 slab)

/-- Two spans have a slab in common. -/
def spansMeet (a b : Nat × Nat) : Bool := a.1 ≤ b.2 && b.1 ≤ a.2

/-- Slabs of the output of a step that bytes `[dva, dva + n)` read: first and last. -/
def StepPlan.span (p : StepPlan) (dva n : Nat) : Option (Nat × Nat) :=
  if n = 0 || dva + n ≤ p.base || p.pitch = 0 then none
  else some (slabSpan p.slab ((dva - p.base) / p.pitch) ((dva + n - 1 - p.base) / p.pitch + 1))

/-- Every work item that writes a row of these slabs has run: the slabs are complete (R169; 06_tile_arithmetic.md R212). -/
def StepPlan.complete (p : StepPlan) (sp : Nat × Nat) : Bool :=
  !(p.items.any fun x => x.lo < x.hi && spansMeet (slabSpan p.slab x.lo x.hi) sp)

/-- The division of a step of the list. -/
def Work.plan? (w : Work) (i : Nat) : Option StepPlan := w.plans.find? fun p => p.step == i

/-- The hand-off of a step's output. -/
def Work.hand? (w : Work) (i : Nat) : Option HandOff := w.hands.find? fun h => h.step == i

/-- A consumer tile's part of a hand-off. -/
def HandOff.tile? (h : HandOff) (t : Nat) : Option HandTile := h.tiles.find? fun x => x.tile == t

/-- No bytes of these slabs wait for a slot of tile `t`. -/
def Work.delivered (w : Work) (h : HandOff) (t : Nat) (sp : Nat × Nat) : Bool :=
  !(w.tiles.any fun r => r.out.any fun o => o.tile == t && spansMeet (o.off / max 1 h.bytes, o.off / max 1 h.bytes) sp)

/-- The tile holds the tokens of every slab of the previous step that an item reads (R169, R170). -/
def Work.fedFor (w : Work) (t i d : Nat) (x : PlanItem) : Bool :=
  if i = 0 || !hOrder d || !hPipe d then true
  else match w.plan? (i - 1) with
    | none => true
    | some p =>
      match w.hand? (i - 1) with
      | some h => x.needs.all fun r =>
          r.2 == 0 || (let sp := (r.1 / max 1 h.bytes, (r.1 + r.2 - 1) / max 1 h.bytes)
            p.complete sp && w.delivered h t sp)
      | none => ((x.needs.map fun r => (hInput d + r.1, r.2)) ++ x.extra).all fun r => (p.span r.1 r.2).all p.complete

/-- A rank's work items of a step that have not run. -/
def Work.left (w : Work) (i rank : Nat) : List PlanItem :=
  match w.plan? i with
  | some p => p.items.filter fun x => x.rank == rank
  | none => []

/-- A work item has run. -/
def Work.itemRan (w : Work) (i : Nat) (x : PlanItem) : Work :=
  { w with plans := w.plans.map fun p => if p.step = i then { p with items := p.items.erase x } else p }

/-- Rank of a tile in the list's wing. -/
def Work.rankOf (w : Work) (t : Nat) : Nat := (w.on.findIdx? fun x => x == t).getD 0

/-! ### Starting a share -/

/-- The list, and its progress, whose next step the tile would start: Urgent before Tick before Background, then the order
of admission (R167, R183). -/
def State.current (s : State) (t : Nat) : Option (Work × TileRun) :=
  let pick := fun (c : Cls) => (s.wk.works.filter fun w => w.cls == c && w.phase == .running && w.open_).findSome? fun w =>
    match w.run? t with
    | some r => if r.next < w.bound && !r.busy && !r.spilled then some (w, r) else none
    | none => none
  match pick .urgent with
  | some x => some x
  | none => match pick .tick with
    | some x => some x
    | none => pick .background

/-- The tile can start something: it runs nothing, is not in a TLR and not under test. -/
def State.tileFree (s : State) (t : Nat) : Bool :=
  s.present t && !s.tileBusy t && !(s.rst.tlr.any fun x => x.1 == t) && !s.testTiles.contains t

/-- The tile is fenced as a whole (06_tile_arithmetic.md R225; 19_fusebox.md R611, R619). -/
def State.fenced (s : State) (t : Nat) : Bool := s.fb.tilesOut.contains (s.ptile t)

/-- Bays of a tile that are fenced. -/
def State.fencedBays (s : State) (t : Nat) : Nat := s.reg (Reg.tlMapBayFenced.ix t)

/-- The rounding mode of a step (07_formats_and_scaling.md R244). -/
def State.stepAway (s : State) (d : Nat) : Bool := hRound d == 2 || (hRound d == 0 && s.flag Reg.tlArithRound)

/-- Every other tile has got far enough for step `i` to start (R167, second and third conditions; under PIPE the second is
a matter of slabs). -/
def Work.ready (w : Work) (i d : Nat) : Bool :=
  w.tiles.all (fun r => i ≤ r.next + 1) && (i == 0 || !hOrder d || hPipe d || w.tiles.all fun r => i ≤ r.next)

/-- The list stops before step `i` once every tile has completed what comes before it (R161, R176). -/
def State.stopBefore (s s0 : State) (w : Work) (i : Nat) (status : Byte) (detail : BitVec 32) : State :=
  if w.tiles.all fun r => i ≤ r.next then s.mapWork w.id fun w => w.fail_ i status detail else s0

/-- DETAIL of a BAD_STEP (R161). -/
def badDetail (i cause : Nat) : BitVec 32 := BitVec.ofNat 32 (i % 65536 + cause <<< 16)

/-- What the share knows, from the list's state. -/
def State.mkCtx (s : State) (w : Work) (t i d : Nat) : Ctx :=
  let away := s.stepAway d
  { who := { agent := t, away := away, key := stepKey w.id i }
    tile := t
    rank := w.rankOf t
    n := w.tiles.length
    d := d
    away := away
    idx := i
    work := w.id
    group := stepKey w.id i
    handIn := if i = 0 then none else (w.hand? (i - 1)).map fun h =>
      { base := h.base.toNat, slots := h.slots, bytes := h.bytes, slabs := ((h.tile? t).map fun x => x.slabs).getD [] }
    handOut := w.hand? i }

/-- The next step's descriptor, when the current one hands its output off. -/
def nextStep (who : Who) (w : Work) (i d : Nat) : Acc (Option Nat) := do
  if hOutSlots d = 0 || w.count ≤ i + 1 then return none
  else
    let x ← rdNat who (w.dva.toNat + 64 * (i + 1)) 64
    return some x

/-- Read a step: its descriptor and, under a hand-off, the next one. -/
def readStep (w : Work) (t i : Nat) : Acc (Nat × Option Nat) := do
  let who : Who := { agent := t, fed := true }
  let d ← rdNat who (w.dva.toNat + 64 * i) 64
  let nx ← nextStep who w i d
  return (d, nx)

/-- A share that completes with a status before it has started. -/
def State.shareRefused (s : State) (id t i : Nat) (status : Byte) (detail : BitVec 32) : State :=
  s.mapWork id fun w => (w.mapTile t fun r => { r with next := i + 1 }).fail_ (i + 1) status detail

/-! ### Running a work item -/

/-- Clear what a work item counts. -/
def State.freshItem (s : State) : State :=
  { s with wk := { s.wk with unitReads := 0, pageLog := [], readLog := [], undoCur := [], undoLog := [] } }

/-- Ascending keys as ranges: first and length. -/
def keyRanges (l : List Nat) : List (Nat × Nat) :=
  l.foldr (fun k r => match r with
    | (a, n) :: q => if a = k + 1 then (k, n + 1) :: q else (k, 1) :: r
    | [] => [(k, 1)]) []

/-- Locations that lie in ranges of both lists. -/
def common (l m : List (Nat × Nat)) : List Nat :=
  l.flatMap fun a => m.flatMap fun b =>
    let lo := max a.1 b.1
    (List.range (min (a.1 + a.2) (b.1 + b.2) - lo)).map fun i => lo + i

/-- What the work item under way has written. -/
def State.writesNow (s : State) : List (Nat × Nat) :=
  (s.wk.undoLog ++ [s.wk.undoCur]).flatMap fun u => keyRanges (u.map fun p => p.1)

/-- What the list's previous or next step has touched, where the later of the two steps lacks ORDER. -/
def Work.unordered (w : Work) (i d : Nat) : List Touch :=
  w.touched.filter fun x => (x.step + 1 == i && !hOrder d) || (x.step == i + 1 && !x.ordered)

/-- Bytes that two steps touch without ORDER are undefined (R168). -/
def State.spoil (s : State) (l : List Nat) : State :=
  s.each l fun s k =>
    let (n, s) := s.fresh
    s.locPut k (Config.freeByte n)

/-- Note what a work item of step `i` touched; the last few steps are remembered. -/
def State.noteTouch (s : State) (id i d : Nat) : State :=
  let t : Touch := { step := i, ordered := hOrder d, reads := s.wk.readLog, writes := s.writesNow }
  s.mapWork id fun w => { w with touched := t :: w.touched.filter fun x => i ≤ x.step + 2 }

/-- A work item's computation, with the bytes undefined that it and another step touch without ORDER (R168): what it reads
of the other's writes before it runs, what it writes of the other's bytes after. -/
def State.computeItem (s : State) (w : Work) (i d : Nat) (x : Acc Unit) : State × Except AFail Unit :=
  let races := w.unordered i d
  let (s1, r1) := runAcc s.freshItem x
  if races.isEmpty then (s1, r1)
  else
    let before := races.flatMap fun y => common s1.wk.readLog y.writes
    let (s2, r2) := if before.isEmpty then (s1, r1) else runAcc (s.spoil before).freshItem x
    (s2.spoil (races.flatMap fun y => common s2.writesNow (y.reads ++ y.writes)), r2)

/-- A work item's reads, issued or waiting for a credit, are those of the share of list `id` on tile `t`; what it has
overwritten is noted for the list `own` whose item it is, the same unless they run as a batch (R160, R177). -/
def State.bookItem (s : State) (id own t : Nat) : State :=
  let undo := (s.wk.undoLog ++ [s.wk.undoCur]).filter fun u => !u.isEmpty
  let (n, pages) := (s.wk.unitReads, s.wk.pageLog)
  let free := s.creditsFree t ((s.work? id).any fun w => w.cls == .urgent)
  let s := s.mapWork id fun w => w.mapTile t fun r =>
    { r with held := none, reads := r.reads + min n free, unissued := r.unissued + (n - free),
             pages := r.pages ++ pages.filter fun p => !r.pages.contains p }
  (s.mapWork own fun w => w.mapTile t fun r => { r with undo := r.undo ++ undo }).freshItem

/-- A share fails: the first status stands. -/
def State.markShare (s : State) (id t : Nat) (status : Byte) (detail : BitVec 32) : State :=
  s.mapWork id fun w => w.mapTile t fun r => if r.status == stOk then { r with status := status, detail := detail } else r

/-- Run a work item of the share of list `id` on tile `t`: of step `i` of list `w`, which is the list itself or one of its
batch. An item that fails leaves its output unit as it was (R160), and the share fails; one that is held has no effect yet.
Also: whether the item has run. -/
def State.runItem (s : State) (id t : Nat) (w : Work) (i d : Nat) (x : PlanItem) (f : Acc Unit) : State × Bool :=
  match s.computeItem w i d f with
  | (s, .ok _) => (((s.noteTouch w.id i d).bookItem id w.id t).mapWork w.id fun w => w.itemRan i x, true)
  | (s, .error (.status st dt)) =>
    let s := s.restore s.wk.undoCur
    let s := { s with wk := { s.wk with undoCur := [] } }
    (((s.noteTouch w.id i d).bookItem id w.id t).markShare id t st dt, true)
  | (s, .error (.blocked dva wk)) =>
    (s.freshItem.mapWork id fun w => w.mapTile t fun r => { r with held := some (dva, wk) }, false)

end Sys2Proof.Machine
end

