-- ==== Sys2Proof/Machine/Bays.lean ====
section
/-! DEFINITION. The arithmetic of the bays: MATMUL and CONV (06_tile_arithmetic.md R194 to R214, R221 to R225;
07_formats_and_scaling.md R234 to R241; 11_vision_operators.md R358 to R367). -/

namespace Sys2Proof.Machine

/-! ### Group-scaled accumulation (R203 to R205, R236 to R238) -/

/-- The integer that a value is (values of integer formats). -/
def Fp.toInt : Fp → Int
  | .fin n m e => roundInt false n m e
  | _ => 0

/-- Cut a list into runs of `n`. -/
def chunks {α : Type} (n : Nat) (l : List α) : Nat → List (List α)
  | 0 => []
  | fuel + 1 => if l.isEmpty then [] else l.take n :: chunks n (l.drop n) fuel

/-- Products that a lane sums exactly in one cycle (R196, R237), by the width of the wider operand. -/
def perCycle (bits : Nat) : Nat := if bits ≤ 2 then 4 else if bits ≤ 4 then 2 else 1

/-- Add products to a group accumulator, a cycle at a time: exact within the cycle, one rounding each. -/
def accumulate (away : Bool) (g : Fp) (cycles : List (List Fp)) : Fp :=
  cycles.foldl (fun g ps => f32add away g (ps.foldl Fp.add Fp.zero)) g

/-- Exact products, rounded only outside FP32's range (R236). -/
def products (away : Bool) (as ws : List Fp) : List Fp := List.zipWith (f32mul away) as ws

/-- The group accumulator of a floating-point pair (R237); the 32-bit class makes four passes of BF16 parts (R197). -/
def groupSum (away : Bool) (af bf : Fmt) (as ws : List Fp) : Fp :=
  if af == .fp32 then
    let ah := as.map fun v => splitHiLo v.bits32
    let wh := ws.map fun v => splitHiLo v.bits32
    let pass := fun (g : Fp) (f k : Fp × Fp → Fp) =>
      accumulate away g ((products away (ah.map f) (wh.map k)).map fun p => [p])
    let g := pass Fp.zero Prod.fst Prod.fst
    let g := pass g Prod.fst Prod.snd
    let g := pass g Prod.snd Prod.fst
    pass g Prod.snd Prod.snd
  else
    let n := perCycle (max af.bits bf.bits)
    let ps := products away as ws
    accumulate away Fp.zero (chunks n ps ps.length)

/-- Fold one group into the main accumulator (R238). -/
def foldGroup (away : Bool) (af bf : Fmt) (main : Fp) (as ws : List Fp) (sa : Fp) (za : Int) (sw : Fp) : Fp :=
  let s := f32mul away sa sw
  if af.isInt then
    let g := (List.zipWith (fun a w => a.toInt * w.toInt) as ws).foldl (· + ·) 0
    let sum := (ws.map Fp.toInt).foldl (· + ·) 0
    f32add away main (f32mul away s (toF32 away (g - za * sum)))
  else f32add away main (f32mul away s (groupSum away af bf as ws))

/-- One output element over a list of groups: activations, weights, activation scale, zero point, weight scale. -/
def foldAll (away : Bool) (af bf : Fmt) (gs : List (List Fp × List Fp × Fp × Int × Fp)) : Fp :=
  gs.foldl (fun m g => foldGroup away af bf m g.1 g.2.1 g.2.2.1 g.2.2.2.1 g.2.2.2.2) Fp.zero

/-- The output stage before conversion (R240). -/
def outStage (away : Bool) (cf : Fmt) (main cScale : Fp) (cZp : Nat) : Fp :=
  let v := f32div away main (if cScale.isZero then Fp.one else cScale)
  if cf == .uint8 || cf == .uint4 then f32add away v (Fp.ofInt cZp) else v

/-! ### The fields that MATMUL and CONV share (R206, R362) -/

/-- Formats and settings in bits [455:384]. -/
structure BayFields where
  af : Fmt
  bf : Fmt
  cf : Fmt
  group : Nat
  enc : Bool
  aScale : Nat
  zp : Bool
  gang : Nat
  kSplit : Nat
  accum : Bool
  cScale : Fp
  cZp : Nat
  deriving DecidableEq, Repr

/-- Read them. -/
def bayFields (d : Nat) : BayFields :=
  { af := Fmt.ofCode (bitsAt d 384 4), bf := Fmt.ofCode (bitsAt d 388 4), cf := Fmt.ofCode (bitsAt d 392 4),
    group := bitsAt d 396 2, enc := bitAt d 398, aScale := bitsAt d 399 2, zp := bitAt d 401, gang := bitsAt d 402 2,
    kSplit := bitsAt d 404 3, accum := bitAt d 407, cScale := Fp.of32 (bitsAt d 416 32), cZp := bitsAt d 448 8 }

/-- Their places. -/
def bayFieldBits : List (Nat × Nat) :=
  [(384, 4), (388, 4), (392, 4), (396, 2), (398, 1), (399, 2), (401, 1), (402, 2), (404, 3), (407, 1), (416, 32), (448, 8)]

/-- Group size in elements; 128 between folds when scaling is off (R205). -/
def BayFields.size (f : BayFields) : Nat := if f.group = 0 then 128 else 16 <<< f.group

/-- Parts of the reduction. -/
def BayFields.parts (f : BayFields) : Nat := 1 <<< f.kSplit

/-- BAD_STEP cause 2 of the shared fields, whatever the reduction length (R208). -/
def BayFields.formatCauses (f : BayFields) (batch : Nat) : List Nat :=
  let noOperand := fun (x : Fmt) => x == .fp24 || x == .int32 || x == .int16
  let noOutput := [Fmt.fp24, .e3m2, .e2m3, .e2m1, .int32, .int2]
  cause2 (noOperand f.af || noOperand f.bf || ((f.af == .fp32) != (f.bf == .fp32)) || (f.af.isInt && !f.bf.isInt)
    || noOutput.contains f.cf || (f.accum && f.cf != .fp32) || (f.zp && (!f.af.isInt || f.aScale == 0))
    || (f.aScale == 1 && f.group == 0) || f.aScale == 3 || f.gang == 3 || 4 < f.kSplit
    || (f.gang != 0 && (f.kSplit != 0 || batch != 0)))

/-- BAD_STEP cause 2 of the shared fields for a reduction length K (R208, R211). -/
def BayFields.causes (f : BayFields) (k batch : Nat) : List Nat :=
  f.formatCauses batch ++ cause2 ((f.group != 0 && k % f.size != 0) || k % f.parts != 0
    || (k / f.parts) % (if f.group = 0 then 32 else f.size) != 0)

/-- An activation entry: scale and zero point (R209). -/
def readEntryA (c : Ctx) (f : BayFields) (dva : Nat) : Acc (Fp × Int) := do
  let e ← rdNat c.who dva 8
  return (Fp.of32 (e % 2 ^ 32), if f.zp then signed 32 (e >>> 32) else 0)

/-- Choose a free order of a list (R211: every order of arrival is possible). -/
def freeOrder {α : Type} (l : List α) : Nat → Acc (List α)
  | 0 => return l
  | fuel + 1 =>
    match l with
    | [] => return []
    | x :: r => do
      let (k, s) := (← get).fresh
      set s
      let i := Config.freeNat k % (r.length + 1)
      let rest ← freeOrder ((x :: r).eraseIdx i) fuel
      return lget (x :: r) i x :: rest

/-- Write converted elements into the output row at byte offset `off` from element `e0` on: only their bits change. -/
def writeAt (c : Ctx) (f : Fmt) (base off e0 : Nat) (vs : List Fp) : Acc Unit := do
  let lo := e0 * f.bits
  let hi := lo + vs.length * f.bits
  let b0 := lo / 8
  let n := cdiv hi 8 - b0
  let codes := packCodes f (vs.map fun v => f.encode c.away v)
  if lo % 8 = 0 && hi % 8 = 0 then c.output base (off + b0) (toBytes n codes)
  else
    let old ← c.previous base (off + b0) n
    c.output base (off + b0) (toBytes n (putBits (ofBytes old) (lo % 8) (hi - lo) codes))

/-- Write converted elements into an output row. -/
def writeElems (c : Ctx) (f : Fmt) (base pitch row e0 : Nat) (vs : List Fp) : Acc Unit := writeAt c f base (row * pitch) e0 vs

/-- Drain one block row: previous contents are added under ACCUM (R240), then written. -/
def drain (c : Ctx) (f : BayFields) (base pitch row e0 : Nat) (mains : List Fp) : Acc Unit := do
  let vs := mains.map fun m => outStage c.away f.cf m f.cScale f.cZp
  if f.accum then
    let old ← c.previous base (row * pitch + 4 * e0) (4 * vs.length)
    let prev := elems .fp32 (ofBytes old) vs.length
    writeElems c f.cf base pitch row e0 (List.zipWith (f32add c.away) prev vs)
  else writeElems c f.cf base pitch row e0 vs

/-- Rows of a compressed output may be written in parts (R298). -/
def rowsWhole (base pitch rowBytes : Nat) : Bool := base % 256 == 0 && pitch % 256 == 0 && rowBytes % 256 == 0

/-- A context whose output rows may be written in parts when they are whole blocks of compressed pages (R298). -/
def Ctx.rowsOf (c : Ctx) (base pitch rowBytes : Nat) : Ctx :=
  { c with who := { c.who with partOk := rowsWhole base pitch rowBytes } }

/-! ### Dividing the blocks (R210, R213) -/

/-- Where a part of a block runs: its wing rank, and its bay among four intact ones. -/
structure Seat where
  rank : Nat
  bay : Nat
  deriving DecidableEq, Repr

/-- The seat of part `p` of the block in row `r` and column `q` of `nb` block columns. Natively item i = j × s + p goes to
rank (i div 4) mod n and bay i mod 4; a gang takes `g` consecutive blocks of one block row as one item, one on each of its
bays. -/
def seatOf (f : BayFields) (n nb r q p : Nat) : Seat :=
  if f.gang = 0 then
    let i := (r * nb + q) * f.parts + p
    { rank := i / 4 % max 1 n, bay := i % 4 }
  else
    let g := 1 <<< f.gang
    let i := r * cdiv nb g + q / g
    { rank := i / (4 / g) % max 1 n, bay := i % (4 / g) * g + q % g }

/-- The round of work items, one on each bay, to which a part of a block belongs. -/
def roundOf (f : BayFields) (nb r q p : Nat) : Nat :=
  if f.gang = 0 then ((r * nb + q) * f.parts + p) / 4
  else
    let g := 1 <<< f.gang
    (r * cdiv nb g + q / g) / (4 / g)

/-- Bays of a tile that are intact. -/
def State.intactBays (s : State) (t : Nat) : List Nat := (List.range 4).filter fun b => !(s.fencedBays t).testBit b

/-- The bay of a tile that takes a part whose seat is bay `b` of four (R210); on a tile with fenced bays, the intact ones
take the items in turn (R223), and pairs run on the one intact pair. -/
def State.bayFor (s : State) (t gang b : Nat) : Nat :=
  let ok := s.intactBays t
  if ok.length = 4 then b
  else if gang = 1 then (if ok.contains 0 && ok.contains 1 then b % 2 else 2 + b % 2)
  else lget ok (b % max 1 ok.length) 0

/-- A ganged step finds no gang on the tile (R223): four bays need all intact, pairs need one intact pair. -/
def State.noGang (s : State) (t gang : Nat) : Bool :=
  let m := s.fencedBays t
  (gang == 2 && m != 0) || (gang == 1 && bitsAt m 0 2 != 0 && bitsAt m 2 2 != 0)

/-- The share cannot run as a gang: it completes with UNIT_FAILED. -/
def gangCheck (c : Ctx) (gang : Nat) : Acc Unit := do
  if (← get).noGang c.tile gang then throw (.status stUnitFailed 0) else return ()

/-- The work items of a block: its parts, and its drain by the bay of part 0. `no` numbers the block; `rows` are its output
rows. -/
def blockItems (f : BayFields) (n nb r q no lo hi : Nat) (needs extra : Nat → List (Nat × Nat)) : List PlanItem :=
  ((List.range f.parts).map fun p =>
    { no := no, rank := (seatOf f n nb r q p).rank, part := p, drains := false, lo := 0, hi := 0, needs := needs p,
      extra := extra p })
  ++ [{ no := no, rank := (seatOf f n nb r q 0).rank, drains := true, lo := lo, hi := hi }]

/-! ### Feeders (R198, R201, R213) -/

/-- A feeder of a bay takes `len` bytes at a DVA for a round of work items. Where a feeder of the tile has taken the same for
this round, the load unit fetched it once for all of them. -/
def feed (c : Ctx) (bay kind round dva len : Nat) : Acc Who := do
  let s ← get
  let ts := s.tileSt c.tile
  let key := c.group * 2 ^ 40 + round
  let shared := ts.feeders.any fun x => x.kind == kind && x.round == key && x.dva == dva && x.len == len
  let half := round % 2 == 1
  let x : Feeder := { bay := bay, kind := kind, half := half, round := key, dva := dva, len := len }
  let rest := ts.feeders.filter fun y => !(y.bay == bay && y.kind == kind && y.half == half)
  set (s.setTileSt c.tile { ts with feeders := rest ++ [x] })
  return { c.who with fed := c.who.fed || shared }

/-! ### Accumulators (R202, R211) -/

/-- Accumulator sets of a bay that output blocks of a step hold: those whose part 0 the bay has formed. -/
def Work.setsUsed (w : Work) (step t bay : Nat) : Nat :=
  (w.blocks.filter fun b => b.step == step && b.tile == t && b.bay == bay && b.parts.any fun p => p.1 == 0).length

/-- A block of a step. -/
def Work.block? (w : Work) (step no : Nat) : Option AccBlock := w.blocks.find? fun b => b.step == step && b.no == no

/-- A part of a block arrives at the bay of part 0, whose accumulators hold the block from its first part on. -/
def Work.partArrives (w : Work) (step no tile bay p : Nat) (sums : List (BitVec 32)) : Work :=
  match w.block? step no with
  | some b =>
    let b' := { b with parts := b.parts ++ [(p, sums)] }
    { w with blocks := w.blocks.map fun x => if x = b then b' else x }
  | none => { w with blocks := w.blocks ++ [{ step := step, no := no, tile := tile, bay := bay, parts := [(p, sums)] }] }

/-- Sums of the parts of a block, added to part 0 in a free order (R211, R241). -/
def joinParts (away : Bool) (b : AccBlock) : Acc (List Fp) := do
  let val := fun (l : List (BitVec 32)) => l.map fun x => Fp.of32 x.toNat
  let p0 := ((b.parts.find? fun p => p.1 == 0).map fun p => val p.2).getD []
  let rest := (b.parts.filter fun p => p.1 != 0).map fun p => val p.2
  let order ← freeOrder rest rest.length
  return order.foldl (fun acc p => List.zipWith (f32add away) acc p) p0

/-- An item of a bay can run: a part needs an accumulator set of its bay, a drain every part of its block. -/
def bayReady (parts : Nat) (bay : Nat) (s : State) (c : Ctx) (x : PlanItem) : Bool :=
  match s.work? c.work with
  | none => false
  | some w =>
    if x.drains then (w.block? c.idx x.no).any fun b => b.parts.length == parts
    else w.setsUsed c.idx c.tile bay < 2

/-- A part's sums go to the bay of part 0, whose seat is given. -/
def sendPart (c : Ctx) (f : BayFields) (seat : Seat) (x : PlanItem) (sums : List (List Fp)) : Acc Unit := do
  let s ← get
  match s.work? c.work with
  | none => return ()
  | some w =>
    let t := lget w.on seat.rank c.tile
    let bits := sums.flatten.map fun v => BitVec.ofNat 32 v.bits32
    set (s.mapWork w.id fun w => w.partArrives c.idx x.no t (s.bayFor t f.gang seat.bay) x.part bits)

/-- The block that an item drains leaves its accumulators: the sums of its parts. -/
def takeBlock (c : Ctx) (x : PlanItem) : Acc (List Fp) := do
  let s ← get
  match (s.work? c.work).bind fun w => w.block? c.idx x.no with
  | none => return []
  | some b =>
    let l ← joinParts c.away b
    modify fun s => s.mapWork c.work fun w => { w with blocks := w.blocks.filter fun y => y != b }
    return l

/-! ### MATMUL -/

/-- M, N and K of a MATMUL. -/
def mmM (d : Nat) : Nat := bitsAt d 112 16
/-- N. -/
def mmN (d : Nat) : Nat := bitsAt d 176 16
/-- K. -/
def mmK (d : Nat) : Nat := 32 * bitsAt d 240 16
/-- Row pitch of A. -/
def mmPitchA (d : Nat) : Nat := rowPitch (bayFields d).af (mmK d) (bitsAt d 304 16)
/-- Row pitch of C. -/
def mmPitchC (d : Nat) : Nat := rowPitch (bayFields d).cf (mmN d) (bitsAt d 368 16)

/-- Bytes of `rows` rows of `len` bytes at a pitch. -/
def spanBytes (rows pitch len : Nat) : Nat := if rows = 0 then 0 else (rows - 1) * pitch + len

/-- Checks of a MATMUL (R161, R206, R208, R211). -/
def matmulCheck (c : Ctx) : Acc (List Nat) := do
  let d := c.d
  let f := bayFields d
  let (m, n, k) := (mmM d, mmN d, mmK d)
  let panels := cdiv n 64
  let reserved := if onlyFields d ([(64, 48), (112, 16), (128, 48), (176, 16), (192, 48), (240, 16), (256, 48), (304, 16),
    (320, 48), (368, 16)] ++ bayFieldBits) then [] else [1]
  let entries := if f.aScale = 1 then m * (k / f.size) else 1
  return reserved ++ cause2 (m == 0 || n == 0 || k == 0) ++ f.causes k (hBatch d)
    ++ c.inputCauses (spanBytes m (mmPitchA d) (f.af.rowBytes k)) 64
    ++ operandCauses (c.f 128 48) (panels * k * 64 * f.bf.bits / 8) 64
    ++ c.outputCauses (c.f 192 48) (spanBytes m (mmPitchC d) (f.cf.rowBytes n)) 64
    ++ (if f.aScale = 0 then [] else operandCauses (c.f 256 48) (8 * entries) 8)
    ++ (if f.group = 0 then [] else operandCauses (c.f 320 48) (panels * (k / f.size) * 64) 64)

/-- The groups of a reduction of `len` elements: first element and length. -/
def groupSpans (size len : Nat) : List (Nat × Nat) :=
  (List.range (cdiv len size)).map fun g => (g * size, min size (len - g * size))

/-- What a bay takes of one part of a block: first element and length of the reduction, columns, weights and their scales,
and the activation entry that is not per row. -/
structure Panel where
  lo : Nat
  len : Nat
  cols : Nat
  ws : Nat
  scales : Nat
  one : Fp × Int

/-- The activation entries of a row over a part (R209). -/
def rowEntries (c : Ctx) (f : BayFields) (k m : Nat) (p : Panel) : Acc (List (Fp × Int)) :=
  if f.aScale = 1 then
    (List.range (p.len / f.size)).mapM fun g =>
      readEntryA c f (c.f 256 48 + 8 * (m * (k / f.size) + p.lo / f.size + g))
  else return []

/-- The groups of a block's column over one part of the reduction. -/
def columnGroups (f : BayFields) (p : Panel) (col : Nat) (as : List Fp) (sas : List (Fp × Int)) :
    List (List Fp × List Fp × Fp × Int × Fp) :=
  (groupSpans f.size p.len).map fun (k0, kn) =>
    let g := k0 / f.size
    let ws := (List.range kn).map fun i => elem f.bf p.ws ((k0 + i) * 64 + col)
    let sa := if f.aScale = 1 then lget sas g p.one else p.one
    let sw := if f.group = 0 then Fp.one else scaleValue f.enc (bitsAt p.scales (8 * (g * 64 + col)) 8)
    ((as.drop k0).take kn, ws, sa.1, sa.2, sw)

/-- One part of a block: the main accumulators of its rows (each a list of its columns). -/
def blockPart (c : Ctx) (f : BayFields) (k : Nat) (p : Panel) (rows : List (Nat × List Fp)) : Acc (List (List Fp)) :=
  rows.mapM fun (m, as) => do
    let sas ← rowEntries c f k m p
    return (List.range p.cols).map fun col => foldAll c.away f.af f.bf (columnGroups f p col as sas)

/-- Fetch the weights and scales of a part: of panel `panel` at the operand `base`, whose rows are `k` in number. -/
def readPanel (c : Ctx) (f : BayFields) (bay round panel k lo len cols : Nat) (one : Fp × Int) : Acc Panel := do
  let row := 64 * f.bf.bits / 8
  let dva := c.f 128 48 + (panel * k + lo) * row
  let who ← feed c bay 1 round dva (len * row)
  let ws ← rdNat who dva (len * row)
  if f.group = 0 then return { lo := lo, len := len, cols := cols, ws := ws, scales := 0, one := one }
  else
    let dva := c.f 320 48 + (panel * (k / f.size) + lo / f.size) * 64
    let n := len / f.size * 64
    let who ← feed c bay 2 round dva n
    let scales ← rdNat who dva n
    return { lo := lo, len := len, cols := cols, ws := ws, scales := scales, one := one }

/-- The activation entry of the whole tensor, when A_SCALE is 2. -/
def readOne (c : Ctx) (f : BayFields) : Acc (Fp × Int) :=
  if f.aScale = 2 then readEntryA c f (c.f 256 48) else return (Fp.one, 0)

/-- Bytes of elements `[lo, lo + len)` of a row: first byte and number. -/
def partBytes (f : Fmt) (lo len : Nat) : Nat × Nat := (lo * f.bits / 8, len * f.bits / 8)

/-- A block of a MATMUL: block row and column. -/
def mmBlock (d no : Nat) : Nat × Nat := (no / cdiv (mmN d) 64, no % cdiv (mmN d) 64)

/-- The division of a MATMUL (R210, R213). -/
def matmulPlan (c : Ctx) : Acc Division := do
  let d := c.d
  let f := bayFields d
  let nb := cdiv (mmN d) 64
  let len := mmK d / f.parts
  let item := fun (no : Nat) =>
    let (r, q) := mmBlock d no
    let lo := 64 * r
    let hi := min (mmM d) (lo + 64)
    let row := 64 * f.bf.bits / 8
    let needs := fun (p : Nat) => (List.range (hi - lo)).map fun i =>
      let b := partBytes f.af (p * len) len
      ((lo + i) * mmPitchA d + b.1, b.2)
    let extra := fun (p : Nat) =>
      [(c.f 128 48 + (q * mmK d + p * len) * row, len * row)]
        ++ (if f.group = 0 then [] else [(c.f 320 48 + (q * (mmK d / f.size) + p * len / f.size) * 64, len / f.size * 64)])
        ++ (if f.aScale = 0 then [] else if f.aScale = 2 then [(c.f 256 48, 8)]
            else (List.range (hi - lo)).map fun i =>
              (c.f 256 48 + 8 * ((lo + i) * (mmK d / f.size) + p * len / f.size), 8 * (len / f.size)))
    blockItems f c.n nb r q no lo hi needs extra
  return { base := c.f 192 48, pitch := mmPitchC d, items := (List.range (cdiv (mmM d) 64 * nb)).flatMap item }

/-- A part of a MATMUL block is accumulated. -/
def matmulPart (c : Ctx) (f : BayFields) (x : PlanItem) : Acc Unit := do
  let d := c.d
  let nb := cdiv (mmN d) 64
  let (r, q) := mmBlock d x.no
  let s ← get
  let bay := s.bayFor c.tile f.gang (seatOf f c.n nb r q x.part).bay
  let round := roundOf f nb r q x.part
  let len := mmK d / f.parts
  let lo := x.part * len
  let one ← readOne c f
  let p ← readPanel c f bay round q (mmK d) lo len (min 64 (mmN d - 64 * q)) one
  let pitch := mmPitchA d
  let b := partBytes f.af lo len
  let mr := min 64 (mmM d - 64 * r)
  let who ← feed c bay 0 round (hInput d + 64 * r * pitch + b.1) (mr * pitch)
  let c' := { c with who := who }
  let rows ← (List.range mr).mapM fun i => do
    let bs ← c'.input ((64 * r + i) * pitch + b.1) b.2
    return (64 * r + i, elems f.af (ofBytes bs) len)
  let sums ← blockPart c f (mmK d) p rows
  sendPart c f (seatOf f c.n nb r q 0) x sums

/-- A MATMUL block is drained. -/
def matmulDrain (c : Ctx) (f : BayFields) (x : PlanItem) : Acc Unit := do
  let d := c.d
  let (r, q) := mmBlock d x.no
  let cols := min 64 (mmN d - 64 * q)
  let flat ← takeBlock c x
  let pc := mmPitchC d
  let c := c.rowsOf (c.f 192 48) pc (f.cf.rowBytes (mmN d))
  forEach (List.range (min 64 (mmM d - 64 * r))) fun i =>
    drain c f (c.f 192 48) pc (64 * r + i) (64 * q) ((flat.drop (i * cols)).take cols)

/-- MATMUL (R210 to R213). -/
def matmulKind : Kind :=
  { check := matmulCheck
    plan := matmulPlan
    begins := fun c => gangCheck c (bayFields c.d).gang
    run := fun c x => if x.drains then matmulDrain c (bayFields c.d) x else matmulPart c (bayFields c.d) x
    ready := fun s c x =>
      let f := bayFields c.d
      let b := mmBlock c.d x.no
      bayReady f.parts (s.bayFor c.tile f.gang (seatOf f c.n (cdiv (mmN c.d) 64) b.1 b.2 x.part).bay) s c x
    bays := true }

/-! ### The shape record (R359) -/

/-- A shape record. -/
structure Shape where
  ih : Nat
  iw : Nat
  cin : Nat
  cout : Nat
  oh : Nat
  ow : Nat
  images : Nat
  kh : Nat
  kw : Nat
  sy : Nat
  sx : Nat
  dy : Nat
  dx : Nat
  pt : Nat
  pl : Nat
  groups : Nat
  relu : Bool
  bias : Nat
  work : Nat
  reserved : Bool
  deriving DecidableEq, Repr

/-- The record that 64 bytes spell. -/
def shapeOf (x : Nat) : Shape :=
  { ih := bitsAt x 0 16, iw := bitsAt x 16 16, cin := bitsAt x 32 16, cout := bitsAt x 48 16, oh := bitsAt x 64 16,
    ow := bitsAt x 80 16, images := bitsAt x 96 16, kh := bitsAt x 112 8, kw := bitsAt x 120 8,
    sy := bitsAt x 128 4 + 1, sx := bitsAt x 132 4 + 1, dy := bitsAt x 136 4 + 1, dx := bitsAt x 140 4 + 1,
    pt := bitsAt x 144 8, pl := bitsAt x 152 8, groups := max 1 (bitsAt x 160 16), relu := bitAt x 176,
    bias := bitsAt x 192 48, work := bitsAt x 240 24, reserved := bitsAt x 177 15 != 0 || bitsAt x 264 248 != 0 }

/-- Read a shape record; a misaligned SHAPE_DVA is cause 2, one in a spill context cause 3. -/
def readShape (c : Ctx) (dva : Nat) : Acc (Except (List Nat) Shape) := do
  let bad := operandCauses dva 64 64
  if bad.isEmpty then
    let x ← rdNat c.who dva 64
    return .ok (shapeOf x)
  else return .error bad

/-- Rows that the line buffer holds (R361). -/
def Shape.lines (s : Shape) : Nat := (s.kh - 1) * s.dy + 1

/-- The input pixel of a tap (R360), unless it falls outside the image. -/
def Shape.tap (s : Shape) (y x ky kx : Nat) : Option (Nat × Nat) :=
  let yy := y * s.sy + ky * s.dy
  let xx := x * s.sx + kx * s.dx
  if s.pt ≤ yy && s.pl ≤ xx && yy - s.pt < s.ih && xx - s.pl < s.iw then some (yy - s.pt, xx - s.pl) else none

/-- Input rows that an output row reads (R366). -/
def Shape.rowsOf (s : Shape) (y : Nat) : List Nat :=
  (List.range s.kh).filterMap fun ky =>
    let yy := y * s.sy + ky * s.dy
    if s.pt ≤ yy && yy - s.pt < s.ih then some (yy - s.pt) else none

/-- Read input rows of an image: row number and contents. -/
def readRows (c : Ctx) (pitch len ih img : Nat) (rows : List Nat) : Acc (Tbl Nat) := do
  let l ← (rows.foldl sins []).mapM fun y => do
    let bs ← c.input ((img * ih + y) * pitch) len
    return (y, ofBytes bs)
  return l

/-- Input rows that the share of a list on a tile has in its line buffer, or has had there. -/
def State.linesOf (s : State) (id t : Nat) : List Nat := (((s.work? id).bind fun w => w.run? t).map fun r => r.lines).getD []

/-- Read an input row through the tile's line buffer at WORK (R361): the tile fetches it once. DESIGN CHOICE, assumption 30:
row k of the input lies in line k mod `lines` of the buffer. -/
def lineRow (c : Ctx) (work lines pitch len k : Nat) : Acc (List Byte) := do
  if (← get).linesOf c.work c.tile |>.contains k then
    let c := { c with who := { c.who with fed := true } }
    c.input (k * pitch) len
  else
    let bs ← c.input (k * pitch) len
    let line := bs ++ List.replicate (cdiv len 64 * 64 - len) 0
    modify fun s => (s.mediaPut (pantrySpace c.tile) (work + k % max 1 lines * pitch) line).mapWork c.work fun w =>
      w.mapTile c.tile fun r => { r with lines := r.lines ++ [k] }
    return bs

/-- Read input rows of an image through the line buffer. -/
def bufferRows (c : Ctx) (s : Shape) (lines pitch len img : Nat) (rows : List Nat) : Acc (Tbl Nat) :=
  (rows.foldl sins []).mapM fun y => do
    let bs ← lineRow c s.work lines pitch len (img * s.ih + y)
    return (y, ofBytes bs)

/-- Byte ranges of input rows of an image. -/
def rowNeeds (s : Shape) (pitch len img : Nat) (rows : List Nat) : List (Nat × Nat) :=
  (rows.foldl sins []).map fun y => ((img * s.ih + y) * pitch, len)

/-! ### CONV -/

/-- K of a channel group (R363). -/
def Shape.k (s : Shape) : Nat := cdiv (s.kh * s.kw * (s.cin / s.groups)) 32 * 32

/-- Output rows of a map. -/
def Shape.outRows (s : Shape) : Nat := s.images * s.oh

/-- Checks that CONV and DWCONV share. -/
def convCauses (c : Ctx) (s : Shape) (f : BayFields) (limit : Nat) : List Nat :=
  let pin := rowPitch f.af (s.iw * s.cin) (c.f 112 16)
  let pout := rowPitch f.cf (s.ow * s.cout) (c.f 176 16)
  (if s.reserved then [1] else [])
    ++ cause2 (s.ih == 0 || s.iw == 0 || s.cin == 0 || s.cout == 0 || s.oh == 0 || s.ow == 0 || s.images == 0
      || s.kh == 0 || s.kw == 0 || limit < s.kh || limit < s.kw || s.cin % s.groups != 0 || s.cout % s.groups != 0
      || f.aScale == 1)
    ++ c.inputCauses (spanBytes (s.images * s.ih) pin (f.af.rowBytes (s.iw * s.cin))) 64
    ++ c.outputCauses (c.f 192 48) (spanBytes s.outRows pout (f.cf.rowBytes (s.ow * s.cout))) 64
    ++ (if f.aScale = 0 then [] else operandCauses (c.f 256 48) 8 8)
    ++ (if s.bias = 0 then [] else operandCauses s.bias (4 * s.cout) 64)
    ++ workCauses s.work (s.lines * pin)

/-- Reserved operand bits of CONV and DWCONV. -/
def convReserved (d : Nat) : List Nat :=
  if onlyFields d ([(64, 48), (112, 16), (128, 48), (176, 16), (192, 48), (256, 48), (320, 48), (456, 48)] ++ bayFieldBits)
  then [] else [1]

/-- Checks of a CONV (R367). -/
def convCheck (c : Ctx) : Acc (List Nat) := do
  let f := bayFields c.d
  match ← readShape c (c.f 456 48) with
  | .error l => return convReserved c.d ++ l ++ f.formatCauses (hBatch c.d) ++ cause2 (f.aScale == 1)
  | .ok s =>
    let nb := cdiv (s.cout / s.groups) 64
    return convReserved c.d ++ convCauses c s f 16 ++ f.causes s.k (hBatch c.d)
      ++ operandCauses (c.f 128 48) (s.groups * nb * s.k * 64 * f.bf.bits / 8) 64
      ++ (if f.group = 0 then [] else operandCauses (c.f 320 48) (s.groups * nb * (s.k / f.size) * 64) 64)

/-- The activation column of an output pixel for a channel group (R360, R363). -/
def convColumn (s : Shape) (f : BayFields) (rows : Tbl Nat) (y x g : Nat) (pad : Fp) : List Fp :=
  let cg := s.cin / s.groups
  let taps := (List.range s.kh).flatMap fun ky => (List.range s.kw).flatMap fun kx =>
    match s.tap y x ky kx with
    | some (yy, xx) => (List.range cg).map fun ch => elem f.af (tget rows yy 0) (xx * s.cin + g * cg + ch)
    | none => List.replicate cg pad
  taps ++ List.replicate (s.k - s.kh * s.kw * cg) pad

/-- A block of a CONV: group, block of pixels, block of columns (R364). -/
structure ConvBlock where
  g : Nat
  mb : Nat
  nb : Nat
  deriving DecidableEq, Repr

/-- Output pixels of a CONV. -/
def Shape.pixels (s : Shape) : Nat := s.images * s.oh * s.ow

/-- Columns of a group. -/
def Shape.coutG (s : Shape) : Nat := s.cout / s.groups

/-- Block columns of a group. -/
def Shape.nbs (s : Shape) : Nat := cdiv s.coutG 64

/-- Output block `no`. -/
def Shape.block (s : Shape) (no : Nat) : ConvBlock :=
  let mbs := cdiv s.pixels 64
  { g := no / s.nbs / max 1 mbs, mb := no / s.nbs % max 1 mbs, nb := no % s.nbs }

/-- The output pixels of a block. -/
def Shape.blockPixels (s : Shape) (b : ConvBlock) : List Nat :=
  (List.range (min 64 (s.pixels - 64 * b.mb))).map fun i => 64 * b.mb + i

/-- Pitch and bytes of an input row of a CONV or DWCONV. -/
def convIn (c : Ctx) (s : Shape) (f : BayFields) : Nat × Nat :=
  (rowPitch f.af (s.iw * s.cin) (c.f 112 16), f.af.rowBytes (s.iw * s.cin))

/-- Pitch of an output row of a CONV or DWCONV. -/
def convOut (c : Ctx) (s : Shape) (f : BayFields) : Nat := rowPitch f.cf (s.ow * s.cout) (c.f 176 16)

/-- The division of a CONV (R364). -/
def convPlan (c : Ctx) : Acc Division := do
  let f := bayFields c.d
  match ← readShape c (c.f 456 48) with
  | .error _ => return .plain []
  | .ok s =>
    let (pin, len) := convIn c s f
    let item := fun (no : Nat) =>
      let b := s.block no
      let px := s.blockPixels b
      let rows := (px.map fun p => p / s.ow).foldl sins []
      let needs := rows.flatMap fun r => rowNeeds s pin len (r / s.oh) (s.rowsOf (r % s.oh))
      blockItems f c.n s.nbs (no / s.nbs) b.nb no (rows.headD 0) (rows.getLastD 0 + 1) (fun _ => needs) (fun _ => [])
    return { base := c.f 192 48, pitch := convOut c s f,
             items := (List.range (s.groups * cdiv s.pixels 64 * s.nbs)).flatMap item }

/-- A part of a CONV block is accumulated. -/
def convPart (c : Ctx) (s : Shape) (f : BayFields) (x : PlanItem) : Acc Unit := do
  let b := s.block x.no
  let r := x.no / s.nbs
  let st ← get
  let bay := st.bayFor c.tile f.gang (seatOf f c.n s.nbs r b.nb x.part).bay
  let round := roundOf f s.nbs r b.nb x.part
  let len := s.k / f.parts
  let lo := x.part * len
  let one ← readOne c f
  let p ← readPanel c f bay round (b.g * s.nbs + b.nb) s.k lo len (min 64 (s.coutG - 64 * b.nb)) one
  let pad := if f.zp then Fp.ofInt one.2 else Fp.zero
  let (pin, bytes) := convIn c s f
  let rows ← (s.blockPixels b).mapM fun px => do
    let y := px / s.ow % s.oh
    let l ← bufferRows c s s.lines pin bytes (px / (s.oh * s.ow)) (s.rowsOf y)
    return (px, ((convColumn s f l y (px % s.ow) b.g pad).drop lo).take len)
  let sums ← blockPart c f s.k p rows
  sendPart c f (seatOf f c.n s.nbs r b.nb 0) x sums

/-- A CONV block is drained (R365). -/
def convDrain (c : Ctx) (s : Shape) (f : BayFields) (x : PlanItem) : Acc Unit := do
  let b := s.block x.no
  let cols := min 64 (s.coutG - 64 * b.nb)
  let flat ← takeBlock c x
  let bias ← if s.bias = 0 then pure 0 else rdNat c.who (s.bias + 4 * (b.g * s.coutG + 64 * b.nb)) (4 * cols)
  let pout := convOut c s f
  let c := c.rowsOf (c.f 192 48) pout (f.cf.rowBytes (s.ow * s.cout))
  forEach (s.blockPixels b).zipIdx fun (p, i) =>
    let mains := ((flat.drop (i * cols)).take cols).zipIdx.map fun (v, col) =>
      let v := if s.bias = 0 then v else f32add c.away v (elem .fp32 bias col)
      if s.relu then f32max v Fp.zero else v
    drain c f (c.f 192 48) pout (p / s.ow) (p % s.ow * s.cout + b.g * s.coutG + 64 * b.nb) mains

/-- Run something with the step's shape record, which the check has read before. -/
def withShape (c : Ctx) (dva : Nat) (f : Shape → Acc Unit) : Acc Unit := do
  let c := { c with who := { c.who with fed := true } }
  match ← readShape c dva with
  | .error _ => return ()
  | .ok s => f s

/-- The shape record as the tile last read it, for conditions on an item. -/
def State.shapeOf (s : State) (c : Ctx) (dva : Nat) : Option Shape :=
  match (runAcc s (readShape { c with who := { c.who with fed := true } } dva)).2 with
  | .ok (.ok x) => some x
  | _ => none

/-- CONV (R364). -/
def convKind : Kind :=
  { check := convCheck
    plan := convPlan
    begins := fun c => gangCheck c (bayFields c.d).gang
    run := fun c x => withShape c (c.f 456 48) fun s =>
      if x.drains then convDrain c s (bayFields c.d) x else convPart c s (bayFields c.d) x
    ready := fun st c x =>
      let f := bayFields c.d
      match st.shapeOf c (c.f 456 48) with
      | none => true
      | some s =>
        bayReady f.parts (st.bayFor c.tile f.gang (seatOf f c.n s.nbs (x.no / s.nbs) (s.block x.no).nb x.part).bay) st c x
    bays := true }

end Sys2Proof.Machine
end

