-- ==== Sys2Proof/Machine/Special.lean ====
section
/-! DEFINITION. The special functions of the vector engine (06_tile_arithmetic.md R219, R220): each result is any FP32
value within the bound that R219 gives about the exact function, chosen by a free value; the edge results are exact. The
exact function is computed in fixed point with 200 fraction bits, far inside every bound. -/

namespace Sys2Proof.Machine

/-- Fraction bits of the fixed-point working values. -/
def fxBits : Nat := 200

/-- One, in fixed point. -/
def fxOne : Int := 2 ^ 200

/-- Fixed-point product. -/
def fxMul (a b : Int) : Int := (a * b) / fxOne

/-- A fixed-point value as an exact value. -/
def fxVal (x : Int) (scale : Int := 0) : Fp := .fin (decide (x < 0)) x.natAbs (scale - 200)

/-- A finite value in fixed point (towards −∞). -/
def fxOf (n : Bool) (m : Nat) (e : Int) : Int :=
  let u : Int := ((if 0 ≤ e + 200 then m <<< (e + 200).toNat else m >>> (-(e + 200)).toNat : Nat) : Int)
  if n then -u else u

/-- Sum of a series whose term `k + 1` is its term `k` times `f k`; `n` terms. -/
def fxSeries (f : Nat → Int → Int) (t : Int) (k : Nat) : Nat → Int
  | 0 => 0
  | n + 1 => t + fxSeries f (f k t) (k + 1) n

/-- e^x for a fixed-point x of magnitude below 1. -/
def fxExpSmall (x : Int) : Int := fxSeries (fun k t => fxMul t x / ((k : Int) + 1)) fxOne 0 64

/-- 2 atanh(z) for a fixed-point z of magnitude at most 1/3. -/
def fxAtanh2 (z : Int) : Int :=
  let z2 := fxMul z z
  (List.range 72).foldl (fun (p : Int × Int) (k : Nat) => (p.1 + p.2 / (2 * (k : Int) + 1), fxMul p.2 z2)) (0, 2 * z) |>.1

/-- ln 2. -/
def fxLn2 : Int := fxAtanh2 (fxOne / 3)

/-- 2^x of a fixed-point x, as an exact value. -/
def exp2Val (x : Int) : Fp :=
  let n := x / fxOne
  fxVal (fxExpSmall (fxMul (x - n * fxOne) fxLn2)) n

/-- log2 of a positive `m × 2^e`, in fixed point. -/
def fxLog2 (m : Nat) (e : Int) : Int :=
  let l := Nat.log2 m
  let x : Int := ((m <<< 200 >>> l : Nat) : Int)
  let z := (x - fxOne) * fxOne / (x + fxOne)
  (fxAtanh2 z * fxOne) / fxLn2 + ((l : Int) + e) * fxOne

/-- Integer square root by bisection on bits, from bit `n` down. -/
def isqrtFrom (x r : Nat) : Nat → Nat
  | 0 => r
  | n + 1 =>
    let c := r + 2 ^ n
    if c * c ≤ x then isqrtFrom x c n else isqrtFrom x r n

/-- Integer square root. -/
def isqrt (x : Nat) : Nat := isqrtFrom x 0 (Nat.log2 x / 2 + 1)

/-- Square root of `m × 2^e` to more than 100 bits. -/
def sqrtVal (m : Nat) (e : Int) : Fp :=
  -- make the exponent even, and add 240 bits
  let odd := e % 2 = 1
  let m' := if odd then m <<< 241 else m <<< 240
  let e' := if odd then e - 241 else e - 240
  .fin false (isqrt m') (e' / 2)

/-- π × 2^360, the least integer below it. -/
def piBits : Nat := 0x3243f6a8885a308d313198a2e03707344a4093822299f31d0082efa98ec4e6c89452821e638d01377be5466cf34

/-- Exact argument reduction (R220): quadrant and remainder in fixed point of a non-negative `m × 2^e`. -/
def reduceAngle (m : Nat) (e : Int) : Nat × Int :=
  let x := if 0 ≤ e + 361 then m <<< (e + 361).toNat else m >>> (-(e + 361)).toNat
  ((x / piBits) % 4, (((x % piBits) >>> 161 : Nat) : Int))

/-- sin of a fixed-point value in [0, π/2). -/
def fxSin (x : Int) : Int :=
  let x2 := fxMul x x
  fxSeries (fun k t => -(fxMul t x2) / ((2 * (k : Int) + 2) * (2 * (k : Int) + 3))) x 0 40

/-- cos of a fixed-point value in [0, π/2). -/
def fxCos (x : Int) : Int :=
  let x2 := fxMul x x
  fxSeries (fun k t => -(fxMul t x2) / ((2 * (k : Int) + 1) * (2 * (k : Int) + 2))) fxOne 0 40

/-- sin of `±m × 2^e`. -/
def sinVal (n : Bool) (m : Nat) (e : Int) : Fp :=
  let (q, r) := reduceAngle m e
  let y := match q with
    | 0 => fxSin r
    | 1 => fxCos r
    | 2 => -(fxSin r)
    | _ => -(fxCos r)
  fxVal (if n then -y else y)

/-- cos of `±m × 2^e`. -/
def cosVal (m : Nat) (e : Int) : Fp :=
  let (q, r) := reduceAngle m e
  fxVal (match q with
    | 0 => fxCos r
    | 1 => -(fxSin r)
    | 2 => -(fxCos r)
    | _ => fxSin r)

/-- e^x of a fixed-point x at most 0, as fixed point. -/
def fxExpNeg (x : Int) : Int :=
  let p := x * fxOne / fxLn2
  let n := p / fxOne
  let y := fxExpSmall (fxMul (p - n * fxOne) fxLn2)
  if n < -400 then 0 else y / (2 ^ (-n).toNat : Nat)

/-- The logistic function in fixed point. -/
def fxSigmoid (x : Int) : Int :=
  let c := min (x.natAbs : Int) (200 * fxOne)
  let e := fxExpNeg (-c)
  let p := fxOne * fxOne / (fxOne + e)
  if x < 0 then fxMul e p else p

/-- tanh in fixed point. -/
def fxTanh (x : Int) : Int :=
  let c := min (x.natAbs : Int) (200 * fxOne)
  let e := fxExpNeg (-2 * c)
  let y := (fxOne - e) * fxOne / (fxOne + e)
  if x < 0 then -y else y

/-- erf(x ÷ √2) in fixed point; ±1 beyond |x| = 10 (the error there is below 2^−70). -/
def fxErfHalf (x : Int) : Int :=
  if 10 * fxOne ≤ x then fxOne
  else if x ≤ -(10 * fxOne) then -fxOne
  else
    let x2 := fxMul x x
    -- √(2 ÷ π) = √2 × 2^400 ÷ √(π × 2^400 × 2^400), in fixed point
    let c : Int := ((isqrt (2 ^ 761 / piBits) : Nat) : Int)
    let s := ((List.range 240).foldl (fun (p : Int × Int) (k : Nat) =>
      (p.1 + p.2 / (2 * (k : Int) + 1), -(fxMul p.2 x2) / (2 * ((k : Int) + 1)))) (0, x)).1
    fxMul s c

/-- The special functions, by VOP 0x10 to 0x1C. -/
inductive SpecialFn where
  | exp2 | exp | log2 | log | recip | rsqrt | sqrt | sigmoid | tanh | gelu | silu | sin | cos
  deriving DecidableEq, Repr

/-- Number of a special function (for its free error). -/
def SpecialFn.code : SpecialFn → Nat
  | .exp2 => 0 | .exp => 1 | .log2 => 2 | .log => 3 | .recip => 4 | .rsqrt => 5 | .sqrt => 6 | .sigmoid => 7
  | .tanh => 8 | .gelu => 9 | .silu => 10 | .sin => 11 | .cos => 12

/-- The function of VOP 0x10 + k. -/
def SpecialFn.ofIndex (k : Nat) : SpecialFn :=
  lget [.exp2, .exp, .log2, .log, .recip, .rsqrt, .sqrt, .sigmoid, .tanh, .gelu, .silu, .sin, .cos] k .exp2

/-- A bound of R219: units in the last place of the result, or an absolute bound 2^k × scale. -/
inductive Bound where
  | ulp (n : Nat)
  | abs (k : Int) (scale : Fp)
  deriving DecidableEq, Repr

/-- One unit in the last place of an FP32 result. -/
def ulpOf : Fp → Fp
  | .fin _ m e => if m = 0 then .fin false 1 (-149) else .fin false 1 (max ((Nat.log2 m : Int) + e - 23) (-149))
  | _ => .fin false 1 104

/-- The FP32 value at a place in the order of all FP32 values (−0 is the place below +0). -/
def ordVal (i : Int) : Fp :=
  if 0 ≤ i then Fp.of32 (min i.toNat 0x7F800000) else Fp.of32 (2 ^ 31 + min (-(i + 1)).toNat 0x7F800000)

/-- The place of an FP32 value in that order. -/
def valOrd (v : Fp) : Int :=
  let b := v.bits32
  if b < 2 ^ 31 then (b : Int) else -((b - 2 ^ 31 : Nat) : Int) - 1

/-- `c` lies within the bound of the exact value `y`. -/
def withinBound (b : Bound) (y c : Fp) : Bool :=
  if !c.isFin then false
  else
    let d := (Fp.add c y.neg).abs
    match b with
    | .ulp n => Fp.le d (Fp.mul (Fp.ofInt n) (ulpOf c))
    | .abs k sc => Fp.le d (Fp.mul (.fin false 1 k) sc)

/-- A result about the exact value `y`: the free error moves it by whole places within the bound; outside the bound the
nearest value stands. -/
def freeResult (fn : SpecialFn) (x : Nat) (b : Bound) (y : Fp) : Fp :=
  let near := y.r32 false
  let c := ordVal (valOrd near + Config.specialError fn.code (BitVec.ofNat 32 x))
  if withinBound b y c then c else near

/-- max(1, |x|). -/
def absOr1 (x : Fp) : Fp := if Fp.le x.abs Fp.one then Fp.one else x.abs

/-- The bound of a logarithm (R219): absolute 2^−22 for 0.5 ≤ x < 2, else 2 ulp. -/
def logBound (m : Nat) (e : Int) : Bound :=
  let top := (Nat.log2 m : Int) + e
  if top = -1 || top = 0 then .abs (-22) Fp.one else .ulp 2

/-- An exponential result: 0 below 2^−126, +∞ from 2^128 on. -/
def expResult (fn : SpecialFn) (x : Nat) (b : Bound) (y : Fp) : Fp :=
  if Fp.lt y (.fin false 1 (-126)) then Fp.zero
  else if Fp.le (.fin false 1 128) y then .inf false
  else
    let r := freeResult fn x b y
    if Fp.lt r (.fin false 1 (-126)) then Fp.zero else r

/-- A special function of an FP32 value that is neither NaN nor subnormal. -/
def specialOf (fn : SpecialFn) (v : Fp) : Fp :=
  let x := v.bits32
  match fn, v with
  | _, .nan => .nan
  | .exp2, .inf n => if n then Fp.zero else .inf false
  | .exp, .inf n => if n then Fp.zero else .inf false
  | .exp2, .fin n m e =>
    let big := Fp.le (.fin false 1 8) (.fin false m e)
    if big then (if n then Fp.zero else .inf false) else expResult fn x (.ulp 1) (exp2Val (fxOf n m e))
  | .exp, .fin n m e =>
    let big := Fp.le (.fin false 1 8) (.fin false m e)
    if big then (if n then Fp.zero else .inf false)
    else expResult fn x (.ulp 2) (exp2Val (fxOf n m e * fxOne / fxLn2))
  | .log2, .inf n => if n then .nan else .inf false
  | .log, .inf n => if n then .nan else .inf false
  | .log2, .fin n m e =>
    if m = 0 then .inf true else if n then .nan else freeResult fn x (logBound m e) (fxVal (fxLog2 m e))
  | .log, .fin n m e =>
    if m = 0 then .inf true else if n then .nan
    else freeResult fn x (logBound m e) (fxVal (fxMul (fxLog2 m e) fxLn2))
  | .recip, .inf n => .fin n 0 0
  | .recip, .fin n m e => if m = 0 then .inf n else freeResult fn x (.ulp 1) (quotient n 1 0 false m e 100)
  | .rsqrt, .inf n => if n then .nan else Fp.zero
  | .rsqrt, .fin n m e =>
    if m = 0 then .inf n
    else if n then .nan
    else match sqrtVal m e with
      | .fin _ r f => freeResult fn x (.ulp 2) (quotient false 1 0 false r f 100)
      | _ => .nan
  | .sqrt, .inf n => if n then .nan else .inf false
  | .sqrt, .fin n m e =>
    if m = 0 then .fin n 0 0 else if n then .nan else freeResult fn x (.ulp 1) (sqrtVal m e)
  | .sigmoid, .inf n => if n then Fp.zero else Fp.one
  | .sigmoid, .fin n m e => freeResult fn x (.abs (-22) Fp.one) (fxVal (fxSigmoid (fxOf n m e)))
  | .tanh, .inf n => .fin n 1 0
  | .tanh, .fin n m e => freeResult fn x (.abs (-22) Fp.one) (fxVal (fxTanh (fxOf n m e)))
  | .gelu, .inf n => if n then Fp.zero else .inf false
  | .gelu, .fin n m e =>
    freeResult fn x (.abs (-20) (absOr1 v)) (Fp.mul v (fxVal (fxOne + fxErfHalf (fxOf n m e)) (-1)))
  | .silu, .inf n => if n then Fp.zero else .inf false
  | .silu, .fin n m e => freeResult fn x (.abs (-21) (absOr1 v)) (Fp.mul v (fxVal (fxSigmoid (fxOf n m e))))
  | .sin, .inf _ => .nan
  | .sin, .fin n m e => freeResult fn x (.abs (-21) Fp.one) (sinVal n m e)
  | .cos, .inf _ => .nan
  | .cos, .fin _ m e => freeResult fn x (.abs (-21) Fp.one) (cosVal m e)

/-- Subnormal inputs are taken as zeros of the same sign (R220). -/
def flushSubnormal (v : Fp) : Fp :=
  match v with
  | .fin n m e => if m ≠ 0 && (Nat.log2 m : Int) + e < -126 then .fin n 0 0 else v
  | _ => v

/-- A special function as the vector engine gives it. -/
def special (fn : SpecialFn) (v : Fp) : Fp := specialOf fn (flushSubnormal v)

/-- The result is one that VE_NAN_CNT counts: NaN from an input that is not NaN (R220). -/
def nanMade (v r : Fp) : Bool := !v.isNan && r.isNan

end Sys2Proof.Machine
end

