-- ==== Sys2Proof/Machine/Vector.lean ====
section
/-! DEFINITION. The vector engine: VECTOR (06_tile_arithmetic.md R217 to R220; 07_formats_and_scaling.md R251 to R253,
R656) and DWCONV, POOL, RESAMPLE and CROP_RESIZE (11_vision_operators.md R358 to R361, R368 to R377). -/

namespace Sys2Proof.Machine

/-! ### Elements and rows -/

/-- Elements of a row as the vector engine takes them, in FP32 (R218; only INT32 rounds). -/
def Ctx.values (c : Ctx) (f : Fmt) (bs : List Byte) (n : Nat) : List Fp :=
  (elems f (ofBytes bs) n).map fun v => v.r32 c.away

/-- Count NaN results made from non-NaN inputs (R220). -/
def countNans (c : Ctx) (xs rs : List Fp) : Acc Unit :=
  let n := (List.zipWith nanMade xs rs).count true
  if n = 0 then return () else modify fun s => s.bump (Reg.veNanCntCount.ix c.tile) n

/-- A special function of each element, its NaNs counted. -/
def specials (c : Ctx) (fn : SpecialFn) (xs : List Fp) : Acc (List Fp) := do
  let rs := xs.map fun x => special fn x
  countNans c xs rs
  return rs

/-- The division of a step with `rows` output rows into slabs of 2^SLAB_LOG2 rows, slab j to rank j mod n (R217): what each
slab reads is given by row. -/
def Ctx.slabPlan (c : Ctx) (base pitch rows : Nat) (needs extra : Nat → List (Nat × Nat)) : Division :=
  let h := 2 ^ hSlabLog2 c.d
  let item := fun (j : Nat) =>
    let lo := j * h
    let hi := min (lo + h) rows
    let l := (List.range (hi - lo)).map fun i => lo + i
    ({ no := j, rank := j % max 1 c.n, lo := lo, hi := hi, needs := l.flatMap needs, extra := l.flatMap extra } : PlanItem)
  { base := base, pitch := pitch, items := (List.range (cdiv rows h)).map item }

/-- Run an item row by row: its rows together are one output unit (R160). -/
def PlanItem.rows (x : PlanItem) (row : Nat → Acc Unit) : Acc Unit :=
  forEach ((List.range (x.hi - x.lo)).map fun i => x.lo + i) row

/-! ### VECTOR -/

/-- The operand fields of a VECTOR step (R217). -/
structure VecFields where
  a : Nat
  b : Nat
  cc : Nat
  dd : Nat
  cols : Nat
  rows : Nat
  vop : Nat
  af : Fmt
  bf : Fmt
  df : Fmt
  scalar : Bool
  rowvec : Bool
  imm : Nat
  group : Nat
  enc : Bool
  aStride : Nat
  dStride : Nat
  deriving DecidableEq, Repr

/-- Read them. -/
def vecFields (d : Nat) : VecFields :=
  { a := bitsAt d 64 48, b := bitsAt d 128 48, cc := bitsAt d 192 48, dd := bitsAt d 256 48, cols := bitsAt d 304 16,
    rows := bitsAt d 320 32, vop := bitsAt d 352 8, af := Fmt.ofCode (bitsAt d 360 4), bf := Fmt.ofCode (bitsAt d 364 4),
    df := Fmt.ofCode (bitsAt d 368 4), scalar := bitAt d 372, rowvec := bitAt d 373, imm := bitsAt d 376 32,
    group := bitsAt d 408 2, enc := bitAt d 410, aStride := bitsAt d 416 16, dStride := bitsAt d 432 16 }

/-- The listed operations (R218). -/
def vopListed (v : Nat) : Bool := v ≤ 8 || (0x10 ≤ v && v ≤ 0x1C) || (0x20 ≤ v && v ≤ 0x24) || v == 0x30 || v == 0x31

/-- B is a second source. -/
def VecFields.binary (f : VecFields) : Bool := 1 ≤ f.vop && f.vop ≤ 6

/-- B is a weight row. -/
def VecFields.norm (f : VecFields) : Bool := f.vop == 0x23 || f.vop == 0x24

/-- The operation reads B as a tensor or a row. -/
def VecFields.usesB (f : VecFields) : Bool := (f.binary && !f.scalar) || f.norm

/-- Elements of a row of D. -/
def VecFields.dCols (f : VecFields) : Nat := if f.vop == 0x20 || f.vop == 0x21 then 1 else f.cols

/-- Group size of QUANTISE. -/
def VecFields.gsize (f : VecFields) : Nat := 16 <<< f.group

/-- Entries of a row (R251). -/
def VecFields.entries (f : VecFields) : Nat := cdiv f.cols f.gsize

/-- Pitch of a source in its format. -/
def VecFields.pitch (f : VecFields) (x : Fmt) : Nat := rowPitch x f.cols f.aStride

/-- Pitch of D. -/
def VecFields.dPitch (f : VecFields) : Nat := rowPitch f.df f.dCols f.dStride

/-- Bytes of `n` rows of a source. -/
def VecFields.span (f : VecFields) (x : Fmt) (n : Nat) : Nat := spanBytes n (f.pitch x) (x.rowBytes f.cols)

/-- Formats that QUANTISE and QUANTISE_DYN write (R251, R252; INT2 is no target, R250). -/
def VecFields.quantOk (f : VecFields) : Bool :=
  if f.vop == 0x30 then !([Fmt.fp24, .int32, .int16, .int2].contains f.df)
  else if f.vop == 0x31 then [Fmt.e4m3, .e5m2, .e3m2, .e2m3, .e2m1, .int8, .int4].contains f.df
  else true

/-- Checks of a VECTOR (R161, R217, R218, R252). -/
def vectorCheck (c : Ctx) : Acc (List Nat) := do
  let f := vecFields c.d
  let quant := f.vop == 0x30 || f.vop == 0x31
  let reserved := if onlyFields c.d [(64, 48), (128, 48), (192, 48), (256, 48), (304, 16), (320, 32), (352, 8), (360, 4),
    (364, 4), (368, 4), (372, 1), (373, 1), (376, 32), (408, 2), (410, 1), (416, 16), (432, 16)] then [] else [1]
  return reserved
    ++ cause2 (!vopListed f.vop || f.cols == 0 || f.rows == 0 || f.af == .int2 || f.af == .fp24 || f.df == .int2
      || (f.usesB && (f.bf == .int2 || f.bf == .fp24)) || (f.vop == 4 && (f.bf == .int2 || f.bf == .fp24))
      || (quant && f.group == 0) || !f.quantOk)
    ++ c.inputCauses (f.span f.af f.rows) 1
    ++ (if f.binary && !f.scalar then operandCauses f.b (f.span f.bf (if f.rowvec then 1 else f.rows)) 1 else [])
    ++ (if f.norm then operandCauses f.b (f.span f.bf 1) 1 else [])
    ++ (if f.vop == 4 then operandCauses f.cc (f.span f.bf f.rows) 1 else [])
    ++ (if f.vop == 0x24 then operandCauses f.cc (f.span f.bf 1) 1 else [])
    ++ (if quant && f.group != 0 then operandCauses f.cc (f.rows * f.entries * 8) 1 else [])
    ++ c.outputCauses f.dd (spanBytes f.rows f.dPitch (f.df.rowBytes f.dCols)) 1

/-- A row of B or C. -/
def vecRow (c : Ctx) (f : VecFields) (base r : Nat) : Acc (List Fp) := do
  let bs ← rd c.who (base + r * f.pitch f.bf) (f.bf.rowBytes f.cols)
  return c.values f.bf bs f.cols

/-- The second source of a row. -/
def vecB (c : Ctx) (f : VecFields) (r : Nat) : Acc (List Fp) :=
  if f.scalar then return List.replicate f.cols (Fp.of32 f.imm)
  else vecRow c f f.b (if f.rowvec then 0 else r)

/-- CLAMP (R218): an element limited to [−IMM, +IMM]. -/
def clampTo (imm a : Fp) : Fp :=
  if imm.isNan || a.isNan then .nan
  else if imm.sign && !imm.isZero then Fp.of32 (Config.emptyClamp (BitVec.ofNat 32 imm.bits32) (BitVec.ofNat 32 a.bits32)).toNat
  else if Fp.lt imm a then imm else if Fp.lt a imm.neg then imm.neg else a

/-- The element-wise operations (R218). -/
def vecElementwise (away : Bool) (vop : Nat) (imm : Fp) (a b cs : List Fp) : List Fp :=
  match vop with
  | 0 => a
  | 1 => List.zipWith (f32add away) a b
  | 2 => List.zipWith (f32sub away) a b
  | 3 => List.zipWith (f32mul away) a b
  | 4 => List.zipWith (fun (p : Fp × Fp) z => f32fma away p.1 p.2 z) (List.zip a b) cs
  | 5 => List.zipWith f32max a b
  | 6 => List.zipWith f32min a b
  | 7 => a.map (clampTo imm)
  | _ => a.map fun x => f32max x Fp.zero

/-- The row-normalising operations' scale: RSQRT(mean of squares + IMM) (R656). -/
def normScale (c : Ctx) (f : VecFields) (xs : List Fp) : Acc Fp := do
  let q := f32div c.away (rowSum c.away (xs.map fun x => f32mul c.away x x)) (Fp.ofInt f.cols)
  let l ← specials c .rsqrt [f32add c.away q (Fp.of32 f.imm)]
  return l.headD .nan

/-- SOFTMAX of a row (R656). -/
def softmaxRow (c : Ctx) (a : List Fp) : Acc (List Fp) := do
  let m := rowMax a
  let e ← specials c .exp (a.map fun x => f32sub c.away x m)
  let s := rowSum c.away e
  return e.map fun x => f32div c.away x s

/-- RMSNORM of a row (R656). -/
def rmsRow (c : Ctx) (f : VecFields) (a : List Fp) : Acc (List Fp) := do
  let w ← vecRow c f f.b 0
  let r ← normScale c f a
  return List.zipWith (f32mul c.away) (a.map fun x => f32mul c.away x r) w

/-- LAYERNORM of a row (R656). -/
def layerRow (c : Ctx) (f : VecFields) (a : List Fp) : Acc (List Fp) := do
  let w ← vecRow c f f.b 0
  let bias ← vecRow c f f.cc 0
  let mu := f32div c.away (rowSum c.away a) (Fp.ofInt f.cols)
  let cen := a.map fun x => f32sub c.away x mu
  let r ← normScale c f cen
  return List.zipWith (f32add c.away) (List.zipWith (f32mul c.away) (cen.map fun x => f32mul c.away x r) w) bias

/-- QUANTISE of a row (R251). -/
def quantRow (c : Ctx) (f : VecFields) (r : Nat) (a : List Fp) : Acc (List Fp) := do
  let raw ← rdNat c.who (f.cc + r * f.entries * 8) (f.entries * 8)
  return a.zipIdx.map fun (x, i) =>
    let e := bitsAt raw (64 * (i / f.gsize)) 64
    f32add c.away (f32div c.away x (Fp.of32 e)) (toF32 c.away (signed 32 (e >>> 32)))

/-- The scale of a group of QUANTISE_DYN (R252). -/
def groupScale (f : VecFields) (g : List Fp) : Fp :=
  dynScale f.enc ((g.filter Fp.isFin).foldl (fun m x => if Fp.lt m x.abs then x.abs else m) Fp.zero) f.df.dmax

/-- QUANTISE_DYN of a row: scaled elements; its entries are written to C (R253), where a part of a compressed block fails
(R298). -/
def quantDynRow (c : Ctx) (f : VecFields) (r : Nat) (a : List Fp) : Acc (List Fp) := do
  let gs := chunks f.gsize a a.length
  let ss := gs.map (groupScale f)
  let entries := ss.flatMap fun s => toBytes 8 s.bits32
  let u ← wr { c.who with partOk := false } (f.cc + r * f.entries * 8) entries
  addUndo u
  return (List.zipWith (fun g s => g.map fun x => f32div c.away x s) gs ss).flatten

/-- The results of one row. -/
def vectorValues (c : Ctx) (f : VecFields) (r : Nat) (a : List Fp) : Acc (List Fp) := do
  let imm := Fp.of32 f.imm
  if f.vop ≤ 8 then
    let b ← if f.binary then vecB c f r else pure []
    let cs ← if f.vop = 4 then vecRow c f f.cc r else pure []
    return vecElementwise c.away f.vop imm a b cs
  else if f.vop ≤ 0x1C then specials c (SpecialFn.ofIndex (f.vop - 0x10)) a
  else if f.vop = 0x20 then return [rowSum c.away a]
  else if f.vop = 0x21 then return [rowMax a]
  else if f.vop = 0x22 then softmaxRow c a
  else if f.vop = 0x23 then rmsRow c f a
  else if f.vop = 0x24 then layerRow c f a
  else if f.vop = 0x30 then quantRow c f r a
  else quantDynRow c f r a

/-- One row of a VECTOR step. -/
def vectorRow (c : Ctx) (f : VecFields) (r : Nat) : Acc Unit := do
  let bs ← c.input (r * f.pitch f.af) (f.af.rowBytes f.cols)
  let vs ← vectorValues c f r (c.values f.af bs f.cols)
  writeElems c f.df f.dd f.dPitch r 0 vs

/-- DVA ranges of the sources of a row beside A. -/
def VecFields.others (f : VecFields) (r : Nat) : List (Nat × Nat) :=
  let row := fun (base i : Nat) => (base + i * f.pitch f.bf, f.bf.rowBytes f.cols)
  (if f.binary && !f.scalar then [row f.b (if f.rowvec then 0 else r)] else [])
    ++ (if f.norm then [row f.b 0] else []) ++ (if f.vop == 4 then [row f.cc r] else [])
    ++ (if f.vop == 0x24 then [row f.cc 0] else [])
    ++ (if f.vop == 0x30 then [(f.cc + r * f.entries * 8, f.entries * 8)] else [])

/-- VECTOR (R217). -/
def vectorKind : Kind :=
  { check := vectorCheck
    plan := fun c =>
      let f := vecFields c.d
      return c.slabPlan f.dd f.dPitch f.rows (fun r => [(r * f.pitch f.af, f.af.rowBytes f.cols)]) f.others
    run := fun c x =>
      let f := vecFields c.d
      let c := c.rowsOf f.dd f.dPitch (f.df.rowBytes f.dCols)
      x.rows (vectorRow c f) }

/-! ### DWCONV (R368 to R370) -/

/-- Channels of a group. -/
def Shape.cg (s : Shape) : Nat := s.cin / s.groups

/-- Elements of a DWCONV weight row. -/
def Shape.taps (s : Shape) : Nat := s.kh * s.kw * s.cg

/-- Bytes of a weight row, padded. -/
def dwPitch (s : Shape) (f : BayFields) : Nat := cdiv (f.bf.rowBytes s.taps) 64 * 64

/-- Formats of DWCONV operands (R369). -/
def dwFormats : List Fmt := [.fp32, .bf16, .fp16, .e4m3, .e5m2, .int8, .uint8, .int4]

/-- Formats that no bay or vector step of this layout writes (R208). -/
def dwOutput : List Fmt := [.fp24, .e3m2, .e2m3, .e2m1, .int32, .int2]

/-- Checks of a DWCONV. -/
def dwconvCheck (c : Ctx) : Acc (List Nat) := do
  let f := bayFields c.d
  match ← readShape c (c.f 456 48) with
  | .error l =>
    return convReserved c.d ++ l ++ cause2 (f.aScale == 1 || f.group != 0 || f.gang != 0 || f.kSplit != 0
      || !dwFormats.contains f.af || !dwFormats.contains f.bf || dwOutput.contains f.cf || (f.accum && f.cf != .fp32)
      || (f.zp && (!f.af.isInt || f.aScale == 0)) || f.aScale == 3)
  | .ok s =>
    return convReserved c.d ++ convCauses c s f 16
      ++ cause2 (s.cg == 0 || 16 < s.cg || f.group != 0 || f.gang != 0 || f.kSplit != 0 || !dwFormats.contains f.af
        || !dwFormats.contains f.bf || dwOutput.contains f.cf || (f.accum && f.cf != .fp32)
        || (f.zp && (!f.af.isInt || f.aScale == 0)) || f.aScale == 3)
      ++ operandCauses (c.f 128 48) (spanBytes s.cout (dwPitch s f) (f.bf.rowBytes s.taps)) 64
      ++ (if c.f 320 48 = 0 then [] else operandCauses (c.f 320 48) s.cout 64)

/-- What every output channel of a DWCONV uses. -/
structure DwChan where
  ws : List Fp
  wsum : Fp
  sw : Fp
  bias : Fp
  deriving DecidableEq, Repr

/-- Read the weights, scale and bias of a channel. -/
def dwChan (c : Ctx) (s : Shape) (f : BayFields) (o : Nat) : Acc DwChan := do
  let bs ← rd c.who (c.f 128 48 + o * dwPitch s f) (f.bf.rowBytes s.taps)
  let ws := elems f.bf (ofBytes bs) s.taps
  let sb := c.f 320 48
  let sw ← if sb = 0 then pure Fp.one else do
    let x ← rdNat c.who (sb + o) 1
    pure (scaleValue f.enc x)
  let bias ← if s.bias = 0 then pure Fp.zero else do
    let x ← rdNat c.who (s.bias + 4 * o) 4
    pure (Fp.of32 x)
  return { ws := ws, wsum := ws.foldl (f32add c.away) Fp.zero, sw := sw, bias := bias }

/-- One output element of a DWCONV (R369, R365): each product is exact, and one rounding follows its addition. -/
def dwElement (away : Bool) (s : Shape) (ch : DwChan) (as : List Fp) (sa za : Fp) : Fp :=
  let sum := (List.zip as ch.ws).foldl (fun m p => f32fma away p.1 p.2 m) Fp.zero
  let d := f32sub away sum (f32mul away za ch.wsum)
  let main := f32mul away (f32mul away sa ch.sw) d
  let main := if s.bias = 0 then main else f32add away main ch.bias
  if s.relu then f32max main Fp.zero else main

/-- The activations of an output pixel for output channel `o`, in (ky, kx, c) order. -/
def dwTaps (s : Shape) (f : BayFields) (rows : Tbl Nat) (y x o : Nat) (pad : Fp) : List Fp :=
  let c0 := o / (s.cout / s.groups) * s.cg
  (List.range s.kh).flatMap fun ky => (List.range s.kw).flatMap fun kx =>
    match s.tap y x ky kx with
    | some (yy, xx) => (List.range s.cg).map fun ch => elem f.af (tget rows yy 0) (xx * s.cin + c0 + ch)
    | none => List.replicate s.cg pad

/-- One output row of a DWCONV. -/
def dwRow (c : Ctx) (s : Shape) (f : BayFields) (chans : List DwChan) (one : Fp × Int) (r : Nat) : Acc Unit := do
  let (pin, len) := convIn c s f
  let za := if f.zp then toF32 c.away one.2 else Fp.zero
  let pad := if f.zp then za else Fp.zero
  let rows ← bufferRows c s s.lines pin len (r / s.oh) (s.rowsOf (r % s.oh))
  let vs := (List.range s.ow).flatMap fun x => chans.zipIdx.map fun (ch, o) =>
    dwElement c.away s ch (dwTaps s f rows (r % s.oh) x o pad) one.1 za
  drain c f (c.f 192 48) (convOut c s f) r 0 vs

/-- The division of a DWCONV. -/
def dwconvPlan (c : Ctx) : Acc Division := do
  let f := bayFields c.d
  match ← readShape c (c.f 456 48) with
  | .error _ => return .plain []
  | .ok s =>
    let (pin, len) := convIn c s f
    return c.slabPlan (c.f 192 48) (convOut c s f) s.outRows
      (fun r => rowNeeds s pin len (r / s.oh) (s.rowsOf (r % s.oh))) fun _ => []

/-- A slab of a DWCONV. -/
def dwconvRun (c : Ctx) (x : PlanItem) : Acc Unit := do
  let f := bayFields c.d
  withShape c (c.f 456 48) fun s => do
    let c := c.rowsOf (c.f 192 48) (convOut c s f) (f.cf.rowBytes (s.ow * s.cout))
    let one ← readOne c f
    let chans ← (List.range s.cout).mapM (dwChan c s f)
    x.rows (dwRow c s f chans one)

/-- DWCONV (R369). -/
def dwconvKind : Kind := { check := dwconvCheck, plan := dwconvPlan, run := dwconvRun }

/-! ### POOL (R371, R372) -/

/-- Formats of POOL, RESAMPLE and CROP_RESIZE (R371). -/
def mapFormats : List Fmt := [.fp32, .bf16, .fp16, .e4m3, .e5m2, .int8, .uint8]

/-- Pitch and bytes of an input row of POOL and RESAMPLE. -/
def mapIn (c : Ctx) (s : Shape) : Nat × Nat :=
  let f := Fmt.ofCode (c.f 192 4)
  (rowPitch f (s.iw * s.cin) (c.f 112 16), f.rowBytes (s.iw * s.cin))

/-- Pitch and bytes of an output row. -/
def mapOut (c : Ctx) (s : Shape) : Nat × Nat :=
  let g := Fmt.ofCode (c.f 196 4)
  (rowPitch g (s.ow * s.cin) (c.f 176 16), g.rowBytes (s.ow * s.cin))

/-- A format that POOL and RESAMPLE do not take. -/
def mapFormatCauses (c : Ctx) : List Nat :=
  cause2 (!mapFormats.contains (Fmt.ofCode (c.f 192 4)) || !mapFormats.contains (Fmt.ofCode (c.f 196 4)))

/-- Checks that POOL and RESAMPLE share. -/
def mapCauses (c : Ctx) (s : Shape) (lines : Nat) : List Nat :=
  (if s.reserved then [1] else [])
    ++ mapFormatCauses c
    ++ cause2 (s.ih == 0 || s.iw == 0 || s.cin == 0 || s.oh == 0 || s.ow == 0 || s.images == 0)
    ++ c.inputCauses (spanBytes (s.images * s.ih) (mapIn c s).1 (mapIn c s).2) 64
    ++ c.outputCauses (c.f 128 48) (spanBytes s.outRows (mapOut c s).1 (mapOut c s).2) 64
    ++ workCauses s.work (lines * (mapIn c s).1)

/-- Reserved operand bits of POOL (`n` = 3) and RESAMPLE (`n` = 2). -/
def mapReserved (d n : Nat) : List Nat :=
  if onlyFields d [(64, 48), (112, 16), (128, 48), (176, 16), (192, 4), (196, 4), (200, n), (208, 48)] then [] else [1]

/-- The division of POOL and RESAMPLE, by the input rows that an output row of an image reads. -/
def mapPlan (c : Ctx) (rows : Shape → Nat → List Nat) : Acc Division := do
  match ← readShape c (c.f 208 48) with
  | .error _ => return .plain []
  | .ok s =>
    return c.slabPlan (c.f 128 48) (mapOut c s).1 s.outRows
      (fun r => rowNeeds s (mapIn c s).1 (mapIn c s).2 (r / s.oh) (rows s (r % s.oh))) fun _ => []

/-- A slab of POOL or RESAMPLE. -/
def mapRun (row : Ctx → Shape → Nat → Acc Unit) (c : Ctx) (x : PlanItem) : Acc Unit :=
  withShape c (c.f 208 48) fun s =>
    x.rows (row (c.rowsOf (c.f 128 48) (mapOut c s).1 (mapOut c s).2) s)

/-- The pooling of a whole image, or in windows. -/
def poolGlobal (c : Ctx) : Bool := 3 ≤ c.f 200 3

/-- Input rows of an output row of a POOL. -/
def poolRows (c : Ctx) (s : Shape) (y : Nat) : List Nat := if poolGlobal c then List.range s.ih else s.rowsOf y

/-- Checks of a POOL. -/
def poolCheck (c : Ctx) : Acc (List Nat) := do
  let k := c.f 200 3
  match ← readShape c (c.f 208 48) with
  | .error l => return mapReserved c.d 3 ++ l ++ mapFormatCauses c ++ cause2 (4 < k)
  | .ok s =>
    return mapReserved c.d 3 ++ mapCauses c s s.lines
      ++ cause2 (4 < k || s.kh == 0 || s.kw == 0 || 64 < s.kh || 64 < s.kw || (3 ≤ k && (s.oh != 1 || s.ow != 1)))

/-- The input elements of channel `ch` that a window covers, in (ky, kx) order. -/
def windowElems (s : Shape) (f : Fmt) (rows : Tbl Nat) (y x ch : Nat) : List Fp :=
  (List.range s.kh).flatMap fun ky => (List.range s.kw).filterMap fun kx =>
    (s.tap y x ky kx).map fun p => elem f (tget rows p.1 0) (p.2 * s.cin + ch)

/-- Sum in the given order, one rounding per addition. -/
def sumOf (away : Bool) (vs : List Fp) : Fp := vs.foldl (f32add away) Fp.zero

/-- Largest of a list that is not empty; any NaN gives NaN. -/
def maxOf : List Fp → Fp
  | [] => Fp.zero
  | v :: r => r.foldl f32max v

/-- The result of a window (R372). -/
def poolValue (away : Bool) (s : Shape) (kind : Nat) (vs : List Fp) : Fp :=
  match kind with
  | 0 | 4 => maxOf vs
  | 1 => if vs.isEmpty then Fp.zero else f32div away (sumOf away vs) (Fp.ofInt (s.kh * s.kw : Nat))
  | _ => if vs.isEmpty then Fp.zero else f32div away (sumOf away vs) (toF32 away vs.length)

/-- One output row of a POOL. -/
def poolRow (c : Ctx) (s : Shape) (r : Nat) : Acc Unit := do
  let f := Fmt.ofCode (c.f 192 4)
  let g := Fmt.ofCode (c.f 196 4)
  let rows ← bufferRows c s s.lines (mapIn c s).1 (mapIn c s).2 (r / s.oh) (poolRows c s (r % s.oh))
  let vs := (List.range s.ow).flatMap fun x => (List.range s.cin).map fun ch =>
    let w := if poolGlobal c then (List.range s.ih).flatMap fun y => (List.range s.iw).map fun x' =>
        elem f (tget rows y 0) (x' * s.cin + ch)
      else windowElems s f rows (r % s.oh) x ch
    poolValue c.away s (c.f 200 3) w
  writeElems c g (c.f 128 48) (mapOut c s).1 r 0 vs

/-- POOL (R372). -/
def poolKind : Kind := { check := poolCheck, plan := fun c => mapPlan c (poolRows c), run := mapRun poolRow }

/-! ### Sampling (R375, R377) -/

/-- Largest integer not above a finite value. -/
def Fp.floor : Fp → Int
  | .fin n m e =>
    let i : Int := if 0 ≤ e then ((m <<< e.toNat : Nat) : Int) else ((m >>> (-e).toNat : Nat) : Int)
    let exact := 0 ≤ e || m % 2 ^ (-e).toNat == 0
    if n then (if exact then -i else -i - 1) else i
  | _ => 0

/-- An integer index limited to an axis of `n` pixels. -/
def clampIndex (i : Int) (n : Nat) : Nat := if i < 0 then 0 else min i.toNat (n - 1)

/-- How a sample reads pixels: the map's element at (y, x), and what a tap outside the image gives (none: the nearest edge
pixel). -/
structure Sampler where
  ih : Nat
  iw : Nat
  extrap : Option Fp
  nearest : Bool

/-- One tap. -/
def Sampler.at_ (p : Sampler) (px : Nat → Nat → Fp) (y x : Int) : Fp :=
  let inside := 0 ≤ y && 0 ≤ x && y < p.ih && x < p.iw
  match p.extrap with
  | some e => if inside then px y.toNat x.toNat else e
  | none => px (clampIndex y p.ih) (clampIndex x p.iw)

/-- A sample at (yy, xx): bilinear weights by distance in FP32, taps added in raster order; or the nearest pixel. -/
def Sampler.sample (away : Bool) (p : Sampler) (px : Nat → Nat → Fp) (yy xx : Fp) : Fp :=
  let half := Fp.fin false 1 (-1)
  if p.nearest then p.at_ px (f32add away yy half).floor (f32add away xx half).floor
  else
    let y0 := yy.floor
    let x0 := xx.floor
    let fy := f32sub away yy (toF32 away y0)
    let fx := f32sub away xx (toF32 away x0)
    let gy := f32sub away Fp.one fy
    let gx := f32sub away Fp.one fx
    let t := fun (wy wx : Fp) (y x : Int) => f32mul away (f32mul away wy wx) (p.at_ px y x)
    let s := f32add away (t gy gx y0 x0) (t gy fx y0 (x0 + 1))
    let s := f32add away s (t fy gx (y0 + 1) x0)
    f32add away s (t fy fx (y0 + 1) (x0 + 1))

/-- Rows of an image that samples at the positions `ys` touch. -/
def Sampler.rows (away : Bool) (p : Sampler) (ys : List Fp) : List Nat :=
  let half := Fp.fin false 1 (-1)
  ys.flatMap fun yy =>
    if p.nearest then [clampIndex (f32add away yy half).floor p.ih]
    else [clampIndex yy.floor p.ih, clampIndex (yy.floor + 1) p.ih]

/-! ### RESAMPLE (R377) -/

/-- Checks of a RESAMPLE. -/
def resampleCheck (c : Ctx) : Acc (List Nat) := do
  match ← readShape c (c.f 208 48) with
  | .error l => return mapReserved c.d 2 ++ l ++ mapFormatCauses c
  | .ok s => return mapReserved c.d 2 ++ mapCauses c s 2

/-- The input position of output index `i` along an axis (R377). -/
def resamplePos (away corners : Bool) (i isz osz : Nat) : Fp :=
  let n := fun (k : Nat) => toF32 away k
  let half := Fp.fin false 1 (-1)
  if corners then (if osz = 1 then Fp.zero else f32div away (f32mul away (n i) (n (isz - 1))) (n (osz - 1)))
  else f32sub away (f32div away (f32mul away (f32add away (n i) half) (n isz)) (n osz)) half

/-- How a RESAMPLE samples. -/
def resampler (c : Ctx) (s : Shape) : Sampler := { ih := s.ih, iw := s.iw, extrap := none, nearest := c.b 200 }

/-- Input rows of an output row of a RESAMPLE: those of its taps (R377). -/
def resampleRows (c : Ctx) (s : Shape) (y : Nat) : List Nat :=
  (resampler c s).rows c.away [resamplePos c.away (c.b 201) y s.ih s.oh]

/-- One output row of a RESAMPLE. -/
def resampleRow (c : Ctx) (s : Shape) (r : Nat) : Acc Unit := do
  let f := Fmt.ofCode (c.f 192 4)
  let g := Fmt.ofCode (c.f 196 4)
  let yy := resamplePos c.away (c.b 201) (r % s.oh) s.ih s.oh
  let rows ← bufferRows c s 2 (mapIn c s).1 (mapIn c s).2 (r / s.oh) (resampleRows c s (r % s.oh))
  let vs := (List.range s.ow).flatMap fun x => (List.range s.cin).map fun ch =>
    (resampler c s).sample c.away (fun y x' => elem f (tget rows y 0) (x' * s.cin + ch)) yy
      (resamplePos c.away (c.b 201) x s.iw s.ow)
  writeElems c g (c.f 128 48) (mapOut c s).1 r 0 vs

/-- RESAMPLE (R377). -/
def resampleKind : Kind := { check := resampleCheck, plan := fun c => mapPlan c (resampleRows c), run := mapRun resampleRow }

/-! ### CROP_RESIZE (R373 to R376) -/

/-- The operand fields of a CROP_RESIZE step (R373). -/
structure CropFields where
  boxes : Nat
  ih : Nat
  iw : Nat
  ch : Nat
  images : Nat
  oh : Nat
  ow : Nat
  fi : Fmt
  fo : Fmt
  nearest : Bool
  s : Nat
  edge : Bool
  extrap : Fp
  deriving DecidableEq, Repr

/-- Read them. -/
def cropFields (d : Nat) : CropFields :=
  { boxes := bitsAt d 240 16, ih := bitsAt d 256 16, iw := bitsAt d 272 16, ch := bitsAt d 288 16,
    images := bitsAt d 304 16, oh := bitsAt d 320 6 + 1, ow := bitsAt d 326 6 + 1, fi := Fmt.ofCode (bitsAt d 332 4),
    fo := Fmt.ofCode (bitsAt d 336 4), nearest := bitAt d 340, s := bitsAt d 341 2 + 1, edge := bitAt d 343,
    extrap := Fp.of32 (bitsAt d 344 32) }

/-- Input and output pitch. -/
def CropFields.pitches (f : CropFields) (d : Nat) : Nat × Nat :=
  (rowPitch f.fi (f.iw * f.ch) (bitsAt d 112 16), rowPitch f.fo (f.ow * f.ch) (bitsAt d 176 16))

/-- Checks of a CROP_RESIZE. -/
def cropCheck (c : Ctx) : Acc (List Nat) := do
  let f := cropFields c.d
  let (pin, pout) := f.pitches c.d
  let reserved := if onlyFields c.d [(64, 48), (112, 16), (128, 48), (176, 16), (192, 48), (240, 16), (256, 16), (272, 16),
    (288, 16), (304, 16), (320, 6), (326, 6), (332, 4), (336, 4), (340, 1), (341, 2), (343, 1), (344, 32)] then [] else [1]
  return reserved
    ++ cause2 (f.boxes == 0 || 4096 < f.boxes || f.ih == 0 || f.iw == 0 || f.ch == 0 || f.images == 0
      || !mapFormats.contains f.fi || !mapFormats.contains f.fo)
    ++ c.inputCauses (spanBytes (f.images * f.ih) pin (f.fi.rowBytes (f.iw * f.ch))) 1
    ++ c.outputCauses (c.f 128 48) (spanBytes (f.boxes * f.oh) pout (f.fo.rowBytes (f.ow * f.ch))) 64
    ++ operandCauses (c.f 192 48) (32 * f.boxes) 32

/-- The box is refused (R376). -/
def boxRefused (f : CropFields) (e : Nat) : Bool :=
  let v := fun (k : Nat) => Fp.of32 (bitsAt e (32 * k) 32)
  !(v 0).isFin || !(v 1).isFin || !(v 2).isFin || !(v 3).isFin || Fp.lt (v 2) (v 0) || Fp.lt (v 3) (v 1)
    || f.images ≤ bitsAt e 128 16 || bitsAt e 144 112 != 0

/-- Position of sample `t` of bin `i` along an axis of `o` bins, from coordinates a to b (R375). -/
def cropPos (away : Bool) (a b : Fp) (i o t s : Nat) : Fp :=
  let n := fun (k : Nat) => Fp.ofInt k
  let half := Fp.fin false 1 (-1)
  let u := f32div away (f32add away (n t) half) (n s)
  let k := f32add away (n i) u
  f32sub away (f32add away a (f32div away (f32mul away k (f32sub away b a)) (n o))) half

/-- One output row of a box. -/
def cropRow (c : Ctx) (f : CropFields) (e i : Nat) : Acc (List Fp) := do
  let (pin, _) := f.pitches c.d
  let v := fun (k : Nat) => Fp.of32 (bitsAt e (32 * k) 32)
  let p : Sampler := { ih := f.ih, iw := f.iw, extrap := if f.edge then some f.extrap else none, nearest := f.nearest }
  let ys := (List.range f.s).map fun t => cropPos c.away (v 0) (v 2) i f.oh t f.s
  let rows ← readRows c pin (f.fi.rowBytes (f.iw * f.ch)) f.ih (bitsAt e 128 16) (p.rows c.away ys)
  return (List.range f.ow).flatMap fun j =>
    let xs := (List.range f.s).map fun t => cropPos c.away (v 1) (v 3) j f.ow t f.s
    (List.range f.ch).map fun ch =>
      let px := fun y x => elem f.fi (tget rows y 0) (x * f.ch + ch)
      let vs := ys.flatMap fun yy => xs.map fun xx => p.sample c.away px yy xx
      f32div c.away (sumOf c.away vs) (Fp.ofInt (f.s * f.s : Nat))

/-- Count a refused box: once per step the note is raised and the step counted (R376, R379). -/
def countBox (c : Ctx) : Acc Unit := modify fun s =>
  let s := s.bump Reg.visBoxErrCount
  if (s.work? c.work).any fun w => w.boxNoted.contains c.idx then s
  else ((s.bump Reg.visBoxErrSteps).note fcVisBox).mapWork c.work fun w => { w with boxNoted := w.boxNoted ++ [c.idx] }

/-- One box: its rows are one output unit. -/
def cropBox (c : Ctx) (x : PlanItem) : Acc Unit := do
  let f := cropFields c.d
  let (_, pout) := f.pitches c.d
  let c := c.rowsOf (c.f 128 48) pout (f.fo.rowBytes (f.ow * f.ch))
  let e ← rdNat c.who (c.f 192 48 + 32 * x.no) 32
  let bad := boxRefused f e
  x.rows fun r => do
    let vs ← if bad then pure (List.replicate (f.ow * f.ch) f.extrap) else cropRow c f e (r - x.lo)
    writeElems c f.fo (c.f 128 48) pout r 0 vs
  if bad then countBox c

/-- CROP_RESIZE (R373 to R376): box j goes to rank j mod n. -/
def cropKind : Kind :=
  { check := cropCheck
    plan := fun c =>
      let f := cropFields c.d
      let item := fun (j : Nat) =>
        ({ no := j, rank := j % max 1 c.n, lo := j * f.oh, hi := (j + 1) * f.oh } : PlanItem)
      return { base := c.f 128 48, pitch := (f.pitches c.d).2, items := (List.range f.boxes).map item }
    run := cropBox }

end Sys2Proof.Machine
end

