-- ==== Sys2Proof/Machine/Attend.lean ====
section
/-! DEFINITION. Attention: the sequence table, the key-value region and the ATTENTION step (09_attention_and_kv.md R306 to
R328). -/

namespace Sys2Proof.Machine

/-- SEQ_REJECTED (R319). -/
def stSeqRejected : Byte := 0xA0
/-- SEQ_INVALID. -/
def stSeqInvalid : Byte := 0xA1
/-- SEQ_FULL. -/
def stSeqFull : Byte := 0xA2
/-- SEQ_BUSY. -/
def stSeqBusy : Byte := 0xA3

/-! ### The sequence table (R309, R311) -/

/-- DVA of sequence-table entry `e`. -/
def State.seqDva (s : State) (e : Nat) : Nat :=
  s.reg Reg.attSeqBaseLoBaseLo <<< 21 + s.reg Reg.attSeqBaseHiBaseHi <<< 32 + 32 * e

/-- Formats of keys and values (R311). -/
def kvFormats : List Fmt := [.bf16, .fp16, .e4m3, .e5m2, .int8, .int4]

/-- A format whose rows carry a scale (R307). -/
def Fmt.scaled (f : Fmt) : Bool := f.bits < 16

/-- A sequence-table entry. -/
structure SeqEntry where
  valid : Bool
  ring : Bool
  kf : Fmt
  vf : Fmt
  d : Nat
  h : Nat
  layers : Nat
  kv : Nat
  scale : Nat
  length : Nat
  maxLen : Nat
  pos : Nat
  gen : Nat
  deriving DecidableEq, Repr

/-- Read an entry's fields. -/
def seqEntry (x : Nat) : SeqEntry :=
  { valid := bitAt x 0, ring := bitAt x 1, kf := Fmt.ofCode (bitsAt x 4 4), vf := Fmt.ofCode (bitsAt x 8 4),
    d := 64 <<< bitsAt x 12 2, h := bitsAt x 16 6 + 1, layers := bitsAt x 24 8 + 1, kv := bitsAt x 32 48,
    scale := bitsAt x 80 48, length := bitsAt x 128 32, maxLen := bitsAt x 160 21, pos := bitsAt x 192 32,
    gen := bitsAt x 224 16 }

/-! ### The key-value region (R306, R307) -/

/-- RK. -/
def SeqEntry.rk (e : SeqEntry) : Nat := 64 * e.d * e.kf.bits / 8
/-- RV. -/
def SeqEntry.rv (e : SeqEntry) : Nat := 64 * e.d * e.vf.bits / 8
/-- BB. -/
def SeqEntry.bb (e : SeqEntry) : Nat := e.h * (e.rk + e.rv)
/-- SL. -/
def SeqEntry.sl (e : SeqEntry) : Nat := e.maxLen / 64 * e.bb
/-- Slot of a position. -/
def SeqEntry.slot (e : SeqEntry) (p : Nat) : Nat := if e.ring then p % max 1 e.maxLen else p
/-- Region size. -/
def SeqEntry.size (e : SeqEntry) : Nat := cdiv (e.layers * e.sl) 65536 * 65536
/-- Scale layer stride. -/
def SeqEntry.scaleSl (e : SeqEntry) : Nat := e.maxLen / 64 * 512 * e.h
/-- Some format carries scales. -/
def SeqEntry.scales (e : SeqEntry) : Bool := e.kf.scaled || e.vf.scaled
/-- DVA of block `b` of layer `l`. -/
def SeqEntry.block (e : SeqEntry) (l b : Nat) : Nat := e.kv + l * e.sl + b * e.bb
/-- DVA of the scales of block `b` of layer `l`. -/
def SeqEntry.scaleBlock (e : SeqEntry) (l b : Nat) : Nat := e.scale + l * e.scaleSl + b * (512 * e.h)

/-- Every page of a range is mapped (R308), or the access fails. -/
def mapRange (who : Who) (dva n : Nat) : Acc Unit :=
  forEach ((pieces dva n (n / 65536 + 2)).map fun p => p.1) fun d =>
    if isPantry d then return () else do
      let _ ← leafOf who d
      return ()

/-- A step touches a block: its pages of keys, values and scales are mapped. -/
def touchBlock (who : Who) (e : SeqEntry) (l b : Nat) : Acc Unit := do
  mapRange who (e.block l b) e.bb
  if e.scales then mapRange who (e.scaleBlock l b) (512 * e.h)

/-! ### The step's operands (R315) -/

/-- The operand fields of an ATTENTION step. -/
structure AttFields where
  q : Nat
  items : Nat
  o : Nat
  layer : Nat
  heads : Nat
  mask : Nat
  new : Nat
  list : Nat
  window : Nat
  append : Bool
  advance : Bool
  rope : Bool
  pair : Bool
  bucket : Bool
  qf : Fmt
  nf : Fmt
  of : Fmt
  dims : Nat
  scale : Fp
  theta : Fp
  deriving DecidableEq, Repr

/-- Read them. -/
def attFields (d : Nat) : AttFields :=
  { q := bitsAt d 64 48, items := bitsAt d 112 16, o := bitsAt d 128 48, layer := bitsAt d 176 8,
    heads := bitsAt d 184 6 + 1, mask := bitsAt d 190 2, new := bitsAt d 192 48, list := bitsAt d 256 48,
    window := bitsAt d 304 21, append := bitAt d 325, advance := bitAt d 326, rope := bitAt d 327, pair := bitAt d 328,
    bucket := bitAt d 329, qf := Fmt.ofCode (bitsAt d 332 4), nf := Fmt.ofCode (bitsAt d 336 4),
    of := Fmt.ofCode (bitsAt d 340 4), dims := bitsAt d 352 16, scale := Fp.of32 (bitsAt d 384 32),
    theta := Fp.of32 (bitsAt d 416 32) }

/-- Formats of queries, new rows and outputs. -/
def attFormats : List Fmt := [.bf16, .fp16, .fp32]

/-- Bytes of a padded row of `n` elements. -/
def padded (f : Fmt) (n : Nat) : Nat := cdiv (f.rowBytes n) 64 * 64

/-- Read the item list, each item with its entry. -/
def attItems (c : Ctx) (f : AttFields) : Acc (List AttItem) := do
  let raw ← rdNat c.who f.list (8 * f.items)
  (List.range f.items).mapM fun i => do
    let x := bitsAt raw (64 * i) 64
    let s ← get
    let e ← rdNat { c.who with quiet := true } (s.seqDva (bitsAt x 0 16)) 32
    return { seq := bitsAt x 0 16, n := bitsAt x 16 16, entry := BitVec.ofNat 256 e }

/-- The item's entry. -/
def AttItem.e (i : AttItem) : SeqEntry := seqEntry i.entry.toNat

/-- Checks of an ATTENTION (R161, R315 to R317). -/
def attCheck (c : Ctx) : Acc (List Nat) := do
  let f := attFields c.d
  let reserved := if onlyFields c.d [(64, 48), (112, 16), (128, 48), (176, 8), (184, 6), (190, 2), (192, 48), (256, 48),
    (304, 21), (325, 1), (326, 1), (327, 1), (328, 1), (329, 1), (332, 4), (336, 4), (340, 4), (352, 16), (384, 32),
    (416, 32)] then [] else [1]
  let own := cause2 (f.mask == 3 || (f.mask == 2 && (f.window == 0 || 1048576 < f.window)) || (f.advance && !f.append)
    || f.items == 0 || 4096 < f.items || !attFormats.contains f.qf || !attFormats.contains f.nf
    || !attFormats.contains f.of || f.dims % 2 == 1 || (f.rope && !Fp.lt Fp.one f.theta))
  let list := operandCauses f.list (8 * f.items) 8
  let early := reserved ++ own ++ list
  if !early.isEmpty then return early
  else if !(isPantry f.q || isPantry f.o || (f.append && isPantry f.new)) then
    return operandCauses f.q 0 64 ++ operandCauses f.o 0 64 ++ (if f.append then operandCauses f.new 0 64 else [])
  else
    let items ← attItems c f
    let bytes := fun (x : Fmt) (n : AttItem → Nat) => (items.map fun i => i.n * padded x (n i)).foldl (· + ·) 0
    return operandCauses f.q (bytes f.qf fun i => f.heads * i.e.d) 64
      ++ c.outputCauses f.o (bytes f.of fun i => f.heads * i.e.d) 64
      ++ (if f.append then operandCauses f.new (bytes f.nf fun i => 2 * i.e.h * i.e.d) 64 else [])

/-! ### Item checks (R319) -/

/-- Another ATTENTION step with APPEND runs on the entry. -/
def State.seqAppending (s : State) (work step e : Nat) : Bool :=
  s.att.runs.any fun r => r.append && !(r.work == work && r.step == step) && r.items.any fun i => i.seq == e

/-- The status of one item: the lowest that applies. -/
def itemStatus (s : State) (c : Ctx) (f : AttFields) (all : List AttItem) (i : AttItem) : Byte :=
  let e := i.e
  if !e.valid || f.heads % e.h != 0 || e.layers ≤ f.layer || e.d < f.dims then stSeqInvalid
  else if (!e.ring && f.append && e.maxLen < e.length + i.n) || (e.ring && f.mask != 2)
      || (e.ring && e.maxLen < f.window + i.n - 1) || (e.ring && 2 ^ 32 ≤ e.length + i.n) then stSeqFull
  else if f.append && (s.seqAppending c.work c.idx i.seq || 1 < all.countP fun j => j.seq == i.seq) then stSeqBusy
  else stOk

/-- Every item's status, in order. -/
def itemStatuses (s : State) (c : Ctx) (f : AttFields) (items : List AttItem) : List Byte :=
  items.map (itemStatus s c f items)

/-- Status and DETAIL of the lowest-numbered item that fails. -/
def itemVerdict (items : List AttItem) (sts : List Byte) : Option (Byte × BitVec 32) :=
  ((List.zip items sts).zipIdx.find? fun x => x.1.2 != stOk).map fun x =>
    (x.1.2, BitVec.ofNat 32 (x.2 % 65536 + x.1.1.seq <<< 16))

/-! ### Rotary encoding (R322) -/

/-- The rotary factors of pair `k` at a position: cosine and sine. -/
def ropePair (c : Ctx) (f : AttFields) (r pos k : Nat) : Acc (Fp × Fp) := do
  let p := toF32 c.away (pos : Nat)
  let l ← specials c .log2 [f.theta]
  let m := f32div c.away (Fp.ofInt (-(2 * k : Nat))) (Fp.ofInt r)
  let g ← specials c .exp2 [f32mul c.away m (l.headD .nan)]
  let a := f32mul c.away p (g.headD .nan)
  let cs ← specials c .cos [a]
  let sn ← specials c .sin [a]
  return (cs.headD .nan, sn.headD .nan)

/-- Rotate a row of `D` elements for a position. -/
def rotate (c : Ctx) (f : AttFields) (e : SeqEntry) (p : Nat) (row : List Fp) : Acc (List Fp) := do
  if !f.rope then return row
  else
    let r := if f.dims = 0 then e.d else f.dims
    let cs ← (List.range (r / 2)).mapM fun k => ropePair c f r ((e.pos + p) % 2 ^ 32) k
    return row.zipIdx.map fun (v, i) =>
      if r ≤ i then v
      else
        let (k, first) := if f.pair then (i / 2, i % 2 == 0) else (i % (r / 2), decide (i < r / 2))
        let other := lget row (if f.pair then (if first then i + 1 else i - 1)
          else if first then i + r / 2 else i - r / 2) .nan
        let (co, si) := lget cs k (.nan, .nan)
        if first then f32sub c.away (f32mul c.away v co) (f32mul c.away other si)
        else f32add c.away (f32mul c.away other si) (f32mul c.away v co)

/-! ### Appending (R307, R320, R325) -/

/-- The scale of a stored row: amax ÷ Dmax rounded towards +∞ in FP32, 1.0 without a finite non-zero element. -/
def rowScale (f : Fmt) (row : List Fp) : Fp :=
  let amax := (row.filter Fp.isFin).foldl (fun m x => if Fp.lt m x.abs then x.abs else m) Fp.zero
  if amax.isZero then Fp.one
  else
    let q := f32div false amax f.dmax
    if Fp.le amax (Fp.mul q f.dmax) then q else Fp.of32 (q.bits32 + 1)

/-- Write one key or value row: its elements at `dva`, its scale at `sdva`. These bytes stand whatever becomes of the
step (R160). -/
def storeRow (c : Ctx) (f : Fmt) (dva sdva : Nat) (row : List Fp) : Acc Unit := do
  if f.scaled then
    let s := rowScale f row
    let _ ← wr c.who sdva (toBytes 4 s.bits32)
    let _ ← wr c.who dva (packRow f c.away (row.map fun x => f32div c.away x s))
    return ()
  else
    let _ ← wr c.who dva (packRow f c.away row)
    return ()

/-- Append one head of one new row of an item at position `p`. -/
def appendHead (c : Ctx) (f : AttFields) (e : SeqEntry) (p h : Nat) (ks vs : List Fp) : Acc Unit := do
  let b := e.slot p / 64
  let r := e.slot p % 64
  let base := e.block f.layer b + h * (e.rk + e.rv)
  let sbase := e.scaleBlock f.layer b + h * 512
  let k ← rotate c f e p ks
  storeRow c e.kf (base + r * e.d * e.kf.bits / 8) (sbase + r * 4) k
  storeRow c e.vf (base + e.rk + r * e.d * e.vf.bits / 8) (sbase + 256 + r * 4) vs

/-- Append every new row of an item whose rows begin at `dva`. -/
def appendItem (c : Ctx) (f : AttFields) (i : AttItem) (dva : Nat) : Acc Unit := do
  let e := i.e
  let pitch := padded f.nf (2 * e.h * e.d)
  forEach (List.range i.n) fun r => do
    let bs ← rd c.who (dva + r * pitch) (f.nf.rowBytes (2 * e.h * e.d))
    let row := elems f.nf (ofBytes bs) (2 * e.h * e.d)
    let p := e.length + r
    touchBlock c.who e f.layer (e.slot p / 64)
    forEach (List.range e.h) fun h =>
      appendHead c f e p h ((row.drop (h * e.d)).take e.d) ((row.drop ((e.h + h) * e.d)).take e.d)

/-- Running sums of row bytes: where each item's rows begin. -/
def rowStarts (items : List AttItem) (bytes : AttItem → Nat) : List Nat :=
  (items.foldl (fun (p : List Nat × Nat) i => (p.1 ++ [p.2], p.2 + i.n * bytes i)) ([], 0)).1

/-- The step starts to run on its items' entries as they stand (R313, R319); it waits for the edits of them that were
admitted before. -/
def attStart (c : Ctx) (f : AttFields) : Acc AttRun := do
  let items ← attItems c f
  let s ← get
  if items.any fun i => s.wk.seqJobs.any fun j => bitsAt j.2.toNat 0 16 == i.seq then throw (.blocked 0 false)
  else
    let sts := itemStatuses s c f items
    let r : AttRun := { work := c.work, step := c.idx, items := items, append := f.append, advance := f.advance,
                        split := s.reg Reg.attCtrlSplitClass, verdict := itemVerdict items sts }
    let s := s.bump Reg.attStatusBusyCnt (sts.count stSeqBusy)
    set { s with att := { s.att with runs := s.att.runs ++ [r] } }
    return r

/-- The run of a share's ATTENTION step. -/
def State.attRun? (s : State) (work step : Nat) : Option AttRun := s.att.runs.find? fun r => r.work == work && r.step == step

/-- Change it. -/
def State.mapAtt (s : State) (work step : Nat) (f : AttRun → AttRun) : State :=
  { s with att := { s.att with runs := s.att.runs.map fun r => if r.work = work && r.step = step then f r else r } }

/-- Append every item's new rows. -/
def appendAll (c : Ctx) (f : AttFields) (items : List AttItem) : Acc Unit :=
  forEach (List.zip items (rowStarts items fun i => padded f.nf (2 * i.e.h * i.e.d))) fun p =>
    appendItem c f p.1 (f.new + p.2)

/-- A share of an ATTENTION begins: the first one writes the new rows of every item before any query row reads them (R320).
A step that cannot be checked or written fails on every tile (R308, R319). -/
def attBegins (c : Ctx) : Acc Unit := do
  match (← get).attRun? c.work c.idx with
  | none => return ()
  | some r =>
    match r.verdict with
    | some (st, dt) => throw (.status st dt)
    | none =>
      if r.append && !r.appended then
        tryCatch (appendAll c (attFields c.d) r.items) fun x => do
          match x with
          | .status st dt => modify fun s => s.mapAtt c.work c.idx fun r => { r with verdict := some (st, dt) }
          | .blocked _ _ => pure ()
          throw x
        modify fun s => s.mapAtt c.work c.idx fun r => { r with appended := true }

/-! ### Work items (R326 to R328) -/

/-- A row block of a key-value head of an item, over some of the blocks of its key span. -/
structure AttPiece where
  item : Nat
  head : Nat
  block : Nat
  part : Nat
  parts : Nat
  deriving DecidableEq, Repr

/-- First and last position block of the item's key span, if any position is visible (R327). -/
def keySpan (f : AttFields) (i : AttItem) : Option (Nat × Nat) :=
  let e := i.e
  let vis := if f.append then e.length + i.n else e.length
  let lo := if f.mask = 2 then e.length + 1 - f.window else 0
  if vis = 0 || vis ≤ lo then none else some (lo / 64, (vis - 1) / 64)

/-- BK. -/
def spanBlocks (sp : Option (Nat × Nat)) : Nat :=
  match sp with
  | some (a, b) => b + 1 - a
  | none => 0

/-- ⌈log2 BK⌉, 0 for at most one block. -/
def lengthClass (bk : Nat) : Nat := if bk ≤ 1 then 0 else Nat.log2 (bk - 1) + 1

/-- Key parts of an item's heads (R328). -/
def keyParts (f : AttFields) (split bk : Nat) : Nat :=
  let c := lengthClass bk
  if f.bucket && split < c then min 16 (2 ^ (c - split)) else 1

/-- Row blocks of a head. -/
def rowBlocks (f : AttFields) (i : AttItem) : Nat := cdiv (f.heads / i.e.h * i.n) 64

/-- The step's work items, in order (R328). -/
def attPieces (f : AttFields) (split : Nat) (items : List AttItem) : List AttPiece :=
  let one := fun (p : AttItem × Nat) =>
    let parts := keyParts f split (spanBlocks (keySpan f p.1))
    (List.range p.1.e.h).flatMap fun h => (List.range (rowBlocks f p.1)).flatMap fun b =>
      (List.range parts).map fun k => ({ item := p.2, head := h, block := b, part := k, parts := parts } : AttPiece)
  let cls := fun (p : AttItem × Nat) => lengthClass (spanBlocks (keySpan f p.1))
  if f.bucket then ((List.range 33).reverse.flatMap fun k => items.zipIdx.filter fun p => cls p == k).flatMap one
  else items.zipIdx.flatMap one

/-- The rank that runs work item `k` (R326). -/
def pieceRank (f : AttFields) (items : List AttItem) (k n : Nat) : Nat :=
  if items.all fun i => f.heads / i.e.h * i.n ≤ 8 then k % n else k / 4 % n

/-! ### Scores and softmax (R323, R324) -/

/-- m, l and o of one query row. -/
structure Soft where
  m : Fp
  l : Fp
  o : List Fp
  deriving DecidableEq, Repr

/-- Before any block. -/
def softStart (d : Nat) : Soft := { m := .inf true, l := Fp.zero, o := List.replicate d Fp.zero }

/-- The product format (R323). -/
def SeqEntry.product (e : SeqEntry) : Fmt := if e.kf == .fp16 || e.vf == .fp16 then .fp16 else .bf16

/-- A value rounded into the product format. -/
def round16 (away : Bool) (f : Fmt) (v : Fp) : Fp := f.decode (f.encode away v)

/-- Exact products summed in FP32 in ascending order, one rounding each (R237). -/
def dot16 (away : Bool) (as bs : List Fp) : Fp :=
  (List.zip as bs).foldl (fun g p => f32add away g (f32mul away p.1 p.2)) Fp.zero

/-- Keys, values and scales of one head in one block. -/
structure KvBlock where
  first : Nat
  ks : List (List Fp)
  vs : List (List Fp)
  sk : List Fp
  sv : List Fp
  deriving DecidableEq, Repr

/-- Read position block `b` of a head (R308: whole). -/
def readBlock (c : Ctx) (f : AttFields) (e : SeqEntry) (h b : Nat) : Acc KvBlock := do
  let sb := e.slot (64 * b) / 64
  touchBlock c.who e f.layer sb
  let base := e.block f.layer sb + h * (e.rk + e.rv)
  let kr ← rdNat c.who base e.rk
  let vr ← rdNat c.who (base + e.rk) e.rv
  let sdva := e.scaleBlock f.layer sb + h * 512
  let sk ← if e.kf.scaled then rdNat c.who sdva 256 else pure 0
  let sv ← if e.vf.scaled then rdNat c.who (sdva + 256) 256 else pure 0
  let rows := fun (x : Fmt) (n : Nat) => (List.range 64).map fun r =>
    (List.range e.d).map fun i => elem x n (r * e.d + i)
  let scs := fun (x : Fmt) (sc : Nat) => (List.range 64).map fun r =>
    if x.scaled then Fp.of32 (bitsAt sc (32 * r) 32) else Fp.one
  return { first := 64 * b, ks := rows e.kf kr, vs := rows e.vf vr, sk := scs e.kf sk, sv := scs e.vf sv }

/-- Position `j` is visible and allowed for query row `r` of the item (R320). -/
def attAllowed (f : AttFields) (i : AttItem) (r j : Nat) : Bool :=
  let e := i.e
  let p := e.length + r
  j < (if f.append then e.length + i.n else e.length) &&
    match f.mask with
    | 0 => true
    | 1 => j ≤ p
    | _ => decide (j ≤ p) && decide (p < j + f.window)

/-- The score scale (R315). -/
def attScale (f : AttFields) (e : SeqEntry) : Fp :=
  if f.scale.isZero then
    (if e.d = 64 then .fin false 1 (-3) else if e.d = 128 then Fp.of32 0x3DB504F3 else .fin false 1 (-4))
  else f.scale

/-- One block of the online softmax for query row `r` with query `q` (R323). The sum of p is formed in a free order. -/
def softBlock (c : Ctx) (f : AttFields) (i : AttItem) (r : Nat) (q : List Fp) (b : KvBlock) (st : Soft) : Acc Soft := do
  let e := i.e
  let sc := (List.range 64).map fun t =>
    if attAllowed f i r (b.first + t) then
      f32mul c.away (f32mul c.away (dot16 c.away q (lget b.ks t [])) (lget b.sk t Fp.one)) (attScale f e)
    else .inf true
  let m2 := sc.foldl f32max st.m
  if m2 = .inf true then return st
  else
    let k ← specials c .exp [f32sub c.away st.m m2]
    let ps ← specials c .exp (sc.map fun x => f32sub c.away x m2)
    let order ← freeOrder ps ps.length
    let k := k.headD .nan
    let l := f32add c.away (f32mul c.away st.l k) (order.foldl (f32add c.away) Fp.zero)
    let ws := List.zipWith (fun p v => round16 c.away e.product (f32mul c.away p v)) ps b.sv
    let o := st.o.zipIdx.map fun (x, n) =>
      f32add c.away (f32mul c.away x k) (dot16 c.away ws (b.vs.map fun row => lget row n Fp.zero))
    return { m := m2, l := l, o := o }

/-- Merge two parts (R324); two parts with nothing allowed leave nothing allowed. -/
def softMerge (c : Ctx) (a b : Soft) : Acc Soft := do
  if a.m = .inf true && b.m = .inf true then return a
  else
    let m := f32max a.m b.m
    let ka ← specials c .exp [f32sub c.away a.m m]
    let kb ← specials c .exp [f32sub c.away b.m m]
    let (ka, kb) := (ka.headD .nan, kb.headD .nan)
    return { m := m, l := f32add c.away (f32mul c.away a.l ka) (f32mul c.away b.l kb)
             o := List.zipWith (fun x y => f32add c.away (f32mul c.away x ka) (f32mul c.away y kb)) a.o b.o }

/-- The query of head `q` of row `r`, rotated and rounded into the product format. -/
def readQuery (c : Ctx) (f : AttFields) (i : AttItem) (start r q : Nat) : Acc (List Fp) := do
  let e := i.e
  let w := f.qf.rowBytes e.d
  let bs ← rd c.who (f.q + start + r * padded f.qf (f.heads * e.d) + q * w) w
  let row ← rotate c f e (e.length + r) (elems f.qf (ofBytes bs) e.d)
  return row.map (round16 c.away e.product)

/-- The (query row, query head) pairs of a row block (R326). -/
def AttPiece.pairs (p : AttPiece) (f : AttFields) (i : AttItem) : List (Nat × Nat) :=
  let g := f.heads / i.e.h
  (List.range (min 64 (g * i.n - 64 * p.block))).map fun k => ((64 * p.block + k) / g, p.head * g + (64 * p.block + k) % g)

/-- One key part of a row block, over its blocks of the key span (R328), for the given query rows. -/
def attPart (c : Ctx) (f : AttFields) (i : AttItem) (p : AttPiece) (qs : List (Nat × List Fp)) : Acc (List Soft) := do
  let init := qs.map fun _ => softStart i.e.d
  match keySpan f i with
  | none => return init
  | some (lo, hi) =>
    let bk := hi + 1 - lo
    let a := p.part * bk / p.parts
    let z := (p.part + 1) * bk / p.parts
    ((List.range (z - a)).map fun k => lo + a + k).foldlM (fun sts b => do
      let kv ← readBlock c f i.e p.head b
      (List.zip qs sts).mapM fun x => softBlock c f i x.1.1 x.1.2 kv x.2) init

/-- m, l and o of query rows as they travel to the tile of part 0. -/
def softWords (l : List Soft) : List (BitVec 32) :=
  l.flatMap fun x => (x.m :: x.l :: x.o).map fun v => BitVec.ofNat 32 v.bits32

/-- Read them back, for rows of `d` elements. -/
def softsOf (d : Nat) (l : List (BitVec 32)) : List Soft :=
  (chunks (d + 2) (l.map fun x => Fp.of32 x.toNat) l.length).map fun r =>
    { m := lget r 0 .nan, l := lget r 1 .nan, o := r.drop 2 }

/-- Merge the parts of every row in a free order (R324). -/
def mergeParts (c : Ctx) (parts : List (List Soft)) : Acc (List Soft) := do
  let order ← freeOrder parts parts.length
  match order with
  | [] => return []
  | p :: rest => rest.foldlM (fun acc q => (List.zip acc q).mapM fun x => softMerge c x.1 x.2) p

/-- The output of one query row (R323). -/
def softOut (away : Bool) (s : Soft) : List Fp :=
  if s.l.isZero then s.o.map fun _ => Fp.zero else s.o.map fun x => f32div away x s.l

/-- Every output row is a whole number of 256-byte blocks (R298). -/
def AttFields.rowsWhole (f : AttFields) (items : List AttItem) : Bool :=
  items.all fun i => Machine.rowsWhole f.o (padded f.of (f.heads * i.e.d)) (f.of.rowBytes (f.heads * i.e.d))

/-- First output row of every item. -/
def itemRows (items : List AttItem) : List Nat := rowStarts items fun _ => 1

/-- The work items of a step (R326, R328): each key part of a row block, and the block's end at the tile of part 0. Where
rows differ in length the output is one slab. -/
def attItemsOf (f : AttFields) (r : AttRun) (n : Nat) : List PlanItem :=
  let even := r.items.all fun i => some i.e.d == (r.items.head?.map fun j => j.e.d)
  let one := fun (q : AttPiece × Nat) =>
    let (p, k) := q
    let no := k - p.part
    let part : PlanItem :=
      { no := no, rank := pieceRank f r.items k n, part := p.part, drains := false, lo := 0, hi := 0 }
    if p.part + 1 < p.parts then [part]
    else
      let rows := match r.items[p.item]? with
        | some i => (p.pairs f i).map fun (y : Nat × Nat) => lget (itemRows r.items) p.item 0 + y.1
        | none => []
      [part, { no := no, rank := pieceRank f r.items no n, drains := true, lo := if even then rows.headD 0 else 0,
               hi := if even then rows.getLastD 0 + 1 else 1 }]
  (attPieces f r.split r.items).zipIdx.flatMap one

/-- The division of an ATTENTION. -/
def attPlan (c : Ctx) : Acc Division := do
  let f := attFields c.d
  let r ← attStart c f
  let pitch := match r.items with
    | i :: _ => padded f.of (f.heads * i.e.d)
    | [] => 0
  return { base := f.o, pitch := pitch, items := if r.verdict.isSome then [] else attItemsOf f r c.n }

/-- A key part of a row block: m, l and o of its rows go to the tile of part 0. -/
def attPartRun (c : Ctx) (f : AttFields) (r : AttRun) (i : AttItem) (p : AttPiece) (x : PlanItem) : Acc Unit := do
  let start := lget (rowStarts r.items fun i => padded f.qf (f.heads * i.e.d)) p.item 0
  let qs ← (p.pairs f i).mapM fun q => do
    let v ← readQuery c f i start q.1 q.2
    return (q.1, v)
  let sts ← attPart c f i p qs
  modify fun s => s.mapWork c.work fun w =>
    w.partArrives c.idx x.no (lget w.on (pieceRank f r.items x.no c.n) c.tile) (x.no % 4) x.part (softWords sts)

/-- A row block ends: its parts are merged and its output, one unit, is written (R160, R324). -/
def attDrain (c : Ctx) (f : AttFields) (r : AttRun) (i : AttItem) (p : AttPiece) (x : PlanItem) : Acc Unit := do
  match ((← get).work? c.work).bind fun w => w.block? c.idx x.no with
  | none => return ()
  | some b =>
    let sts ← mergeParts c (b.parts.map fun (q : Nat × List (BitVec 32)) => softsOf i.e.d q.2)
    let pitch := padded f.of (f.heads * i.e.d)
    let start := lget (rowStarts r.items fun i => padded f.of (f.heads * i.e.d)) p.item 0
    let c := { c with who := { c.who with partOk := f.rowsWhole r.items } }
    forEach (List.zip (p.pairs f i) sts) fun y =>
      writeAt c f.of f.o (start + y.1.1 * pitch) (y.1.2 * i.e.d) (softOut c.away y.2)
    modify fun s => s.mapWork c.work fun w => { w with blocks := w.blocks.filter fun y => y != b }

/-- A work item of an ATTENTION. -/
def attItemRun (c : Ctx) (x : PlanItem) : Acc Unit := do
  let f := attFields c.d
  match (← get).attRun? c.work c.idx with
  | none => return ()
  | some r =>
    match (attPieces f r.split r.items)[x.no + x.part]? with
    | none => return ()
    | some p =>
      match r.items[p.item]? with
      | none => return ()
      | some i => if x.drains then attDrain c f r i p x else attPartRun c f r i p x

/-- A row block ends only when every part of it has arrived. -/
def attReady (s : State) (c : Ctx) (x : PlanItem) : Bool :=
  !x.drains || (match s.attRun? c.work c.idx, s.work? c.work with
    | some r, some w =>
      match (attPieces (attFields c.d) r.split r.items)[x.no]? with
      | some p => (w.block? c.idx x.no).any fun b => b.parts.length == p.parts
      | none => true
    | _, _ => true)

/-- ATTENTION (R315 to R328). -/
def attKind : Kind := { check := attCheck, plan := attPlan, begins := attBegins, run := attItemRun, ready := attReady }

/-- The step has completed with OK on every tile: LENGTH grows (R321). -/
def attDone (who : Who) (r : AttRun) : Acc Unit := do
  if r.advance then
    forEach r.items fun i => do
      let s ← get
      let _ ← wr who (s.seqDva i.seq + 16) (toBytes 4 (i.e.length + i.n))
      return ()

/-- An ATTENTION step no longer runs. -/
def State.attOver (s : State) (work step : Nat) : State :=
  { s with att := { s.att with runs := s.att.runs.filter fun r => !(r.work == work && r.step == step) } }

end Sys2Proof.Machine
end

