-- ==== Sys2Proof/Machine/Keccak.lean ====
section
/-! DEFINITION. SHAKE256 and KMAC256, which 16_study.md and 17_security.md name for digests, proofs and tags. The manual names
the functions and not their steps: these are those of FIPS 202 and SP 800-185 (PRESUMED, assumption 18). -/

namespace Sys2Proof.Machine

/-- A lane of the permutation's state, which holds 25: lane (x, y) stands at 5y + x. -/
abbrev Lane := BitVec 64

/-- Lane (x, y), coordinates modulo 5. -/
def laneAt (a : List Lane) (x y : Nat) : Lane := lget a (5 * (y % 5) + x % 5) 0

/-- Build a state from its lanes. -/
def lanes (f : Nat → Nat → Lane) : List Lane := (List.range 25).map fun i => f (i % 5) (i / 5)

/-- Step theta. -/
def theta (a : List Lane) : List Lane :=
  let c := (List.range 5).map fun x => (List.range 5).foldl (fun s y => s ^^^ laneAt a x y) 0
  let d := (List.range 5).map fun x => lget c ((x + 4) % 5) 0 ^^^ (lget c ((x + 1) % 5) 0).rotateLeft 1
  lanes fun x y => laneAt a x y ^^^ lget d x 0

/-- Rotation of each lane in step rho, in the order of the lanes. -/
def rhoShifts : List Nat :=
  [0, 1, 62, 28, 27, 36, 44, 6, 55, 20, 3, 10, 43, 25, 39, 41, 45, 15, 21, 8, 18, 2, 61, 56, 14]

/-- Steps rho and pi. -/
def rhoPi (a : List Lane) : List Lane :=
  lanes fun x y =>
    let x' := (x + 3 * y) % 5
    (laneAt a x' x).rotateLeft (lget rhoShifts (5 * x + x') 0)

/-- Step chi. -/
def chi (a : List Lane) : List Lane :=
  lanes fun x y => laneAt a x y ^^^ (~~~(laneAt a (x + 1) y) &&& laneAt a (x + 2) y)

/-- Constants of step iota. -/
def iotas : List Lane :=
  [0x0000000000000001, 0x0000000000008082, 0x800000000000808A, 0x8000000080008000, 0x000000000000808B, 0x0000000080000001,
   0x8000000080008081, 0x8000000000008009, 0x000000000000008A, 0x0000000000000088, 0x0000000080008009, 0x000000008000000A]
  ++ [0x000000008000808B, 0x800000000000008B, 0x8000000000008089, 0x8000000000008003, 0x8000000000008002,
      0x8000000000000080, 0x000000000000800A, 0x800000008000000A, 0x8000000080008081, 0x8000000000008080,
      0x0000000080000001, 0x8000000080008008]

/-- The permutation Keccak-f[1600]. -/
def keccakF (a : List Lane) : List Lane :=
  iotas.foldl (fun a c =>
    let b := chi (rhoPi (theta a))
    lset b 0 (lget b 0 0 ^^^ c)) a

/-- Bytes absorbed at a time at capacity 512. -/
def shakeRate : Nat := 136

/-- A block of bytes added to the state. -/
def absorb (a : List Lane) (block : List Byte) : List Lane :=
  (List.range 25).map fun i => lget a i 0 ^^^ BitVec.ofNat 64 (ofBytes ((block.drop (8 * i)).take 8))

/-- Absorb a padded message, block by block; `fuel` bounds the blocks. -/
def absorbAll (a : List Lane) (bs : List Byte) : Nat → List Lane
  | 0 => a
  | fuel + 1 => if bs.isEmpty then a else absorbAll (keccakF (absorb a (bs.take shakeRate))) (bs.drop shakeRate) fuel

/-- Squeeze `n` bytes, in blocks; `fuel` bounds the blocks. -/
def squeeze (a : List Lane) (n : Nat) : Nat → List Byte
  | 0 => []
  | fuel + 1 =>
    let block := (a.flatMap fun l => toBytes 8 l.toNat).take shakeRate
    if n ≤ shakeRate then block.take n else block ++ squeeze (keccakF a) (n - shakeRate) fuel

/-- The sponge with a domain suffix byte. -/
def sponge (suffix : Byte) (msg : List Byte) (n : Nat) : List Byte :=
  let m := msg ++ [suffix]
  let m := m ++ List.replicate ((shakeRate - m.length % shakeRate) % shakeRate) 0
  let last := m.length - 1
  let m := lset m last (lget m last 0 ||| 0x80)
  squeeze (absorbAll (List.replicate 25 0) m (m.length / shakeRate)) n (n / shakeRate + 1)

/-- SHAKE256 of a message, `n` bytes. -/
def shake256 (msg : List Byte) (n : Nat) : List Byte := sponge 0x1F msg n

/-- The bytes of a number, big-endian, at least one; a number below 2^16 is encoded. -/
def shortBytes (x : Nat) : List Byte :=
  if x < 256 then [BitVec.ofNat 8 x] else [BitVec.ofNat 8 (x / 256), BitVec.ofNat 8 x]

/-- left_encode. -/
def leftEncode (x : Nat) : List Byte := BitVec.ofNat 8 (shortBytes x).length :: shortBytes x

/-- right_encode. -/
def rightEncode (x : Nat) : List Byte := shortBytes x ++ [BitVec.ofNat 8 (shortBytes x).length]

/-- encode_string. -/
def encodeString (bs : List Byte) : List Byte := leftEncode (8 * bs.length) ++ bs

/-- bytepad to the rate. -/
def bytepad (bs : List Byte) : List Byte :=
  let z := leftEncode shakeRate ++ bs
  z ++ List.replicate ((shakeRate - z.length % shakeRate) % shakeRate) 0

/-- The ASCII bytes of a label. -/
def ascii (s : String) : List Byte := s.toList.map fun c => BitVec.ofNat 8 c.toNat

/-- KMAC256 with 256 bits of output. -/
def kmac256 (key msg : List Byte) (label : String) : List Byte :=
  let head := bytepad (encodeString (ascii "KMAC") ++ encodeString (ascii label))
  sponge 0x04 (head ++ bytepad (encodeString key) ++ msg ++ rightEncode 256) 32

end Sys2Proof.Machine
end

