-- ==== Sys2Proof/Machine/Place.lean ====
section
/-! DEFINITION. Placing pages: the walk of a range, the hint classes and their homes, free frames, moves within the device
and to another one, and the requests of PLACE descriptors and MIGRATE steps (08_memory_tiers.md R272 to R284, R302, R662;
18_party_wall.md R584 to R586). -/

namespace Sys2Proof.Machine

/-! ### Homes that a class searches (R274, R275; 19_fusebox.md R614) -/

/-- Slices that take placements: not withdrawn. -/
def State.sliceOk (s : State) (n : Nat) : Bool := !s.flag (Reg.fbLoftWithdrawn.ix n)

/-- DEED_LOFT_SET, ascending; 0 stands for all slices. -/
def State.loftSet (s : State) : List Nat :=
  let m := s.reg Reg.deedLoftSetSet
  ((List.range 18).filter fun n => m == 0 || m.testBit n).filter s.sliceOk

/-- The two Loft slices that hold the shadow and spill area, ascending (01_house_plan.md R28). -/
def State.spareSlices (s : State) : List Nat := (List.range 18).filter fun n => !s.fd.slices.contains n

/-- The slice that holds the Deed shadow: the first of the two (R285). -/
def State.shadowSlice (s : State) : Nat := lget s.spareSlices 0 16

/-- The slices of SLEEPER. -/
def State.sleeperSet (s : State) : List Nat :=
  ((List.range 18).filter fun n => (s.reg Reg.pwrRetainSlices).testBit n || n == s.shadowSlice).filter s.sliceOk

/-- Fitted Cellar channels as homes. -/
def State.cellarSet (s : State) : List Nat := s.celChannels.map fun c => c + 18

/-- A set in search order: from its member `page mod size` on, ascending and wrapping. -/
def spread (l : List Nat) (page : Nat) : List Nat := if l.isEmpty then [] else l.rotateLeft (page % l.length)

/-- A target, then the set's members above it, then those below. -/
def fromTarget (target : Nat) (l : List Nat) : List Nat :=
  target :: (l.filter fun h => target < h) ++ l.filter fun h => h < target

/-- Where a class sends a page: homes of this device in search order, or another member of the job. -/
inductive Aim where
  | homes (l : List Nat)
  | device (pos job : Nat)
  deriving DecidableEq, Repr

/-- The search of a class for a UPA page (R274, R275, R584). -/
def State.aim (s : State) (cls arg page : Nat) : Aim :=
  let loft := spread s.loftSet page
  match cls with
  | 2 => .homes (spread s.cellarSet page)
  | 3 =>
    if s.present arg then
      let n := s.ptile arg
      .homes (if s.sliceOk n then fromTarget n s.loftSet
        else (s.loftSet.filter fun h => n < h) ++ s.loftSet.filter fun h => h < n)
    else .homes loft
  | 5 => .homes (spread s.sleeperSet page)
  | 6 =>
    let j := s.reg (Reg.pwPhaseJob.ix arg)
    let base := s.reg (Reg.pwJob1Base.ix j)
    if !s.fuses.links || s.reg (Reg.pwJob0State.ix j) ≠ 2 || page < base || base + s.reg (Reg.pwJob2Pages.ix j) ≤ page then
      .homes loft
    else
      let k := ((page - base) >>> s.reg (Reg.pwPhaseGrainLog2.ix arg)) % (s.reg (Reg.pwPhaseNdevM1.ix arg) + 1)
      let dev := bitsAt (s.reg (Reg.pwPhaseDev.ix arg)) (2 * k) 2
      if dev ≠ s.reg Reg.pwIdPos then .device dev j
      else if s.flag (Reg.pwPhaseTier.ix arg) then
        .homes (match spread s.cellarSet page with
          | h :: _ => fromTarget h s.loftSet
          | [] => s.loftSet)
      else .homes loft
  | _ => .homes loft

/-! ### Free frames -/

/-- Frames of a home that are in use: held by pages, destinations of moves, arriving pages, and frames that FAILED pages
held (R302). -/
def State.usedFrames (s : State) (home : Nat) : List Nat :=
  let pages := s.deed.entries.filterMap fun e =>
    let d := e.2.toNat
    if dHome d == home && dState d != 0 && dState d != 5 then some (dFrame d) else none
  let moves := s.deed.moves.filterMap fun m => if m.home == home && !m.remote then some m.frame else none
  let coming := s.pw.incoming.filterMap fun i => if i.home == home && !i.committed then some i.frame else none
  let lost := s.deed.lost.filterMap fun l => if l.1 == home then some l.2 else none
  (pages ++ moves ++ coming ++ lost).foldl sins []

/-- Free frames of a home. -/
def State.freeFrames (s : State) (home : Nat) : Nat := s.homeFrames home - (s.usedFrames home).length

/-- The `k`-th number that an ascending list leaves out. -/
def nthOut (used : List Nat) (k : Nat) : Nat := used.foldl (fun a u => if u ≤ a then a + 1 else a) k

/-- Take a free frame of a home: which one is free for the hardware to choose. -/
def State.takeFrame (s : State) (home : Nat) : Nat × State :=
  let (k, s) := s.fresh
  (nthOut (s.usedFrames home) (Config.freeNat k % max 1 (s.freeFrames home)), s)

/-! ### Pages -/

/-- A homed page behaves as SCRUB_PENDING (R271). -/
def State.scrubView (s : State) (e : Nat) : Bool := dState e == 3 || dEpoch e != s.epoch

/-- Change the request of a number. -/
def State.mapPlace (s : State) (id : Nat) (f : PlaceJob → PlaceJob) : State :=
  { s with wk := { s.wk with places := s.wk.places.map fun (p : PlaceJob) => if p.id = id then f p else p } }


/-- What one page of a range comes to: the request, the state, or a stall (the page is in MOVING or ZEROING, or a limit of
R279 is reached). -/
abbrev Placed := Option (State × PlaceJob)

/-- Zero a page at once (R273, mode 3): it enters ZEROING. -/
def State.beginZero (s : State) (p : PlaceJob) (page idx e : Nat) : State × PlaceJob :=
  let s := s.setDeed page (putBits e 5 3 4)
  ({ s with deed := { s.deed with zeroJobs := s.deed.zeroJobs ++ [(page, p.id, idx)] } }, { p with moves := p.moves + 1 })

/-- An entry with the request's class and argument. -/
def PlaceJob.marked (p : PlaceJob) (e : Nat) : Nat := putBits (putBits e 8 3 p.cls) 11 5 p.arg

/-- Give an UNHOMED page a home (R273), or, when its target is another device of the job, let its entry name that device
(R580). -/
def State.homePage (s : State) (p : PlaceJob) (page idx : Nat) : Placed :=
  let e := p.marked (s.deedOf page)
  match s.aim p.cls p.arg page with
  | .device pos _ =>
    let s := s.setDeed page (mkDeed (22 + pos) 1 p.cls p.arg s.epoch 0)
    some (s.endCondition fcMemUncorr fun r => r.unit.toNat == 3 <<< 5 && r.detail.toNat == page, p)
  | .homes l =>
    match l.find? fun h => 0 < s.freeFrames h with
    | none => some (s, { p with unplaced := p.unplaced + 1 })
    | some h =>
      let (f, s) := s.takeFrame h
      let e := mkDeed h 3 (dClass e) (dArg e) s.epoch f
      let s := (s.setDeed page e).endCondition fcMemUncorr fun r => r.unit.toNat == 3 <<< 5 && r.detail.toNat == page
      if p.mode = 3 then some (s.beginZero p page idx e) else some (s, p)

/-- Put a page into MOVING towards a frame of a home. -/
def State.beginMove (s : State) (p : PlaceJob) (page home frame idx : Nat) (remote : Bool) : State × PlaceJob :=
  let e := s.deedOf page
  let m : Move := { page := page, home := home, frame := frame, entry := BitVec.ofNat 64 e, job := some p.id, idx := idx,
                    zero := p.mode == 3 && s.scrubView e, remote := remote }
  let s := s.setDeed page (putBits (p.marked e) 5 3 2)
  ({ s with deed := { s.deed with moves := s.deed.moves ++ [m] } }, { p with moves := p.moves + 1 })

/-- Ports that are up to a board position. -/
def State.portsTo (s : State) (pos : Nat) : Nat :=
  ((List.range 4).filter fun p =>
    (let st := s.reg (Reg.pwPortState.ix p); st == 2 || st == 3) && s.reg (Reg.pwPortPeer.ix p) == pos).length

/-- Start a move to another device (R586): the page goes as 32 MOVE_DATA packets, a SCRUB_PENDING page without data. -/
def State.sendPage (s : State) (p : PlaceJob) (page pos j idx : Nat) : Placed :=
  let e := s.deedOf page
  if !s.reaches pos then some (s, { p with link := true })
  else if 512 ≤ s.deed.moves.length
      || 8 * s.portsTo pos ≤ (s.deed.moves.filter fun m => m.remote && m.home == 22 + pos).length then none
  else
    let off := dFrame e * 65536
    if s.scrubView e then
      let (s, p) := s.beginMove p page (22 + pos) 0 idx true
      some (s.sendPkt j pos { emptyPacket with type := 6, page := BitVec.ofNat 22 page }, p)
    else
      let bad := s.badIn (dHome e) off 65536
      if !bad.isEmpty then some (s.reportBad (dHome e) bad, { p with uncorr := firstOf p.uncorr idx })
      else
        let (s, p) := s.beginMove p page (22 + pos) 0 idx true
        some (s.each (List.range 32) fun s i =>
          s.sendPkt j pos { emptyPacket with type := 6, page := BitVec.ofNat 22 page, unit := BitVec.ofNat 10 (32 * i),
                                             payload := s.mediaPeek (dHome e) (off + 2048 * i) 2048 }, p)

/-- A homed page stays where it is: CLASS and ARG are updated, and mode 3 zeroes it if it is SCRUB_PENDING. -/
def State.keepPage (s : State) (p : PlaceJob) (page idx : Nat) : State × PlaceJob :=
  let e := p.marked (s.deedOf page)
  let s := s.setDeed page e
  if p.mode = 3 && s.scrubView e then
    if 18 ≤ dHome e && !s.celFitted (dHome e - 18) then (s, { p with noHome := firstOf p.noHome idx })
    else s.beginZero p page idx e
  else (s, p)

/-- A PINNED page that a request without FORCE would move stays as it was; mode 3 zeroes it if it is SCRUB_PENDING
(R276, R280) and its home is there (R661). -/
def State.refusePinned (s : State) (p : PlaceJob) (page idx : Nat) : State × PlaceJob :=
  let e := s.deedOf page
  let p := { p with pinned := true }
  if p.mode = 3 && s.scrubView e then
    if 18 ≤ dHome e && !s.celFitted (dHome e - 18) then (s, { p with noHome := firstOf p.noHome idx })
    else s.beginZero p page idx e
  else (s, p)

/-- Modes 0 and 3 on a homed page (R273 to R276). -/
def State.placeHomed (s : State) (p : PlaceJob) (page idx : Nat) : Placed :=
  let e := s.deedOf page
  let stays := p.cls == 0
  let refused := dClass e == 4 && !p.force
  let lost := 18 ≤ dHome e && !s.celFitted (dHome e - 18)
  if stays then some (s.keepPage p page idx)
  else match s.aim p.cls p.arg page with
    | .device pos j =>
      if refused then some (s.refusePinned p page idx)
      else if lost then some (s, { p with noHome := firstOf p.noHome idx })
      else s.sendPage p page pos j idx
    | .homes l =>
      -- a page moves only to a home that comes before its own in the search
      let cand := (l.takeWhile fun h => h != dHome e).filter fun h => 0 < s.freeFrames h
      match cand with
      | [] =>
        if l.contains (dHome e) then some (s.keepPage p page idx) else some (s, { p with unplaced := p.unplaced + 1 })
      | h :: _ =>
        if refused then some (s.refusePinned p page idx)
        else if lost then some (s, { p with noHome := firstOf p.noHome idx })
        else if s.rst.cellarWait && (18 ≤ dHome e || 18 ≤ h) then none
        else if 512 ≤ s.deed.moves.length || 32 ≤ (s.deed.moves.filter fun m => m.home == h).length then none
        else
          let (f, s) := s.takeFrame h
          some (s.beginMove p page h f idx false)

/-- Release a homed page: its frame returns to its free list (R273). -/
def State.releasePage (s : State) (p : PlaceJob) (page : Nat) : State × PlaceJob :=
  let e := s.deedOf page
  if dClass e == 4 && !p.force then (s, { p with pinned := true })
  else (s.setDeed page (putBits (putBits e 0 5 31) 5 3 0), p)

/-- A FAILED page (R302). -/
def State.placeFailed (s : State) (p : PlaceJob) (page idx : Nat) : Placed :=
  if !p.force || p.mode = 2 then some (s, { p with uncorr := firstOf p.uncorr idx })
  else if p.mode = 1 then some (s.setDeed page 0x1F, p)
  else s.homePage p page idx

/-- What a request does with one UPA page (R273, R302, R585, R661); `idx` is its place in the range. -/
def State.placePage (s : State) (p : PlaceJob) (page idx : Nat) : Placed :=
  let e := s.deedOf page
  let h := dHome e
  if dState e = 5 then s.placeFailed p page idx
  else if s.deedCorrupt e then (s.failEntry page).placeFailed p page idx
  else if dState e = 2 || dState e = 4 then none
  else if dState e ≠ 0 && 22 ≤ h && h ≤ 25 then some (s, p)
  else if dState e = 0 || h = 31 then
    match p.mode with
    | 1 => some (s, p)
    | 2 => some (s.setDeed page (p.marked e), p)
    | _ => s.homePage p page idx
  else
    match p.mode with
    | 1 => some (s.releasePage p page)
    | 2 => some (s.setDeed page (p.marked e), p)
    | _ => s.placeHomed p page idx

/-! ### Walking a range (R273, R662) -/

/-- What a DVA page of the range leads to. -/
inductive Leads where
  /-- A UPA page. -/
  | page (upa : Nat)
  /-- Nothing, for the pages up to the end of a span of this many pages. -/
  | skip (span : Nat)
  /-- A table that cannot be read or an entry that is rejected, over a span. -/
  | bad (status : Byte) (span : Nat)
  | held
  deriving DecidableEq, Repr

/-- Read a table entry for a walk whose entries map `span` pages each. -/
def State.walkEntry (s : State) (who : Who) (dva addr span : Nat) : State × Except Leads Nat :=
  match runAcc s (readEntry who dva addr) with
  | (s, .ok e) => (s, if bitAt e 0 then .ok e else .error (.skip span))
  | (s, .error (.status c _)) => (s, .error (.bad c span))
  | (s, .error (.blocked _ _)) => (s, .error .held)

/-- What a leaf leads to. -/
def XlatEntry.leads (x : XlatEntry) (dvaPage : Nat) : Leads :=
  let e := x.entry.toNat
  if x.block then .page (bitsAt e 29 9 * 8192 + dvaPage % 8192)
  else if bitAt e 3 then .skip 1
  else .page (bitsAt e 16 22)

/-- Walk to a DVA page, by the agent's cache or its own walk; a valid leaf is cached. -/
def State.placeWalk (s : State) (who : Who) (dvaPage : Nat) : State × Leads :=
  let dva := dvaPage * 65536
  if isPantry dva then (s, .skip (2 ^ 26))
  else match (tget s.xlat.caches who.agent []).find? fun x => x.covers dvaPage with
    | some x => (s.cacheLeaf who.agent x, x.leads dvaPage)
    | none =>
      let root := s.reg Reg.mmuRootLoRootLo <<< 9 + s.reg Reg.mmuRootHiRootHi <<< 32
      match s.walkEntry who dva (root + 8 * bitsAt dva 42 6) (2 ^ 26) with
      | (s, .error r) => (s, r)
      | (s, .ok e1) =>
        if bitsAt e1 1 15 != 0 || bitsAt e1 38 26 != 0 then (s, .bad stTranslationFault (2 ^ 26))
        else match s.walkEntry who dva (bitsAt e1 16 22 * 65536 + 8 * bitsAt dva 29 13) (2 ^ 13) with
          | (s, .error r) => (s, r)
          | (s, .ok e2) =>
            if bitAt e2 1 then
              if leafOk true e2 then
                let x : XlatEntry := { page := dvaPage / 8192 * 8192, entry := BitVec.ofNat 64 e2, block := true }
                (s.cacheLeaf who.agent x, x.leads dvaPage)
              else (s, .bad stTranslationFault (2 ^ 13))
            else if bitsAt e2 1 15 != 0 || bitsAt e2 38 26 != 0 then (s, .bad stTranslationFault (2 ^ 13))
            else match s.walkEntry who dva (bitsAt e2 16 22 * 65536 + 8 * bitsAt dva 16 13) 1 with
              | (s, .error r) => (s, r)
              | (s, .ok e3) =>
                if leafOk false e3 then
                  let x : XlatEntry := { page := dvaPage, entry := BitVec.ofNat 64 e3, block := false }
                  (s.cacheLeaf who.agent x, x.leads dvaPage)
                else (s, .bad stTranslationFault 1)

/-- The request goes on to its first page at or after the end of a span. -/
def PlaceJob.past (p : PlaceJob) (span : Nat) : PlaceJob :=
  let page := (p.base.toNat / 65536 + p.pos) % 2 ^ 32
  { p with pos := p.pos + cdiv ((page / span + 1) * span - page) p.stride * p.stride }

/-- Note a failed table or entry. -/
def PlaceJob.noteBad (p : PlaceJob) (status : Byte) : PlaceJob :=
  if status == stUncorrectable then { p with uncorr := firstOf p.uncorr p.pos }
  else if status == stNoHome then { p with noHome := firstOf p.noHome p.pos }
  else if status == stTranslationFault then { p with fault := firstOf p.fault p.pos }
  else { p with link := true }

/-- Whose walks a request makes: the tile's of a MIGRATE step, else the migration engine's, through the companion-die
bridge's cache (assumption 20). -/
def PlaceJob.who (p : PlaceJob) : Who :=
  match p.work with
  | some (_, t) => { agent := t }
  | none => whoBridge

/-- Handle pages of a request until it stalls or its range ends; `fuel` bounds the pages. -/
def State.runPlace (s : State) (p : PlaceJob) : Nat → State × PlaceJob
  | 0 => (s, p)
  | fuel + 1 =>
    if p.count ≤ p.pos then (s, p)
    else
      match s.placeWalk p.who ((p.base.toNat / 65536 + p.pos) % 2 ^ 32) with
      | (s, .held) => (s, p)
      | (s, .skip n) => s.runPlace (p.past n) fuel
      | (s, .bad c n) => s.runPlace ((p.noteBad c).past n) fuel
      | (s, .page u) =>
        match s.placePage p u p.pos with
        | none => (s, p)
        | some (s, p) => s.runPlace { p with pos := p.pos + p.stride } fuel

/-! ### Requests -/

/-- The request has handled every page. -/
def PlaceJob.over (p : PlaceJob) : Bool := p.count ≤ p.pos && p.moves == 0

/-- DVA bits [47:16] of a page of the range. -/
def PlaceJob.detailOf (p : PlaceJob) (i : Nat) : BitVec 32 := BitVec.ofNat 32 (p.base.toNat / 65536 + i)

/-- Status and DETAIL of a request, in the order of R662; LINK_FAILED, which that order does not name, comes before
NO_SPACE. -/
def PlaceJob.verdict (p : PlaceJob) : Byte × BitVec 32 :=
  match p.uncorr, p.noHome, p.fault with
  | some i, _, _ => (stUncorrectable, p.detailOf i)
  | none, some i, _ => (stNoHome, p.detailOf i)
  | none, none, some i => (stTranslationFault, p.detailOf i)
  | none, none, none =>
    if p.link then (stLinkFailed, 0)
    else if 0 < p.unplaced then (stNoSpace, BitVec.ofNat 32 p.unplaced)
    else if p.pinned then (stPinnedRefused, 0)
    else (stOk, 0)

/-- The earlier of two first pages. -/
def earlier (a b : Option Nat) : Option Nat :=
  match a, b with
  | some x, some y => some (min x y)
  | some x, none => some x
  | none, y => y

/-- What two ranks of one MIGRATE step met, together. -/
def PlaceJob.merge (p q : PlaceJob) : PlaceJob :=
  { p with uncorr := earlier p.uncorr q.uncorr, noHome := earlier p.noHome q.noHome, fault := earlier p.fault q.fault,
           link := p.link || q.link, unplaced := p.unplaced + q.unplaced, pinned := p.pinned || q.pinned }

/-- A PLACE descriptor that is over completes. -/
def State.endPlaces (s : State) : State :=
  s.each (s.wk.places.filter fun (p : PlaceJob) => p.over && p.ticket.isSome) fun s p =>
    let s := { s with wk := { s.wk with places := s.wk.places.filter fun (q : PlaceJob) => q.id != p.id } }
    match p.ticket with
    | some t => s.complete t p.verdict.1 p.verdict.2
    | none => s

/-- The share of a MIGRATE request runs; a request of a PLACE descriptor always goes on. A share that is stopped posts no
further moves (05_steps_and_wings.md R179). -/
def State.placeRuns (s : State) (p : PlaceJob) : Bool :=
  match p.work with
  | some (id, t) => match (s.work? id).bind fun w => w.run? t with
    | some r => r.busy
    | none => false
  | none => true

/-- Every request goes on as far as it can, in the order of admission (R277). -/
def State.placeGo (s : State) : State :=
  let s := s.each (s.wk.places.filter fun (p : PlaceJob) => p.pos < p.count && s.placeRuns p) fun s p =>
    let (s, q) := s.runPlace p (p.count - p.pos)
    s.mapPlace p.id fun _ => q
  s.endPlaces

/-- One move or zeroing of a request has ended. -/
def State.placeStep (s : State) (job : Option Nat) (f : PlaceJob → PlaceJob := id) : State :=
  match job with
  | some id => s.mapPlace id fun p => f { p with moves := p.moves - 1 }
  | none => s

/-- A new request. -/
def State.addPlace (s : State) (p : PlaceJob) : State :=
  { s with wk := { s.wk with places := s.wk.places ++ [{ p with id := s.wk.nextId }], nextId := s.wk.nextId + 1 } }

/-- The source read of a move of the request's page `i` has failed (R281). -/
def PlaceJob.failAt (p : PlaceJob) (i : Nat) : PlaceJob := { p with uncorr := firstOf p.uncorr i }

/-! ### MIGRATE (R272, R277) -/

/-- Checks of a MIGRATE step. -/
def migrateCheck (c : Ctx) : Acc (List Nat) :=
  return (if onlyFields c.d [(64, 48), (128, 32), (160, 3), (168, 5), (176, 2), (178, 1)] then [] else [1])
    ++ cause2 (c.f 64 48 % 65536 != 0 || c.f 128 32 == 0 || c.f 160 3 == 7)

/-- The rank's pages become a request: page j goes to rank j mod n. -/
def migrateRun (c : Ctx) : Acc Unit :=
  modify fun s => s.addPlace
    { id := 0, ticket := none, work := some (c.work, c.tile), step := c.idx, base := BitVec.ofNat 48 (c.f 64 48),
      count := c.f 128 32, pos := c.rank, stride := max 1 c.n, cls := c.f 160 3, arg := c.f 168 5, mode := c.f 176 2,
      force := c.b 178 }

/-- MIGRATE (R277): one work item for each rank, its request. -/
def migrateKind : Kind :=
  { check := migrateCheck
    plan := fun c => return .plain ((List.range c.n).map fun r => { no := r, rank := r, lo := 0, hi := 0 })
    run := fun c _ => migrateRun c }

/-- The MIGRATE request of a tile's share, not yet over. -/
def State.migrating (s : State) (id t : Nat) : Bool :=
  s.wk.places.any fun (p : PlaceJob) => p.work == some (id, t) && !p.over

/-- What the ranks of a MIGRATE step that are over have met together. -/
def State.migrateVerdict (s : State) (id i : Nat) : Option (Byte × BitVec 32) :=
  let l := s.wk.places.filter fun (p : PlaceJob) => (p.work.map fun w => w.1) == some id && p.step == i && p.over
  match l with
  | [] => none
  | p :: r => some (r.foldl PlaceJob.merge p).verdict

/-- The requests of a MIGRATE step that is complete on every tile, or whose list has ended, are gone once they are over. -/
def State.dropMigrates (s : State) : State :=
  { s with wk := { s.wk with places := s.wk.places.filter fun (p : PlaceJob) =>
      match p.work with
      | some (id, _) => !p.over || (match s.work? id with
          | some w => w.done ≤ p.step
          | none => false)
      | none => true } }

end Sys2Proof.Machine
end

