-- ==== Sys2Proof/Machine/Retain.lean ====
section
/-! DEFINITION. What a register holds: values that a table reads as another one, the current settings generation, and the
return of fields to their Reset column (00_scope.md R13 to R16; 15_resets_and_retention.md R491 to R497, R502, R659). -/

namespace Sys2Proof.Machine

/-! ### Values that read as others -/

/-- Clamp. -/
def clampTo' (lo hi x : Nat) : Nat := if x < lo then lo else if hi < x then hi else x

/-- A field of a word, changed. -/
def mapBits (w lo n : Nat) (f : Nat → Nat) : Nat := putBits w lo n (f (bitsAt w lo n))

/-- 0 reads as `d`. -/
def zeroAs (d x : Nat) : Nat := if x = 0 then d else x

/-- A word as the register at an aperture offset holds it: values that a register table says read as others, or that store
the nearer limit, are replaced (02_the_tick.md R42, R73; 04_rings_and_doorbells.md R155; 05_steps_and_wings.md R192;
08_memory_tiers.md R305; 10_state_streams.md R357; 12_gallery.md R410; 13_porch.md R444, R445; 14_power.md R480;
19_fusebox.md R621). -/
def normalise (off w : Nat) : Nat :=
  if off = 0x7004 then mapBits w 0 20 (clampTo' 2000 1000000)
  else if off = 0x700C then mapBits w 20 2 fun v => if v = 0 then 0 else 2
  else if off = 0x6008 then mapBits w 0 8 (zeroAs 1)
  else if 0x6100 ≤ off && off < 0x6500 && off % 8 = 4 then mapBits w 0 4 fun v => if v < 6 then 6 else v
  else if off = 0x8000 then mapBits w 0 12 (min 2048)
  else if 0x8010 ≤ off && off < 0x8020 then mapBits (mapBits w 0 7 (clampTo' 1 64)) 16 16 (zeroAs 1)
  else if off = 0x1000C then mapBits w 0 18 (zeroAs 0x3FFFF)
  else if off = 0x12008 then mapBits w 0 4 (min 14)
  else if off = 0x13008 then mapBits w 0 8 (zeroAs 1)
  else if 0x16000 ≤ off && off < 0x16060 && off % 8 = 0 then mapBits w 1 2 fun v => if v = 3 then 2 else v
  else if off = 0x16060 || off = 0x16068 then mapBits w 1 3 fun v => if 4 < v then 4 else v
  else if 0x16C00 ≤ off && off < 0x17200 && off % 32 = 28 then zeroAs 0x3F800000 w
  else if off = 0x4000 then mapBits w 4 12 (zeroAs 1)
  else if off = 0x1800C then mapBits w 0 16 (zeroAs 1)
  else if off = 0x18000 then mapBits w 3 3 fun v => if 4 < v then 1 else v
  else if off = 0x18104 then mapBits w 16 16 (zeroAs 1)
  else if off = 0x18200 || off = 0x18220 || off = 0x18240 then mapBits w 16 16 (zeroAs 1)
  else if 0x19010 ≤ off && off < 0x19030 then mapBits w 16 8 fun v => max v (bitsAt w 8 8)
  else if off = 0x2000 then mapBits (mapBits w 5 2 fun v => if v = 3 then 2 else v) 8 8 (zeroAs 1)
  else w

/-! ### Settings generations (R495 to R497) -/

/-- A slot of settings generations. -/
def State.genAt (s : State) (k : Nat) : Option Generation := (lget s.flash.gens k none)

/-- State of a slot. -/
def State.genStateAt (s : State) (k : Nat) : GenState := lget s.flash.genState k .empty

/-- Change a slot's state. -/
def State.setGenState (s : State) (k : Nat) (g : GenState) : State :=
  { s with flash := { s.flash with genState := lset s.flash.genState k g } }

/-- NUMBER of a slot; 0 when it is empty. -/
def State.genNumber (s : State) (k : Nat) : Nat :=
  match s.genAt k with
  | some g => g.number
  | none => 0

/-- The slot of the current generation: the one in TRIAL, else the SETTLED one with the higher NUMBER (R496). -/
def State.genSlot (s : State) : Option Nat :=
  match firstSat 2 fun k => s.genStateAt k == .trial with
  | some k => some k
  | none =>
    let l := (List.range 2).filter fun k => s.genStateAt k == .settled
    match l with
    | [] => none
    | [k] => some k
    | a :: b :: _ => if s.genNumber a < s.genNumber b then some b else some a

/-- The current generation. -/
def State.currentGen (s : State) : Option Generation := s.genSlot.bind s.genAt

/-- A generation whose digest or authentication fails when it is read is REJECTED (R495). -/
def State.readGens (s : State) : State :=
  s.each (List.range 2) fun s k =>
    match s.genAt k with
    | some g => if g.good then s else s.setGenState k .rejected
    | none => s

/-- A generation is in TRIAL. -/
def State.inTrial (s : State) : Bool := (List.range 2).any fun k => s.genStateAt k == .trial

/-- Code of a generation's state (R502). -/
def GenState.code : GenState → Nat
  | .empty => 0 | .staged => 1 | .trial => 2 | .settled => 3 | .rejected => 4

/-- RST_GEN, RST_TRIAL and RST_OTHER show the slots (R502, R659). -/
def State.showGens (s : State) : State :=
  let cur := s.genSlot.getD 0
  let s := s.setReg Reg.rstGenNumber (if s.genSlot.isSome then s.genNumber cur else 0)
  let s := s.setReg Reg.rstGenState (if s.genSlot.isSome then (s.genStateAt cur).code else 0)
  let s := s.setReg Reg.rstGenSlot cur
  let s := s.setFlag Reg.rstGenReverted s.flash.reverted
  let s := s.setReg Reg.rstGenStartsLeft (if s.inTrial then s.flash.startsLeft else 0)
  let s := s.setReg Reg.rstTrialTicksLeft (if s.inTrial then s.flash.ticksLeft else 0)
  let s := s.setReg Reg.rstOtherNumber (s.genNumber (1 - cur))
  s.setReg Reg.rstOtherState (s.genStateAt (1 - cur)).code

/-! ### Returning fields to their Reset column (R16, R491) -/

/-- The order of R16: none, TLR, MDR, WRM, POR. -/
def Kept.rank : Kept → Nat
  | .none => 0 | .tlr => 1 | .mdr => 2 | .wrm => 3 | .por => 4

/-- The register resets of R491. -/
inductive RegReset where
  | mdr | wrm | por
  deriving DecidableEq, Repr

/-- Its place in the order of R16. -/
def RegReset.rank : RegReset → Nat
  | .mdr => 2 | .wrm => 3 | .por => 4

/-- The word of a register in the current settings generation. -/
def State.genWord (s : State) (off : Nat) : Nat :=
  match s.currentGen with
  | some g => normalise off (((g.vals.find? fun v => v.1 == off).map fun v => v.2.toNat).getD 0)
  | none => normalise off 0

/-- What a single register's field returns to. A field that is reloaded from flash, fuses or the repair ledger stands until
that record is read again. -/
def State.fieldReset (s : State) (f : Field) : Nat :=
  match f.rst with
  | .val n => n
  | .gen => bitsAt (s.genWord f.off) f.lo f.width
  | .record => s.reg f

/-- Return the fields of the register at an offset that `p` picks. -/
def State.returnWord (s : State) (p : Field → Bool) (off : Nat) : State :=
  s.each ((Reg.fieldsAt off).filter p) fun s f => s.setReg f (s.fieldReset f)

/-- Offsets of the registers with a field whose 0, loaded from a settings generation, reads as another value. -/
def zeroReads : List Nat :=
  [0x2000, 0x4000, 0x7004, 0x1000C] ++ ((List.range 48).map fun n => 0x16C1C + 32 * n)
    ++ [0x1800C, 0x18104, 0x18200, 0x18220, 0x18240]

/-- Offsets of the registers that hold something or return to something other than 0. -/
def State.liveOffsets (s : State) : List Nat :=
  let gen := match s.currentGen with
    | some g => g.vals.map fun v => v.1
    | none => []
  (s.regs.map fun e => e.1) ++ (resetRegsLow ++ resetRegsRings ++ resetRegsHigh).map (fun e => e.1) ++ zeroReads ++ gen

/-- Return the picked fields of the picked registers. -/
def State.returnRegs (s : State) (p : Field → Bool) (q : Nat → Bool) : State :=
  s.each (s.liveOffsets.filter q) fun s off => s.returnWord p off

/-- Registers under POR, WRM and MDR, in the picked blocks: a field keeps its value when its Kept column names that reset or
a wider one (R491). -/
def State.resetRegs (s : State) (k : RegReset) (q : Nat → Bool := fun _ => true) : State :=
  s.returnRegs (fun f => f.kept.rank < k.rank) q

/-- Reload the "gen" fields of a block. -/
def State.reloadGen (s : State) (q : Nat → Bool) : State :=
  s.returnRegs (fun f => match f.rst with
    | .gen => true
    | _ => false) q

/-- The register lies in block `b` (22_register_index.md R649). -/
def inBlock (b : Nat) (off : Nat) : Bool := off / 0x1000 == b

end Sys2Proof.Machine
end

