-- ==== Sys2Proof/Machine/Porch.lean ====
section
/-! DEFINITION. The Porch: output samples, the pre-roll ring, the beam, the feed, channel states, Porch changes and the
reset of the Porch (13_porch.md R411 to R431, R440 to R444). -/

namespace Sys2Proof.Machine

/-! ### Rates and profiles (R413) -/

/-- Output rate in kHz. -/
def rateKhz : Nat → Nat
  | 0 => 8 | 1 => 16 | 2 => 24 | 3 => 32 | _ => 48

/-- Oversampling ratio of an OSR code. -/
def osrOf : Nat → Option Nat
  | 0 => some 32 | 1 => some 48 | 2 => some 64 | 3 => some 96 | 4 => some 128 | _ => none

/-- The PDM clock of a rate and an OSR lies from 0.768 to 4.8 MHz. -/
def profileValid (rate osr : Nat) : Bool :=
  match osrOf osr with
  | some n => 768 ≤ rateKhz rate * n && rateKhz rate * n ≤ 4800
  | none => false

/-- The Porch captures: enabled, and running in S0, S1 or S2 (R425). -/
def State.capturing (s : State) : Bool :=
  s.flag Reg.porCtrlEnable && s.pwr.state != .s3 && s.pwr.state != .s4 && s.pwr.aonGood && !s.rst.resetLow

/-! ### Events (R426) -/

/-- Log a ring event: 1 a Porch change applied, 2 the end of settling, 3 MUTE, 4 a channel's state, 5 a swap correction. -/
def State.porEvent (s : State) (code : Nat) (ch : Nat := 0) : State :=
  let n := s.reg Reg.porEvtCntEvtCnt
  let e := n % 64
  let s := s.setReg (Reg.porEvtLoSampleLo.ix e) s.por.sample.toNat
  let s := s.setReg (Reg.porEvtHiSampleHi.ix e) (s.por.sample.toNat >>> 32)
  let s := s.setReg (Reg.porEvtHiCode.ix e) code
  let s := s.setReg (Reg.porEvtHiCh.ix e) ch
  s.setReg Reg.porEvtCntEvtCnt (n + 1)

/-! ### Channels (R411, R412, R416 to R420) -/

/-- The wire's channel whose bits a channel takes, after swap corrections (R422). -/
def State.wireChannel (s : State) (c : Nat) : Nat :=
  if s.por.swapMap.contains (c / 2) then (if c % 2 = 0 then c + 1 else c - 1) else c

/-- PDM_CLK0 or PDM_CLK1 runs; else it is held low (R412). -/
def State.pdmClockRuns (s : State) (k : Nat) : Bool := k = 0 || s.por.profClk1

/-- The channel's clock is held low (R412). -/
def State.clockOff (s : State) (c : Nat) : Bool := !s.pdmClockRuns (c / 8)

/-- STATE of a channel. -/
def State.chState (s : State) (c : Nat) : Nat := s.reg (Reg.porChState.ix c)

/-- A channel is healthy when its STATE is OK. -/
def State.chHealthy (s : State) (c : Nat) : Bool := s.chState c == 0

/-- Too few healthy channels in the beam: an L2 fault is held (R420). A channel whose clock is held low raises none (R412), so
it does not count as missing (DEDUCED, assumption 35). -/
def State.beamCheck (s : State) : State :=
  let n := ((maskBits 16 s.por.profBeam.toNat).filter fun c => s.chHealthy c || s.chState c == 4).length
  let low := n < s.reg Reg.porCtrlMinBeam
  let s := if low && !s.por.beamFault then s.raiseAon (mkReport fcPorMic 1 0 0 true)
    else if !low && s.por.beamFault then s.endCondition fcPorMic fun r => 1 ≤ r.level && r.unit == 0
    else s
  { s with por := { s.por with beamFault := low } }

/-- A channel changes state: it is logged, and, unless its clock was stopped or started (R412), a note is raised. -/
def State.setChState (s : State) (c j : Nat) (noted : Bool := true) : State :=
  if s.chState c = j then s
  else
    let s := (s.setReg (Reg.porChState.ix c) j).porEvent 4 c
    if noted then s.noteAon fcPorMic c else s

/-- CLOCK_OFF follows CLK1_EN of the profile in force. -/
def State.clockStates (s : State) : State :=
  s.each ((List.range 8).map fun i => i + 8) fun s c =>
    if s.clockOff c then s.setChState c 4 false else if s.chState c = 4 then s.setChState c 0 false else s

/-- The wires that cannot be tested show SWAP_UNTESTABLE (R421). -/
def State.swapShow (s : State) : State :=
  s.each (List.range 8) fun s d =>
    let a := s.reg (Reg.porChTrim.ix (2 * d))
    let b := s.reg (Reg.porChTrim.ix (2 * d + 1))
    let no := (max a b) - (min a b) < 64
    (s.setFlag (Reg.porChSwapUntestable.ix (2 * d)) no).setFlag (Reg.porChSwapUntestable.ix (2 * d + 1)) no

/-! ### The pre-roll ring (R424) -/

/-- Channels of the ring, ascending. -/
def State.ringChans (s : State) : List Nat := maskBits 16 s.por.ringMask.toNat

/-- Frames that the ring holds at most. -/
def State.ringFrames (s : State) : Nat := 4194304 / (3 * max 1 s.ringChans.length)

/-- Frames that it holds now: the last ones. -/
def State.ringHeld (s : State) : Nat := s.por.beams.length

/-- Oldest sample still in the ring. -/
def State.ringOldest (s : State) : Nat := s.por.sample.toNat - s.ringHeld

/-- First byte of a sample's element for the ring's channel number `i`. -/
def State.ringAddr (s : State) (n i : Nat) : Nat :=
  n % s.ringFrames * (3 * s.ringChans.length) + 3 * i

/-- The ring's sample of a channel. -/
def State.ringSample (s : State) (n c : Nat) : Option Nat :=
  (s.ringChans.findIdx? fun x => x == c).map fun i => ofBytes (mread s.por.ring (s.ringAddr n i) 3)

/-- Write a frame. -/
def State.ringWrite (s : State) (n : Nat) (vals : List (BitVec 24)) : State :=
  let ring := s.ringChans.zipIdx.foldl (fun m (c, i) => mwrite m (s.ringAddr n i) (toBytes 3 (lget vals c 0).toNat)) s.por.ring
  { s with por := { s.por with ring := ring } }

/-! ### Samples (R414 to R417, R423, R425, R430) -/

/-- Sum over the first `n` indexes. -/
def isum (n : Nat) (f : Nat → Int) : Int := (List.range n).foldl (fun a i => a + f i) 0

/-- A quotient rounded one way or the other. -/
def roundEither (num : Int) (den : Nat) : Int :=
  let q := Int.fdiv num den
  if Int.fmod num den = 0 then q else if Config.roundUp num den then q + 1 else q

/-- A quotient as a 24-bit sample. -/
def narrow24 (num : Int) (den : Nat) : BitVec 24 :=
  let v := roundEither num den
  if -(2 ^ 23) ≤ v ∧ v < 2 ^ 23 then BitVec.ofInt 24 v else Config.outside24 v

/-! #### Decimation (R411, R414, R415) -/

/-- The bits of the sixteen channels in one PDM clock, from the eight wires at its rising and at its falling edge (R411). -/
def channelBits (c : BitVec 8 × BitVec 8) : BitVec 16 :=
  BitVec.ofNat 16 ((List.range 8).foldl (fun a d =>
    a + (b2n (c.1.getLsbD d)) <<< (2 * d) + (b2n (c.2.getLsbD d)) <<< (2 * d + 1)) 0)

/-- PDM clocks that the decimation chain looks back on at most: 321 samples of the comb and its own length. -/
def pdmDepth : Nat := 5216

/-- A bit of a channel some clocks ago as +1 or -1; nothing before the decimators' reset. -/
def pdmBit (pdm : List (BitVec 16)) (c i : Nat) : Int :=
  match pdm[i]? with
  | some w => if w.getLsbD c then 1 else -1
  | none => 0

/-- Stage 1: the comb of order `order` and ratio `r`, `i` clocks ago; its gain is r^order. -/
def comb (r : Nat) (x : Nat → Int) : Nat → Nat → Int
  | 0, i => x i
  | k + 1, i => isum r fun m => comb r x k (i + m)

/-- Lengths of stages 2, 3 and 4 on each side: any that give the chain its group delay of 20 output samples beside the comb's
own delay, which is 160 samples of the comb. -/
def stageLen (stage : Nat) : Nat :=
  let a := Config.decimLen 2 % 161
  let b := Config.decimLen 3 % ((160 - a) / 2 + 1)
  match stage with
  | 2 => a
  | 3 => b
  | _ => (160 - a - 2 * b) / 4

/-- A half-band's coefficient at a distance from its centre: none at an even distance, and half of their sum at the centre;
stage 4 is a symmetric FIR. -/
def stageTap (stage d : Nat) : Int :=
  if stage = 4 then Config.decimTap 4 d
  else if d = 0 then 2 * isum (stageLen stage + 1) fun k => if k % 2 = 1 then Config.decimTap stage k else 0
  else if d % 2 = 0 then 0
  else Config.decimTap stage d

/-- A symmetric stage over its window of inputs, oldest or newest first. -/
def stageSum (stage : Nat) (x : Nat → Int) : Int :=
  let n := stageLen stage
  isum (2 * n + 1) fun k => stageTap stage (max k n - min k n) * x k

/-- Stages 2 to 4, each of which decimates by 2, over samples of the comb, newest first. -/
def decimate (x : Nat → Int) : Int :=
  let first := 160 - stageLen 2 - 2 * stageLen 3 - 4 * stageLen 4
  stageSum 4 fun c => stageSum 3 fun b => stageSum 2 fun a => x (first + a + 2 * b + 4 * c)

/-- The output sample of a channel of the wires: a bit density d gives (2d - 1) × 2^23, saturated. -/
def decimated (pdm : List (BitVec 16)) (osr c : Nat) : BitVec 24 :=
  let r := osr / 8
  let v := roundEither (2 ^ 23 * decimate fun j => comb r (pdmBit pdm c) 5 (r * j)) (r ^ 5 * (decimate fun _ => 1).toNat)
  BitVec.ofInt 24 (max (-(2 ^ 23)) (min v (2 ^ 23 - 1)))

/-- Decimated samples that the filters of R416 look back on. -/
def historyDepth : Nat := 48

/-- A channel carries zeros: settling, muted, not OK or without a clock. -/
def State.silent (s : State) (c : Nat) : Bool :=
  1 < s.por.settle_ || s.flag Reg.porCtrlMute || !s.chHealthy c || s.clockOff c

/-- A sample after the 16-tap matched filter (coefficients with 14 fractional bits), `i` samples ago, and then delayed by
TRIM / 64 samples through the 64-phase, 8-tap interpolator (R416); rounding, and a value outside 24 bits, are open. -/
def alignedOf (coef : Nat → Int) (trim : Nat) (hist : List (BitVec 24)) : BitVec 24 :=
  let x := fun (i : Nat) => signed 24 (lget hist i 0).toNat
  let matched := fun (i : Nat) => isum 16 fun k => coef k * x (i + k)
  narrow24 (isum 8 fun j => Config.interpTap (trim % 64) j * matched (trim / 64 + j)) (2 ^ 30)

/-- Aligned signals of the sixteen channels, from their histories. -/
def State.alignedAll (s : State) (hist : List (List (BitVec 24))) : List (BitVec 24) :=
  (List.range 16).map fun c =>
    if s.silent c then 0
    else alignedOf (fun k => signed 16 (s.reg (Reg.porMfCoef.ix2 c k))) (s.reg (Reg.porChTrim.ix c)) (lget hist c [])

/-- The beam: the mean of the healthy channels of BEAM_MASK; zero if none is. Where the mean is no integer, which
neighbour it takes is open. -/
def State.beamOf (s : State) (vals : List (BitVec 24)) : BitVec 24 × State :=
  let l := (maskBits 16 s.por.profBeam.toNat).filter s.chHealthy
  if l.isEmpty then (0, s)
  else
    let sum := (l.map fun c => signed 24 (lget vals c 0).toNat).foldl (· + ·) 0
    let (k, s) := s.fresh
    let q := Int.fdiv sum l.length
    let up := Int.fmod sum l.length != 0 && Config.freeBool k
    (BitVec.ofInt 24 (if up then q + 1 else q), s)

/-- The beam as the Keyhole hears it, at 16 kHz: decimated by 2 or 3 at 32 or 48 kHz (R418), the samples of the last 10 ms. -/
def State.keyBeamNext (s : State) (beams : List (BitVec 24)) : List (BitVec 24) :=
  let m := rateKhz s.por.rate / 16
  if rateKhz s.por.rate % 16 ≠ 0 || (s.por.sample.toNat + 1) % m ≠ 0 then s.por.keyBeam
  else
    let v := if m = 1 then lget beams 0 0
      else narrow24 (isum (Config.keyLen m) fun j => Config.keyTap m j * signed 24 (lget beams j 0).toNat) (2 ^ 16)
    (v :: s.por.keyBeam).take 160

/-- An output sample on every channel, from the bits of its PDM clocks. -/
def State.takeSample (s : State) (bits : List (BitVec 8 × BitVec 8)) : State :=
  let n := s.por.sample.toNat
  let osr := (osrOf s.por.profOsr).getD 32
  let pdm := (((List.range osr).map fun i => channelBits (lget bits i (0, 0))).reverse ++ s.por.pdm).take pdmDepth
  let hist := (List.range 16).map fun c =>
    ((if 1 < s.por.settle_ || s.clockOff c then 0#24 else decimated pdm osr (s.wireChannel c))
      :: lget s.por.hist c []).take historyDepth
  let quiet := BitVec.ofNat 16 ((List.range 16).foldl (fun a c => a + (b2n (s.silent c)) <<< c) 0)
  let vals := s.alignedAll hist
  let (beam, s) := s.beamOf vals
  let s := s.ringWrite n vals
  let settle := if 1 < s.por.settle_ then s.por.settle_ - 1 else s.por.settle_
  let muted := if s.flag Reg.porCtrlMute then s.por.sample + 1 else s.por.mutedUpTo
  let beams := (beam :: s.por.beams).take s.ringFrames
  { s with por := { s.por with hist := hist, pdm := pdm, newest := vals, quiet := (quiet :: s.por.quiet).take s.ringFrames,
                               beams := beams, keyBeam := s.keyBeamNext beams, settle_ := settle,
                               mutedUpTo := muted, sample := s.por.sample + 1 } }

/-! ### The audio feed (R440, R441) -/

/-- Bytes of one element. -/
def Feed.elemBytes (f : Feed) : Nat := if f.fmt = 1 || f.fmt = 2 then 2 else 4

/-- Channels of a feed frame, ascending. -/
def Feed.chans (f : Feed) : List Nat := maskBits 16 f.mask.toNat

/-- Bytes of a feed frame. -/
def Feed.frameBytes (f : Feed) : Nat := f.elemBytes * (f.chans.length + b2n (f.mask.toNat.testBit 16))

/-- Frames of the buffer. -/
def Feed.frames (f : Feed) : Nat := (f.pages * 65536 - 32) / max 1 f.frameBytes

/-- An element as FEED_FMT writes it, from a 24-bit sample. -/
def Feed.elem (f : Feed) (x : Nat) : List Byte :=
  let v : Fp := match Fp.ofInt (signed 24 x) with
    | .fin n m _ => .fin n m (-23)
    | y => y
  match f.fmt with
  | 0 => toBytes 4 ((x % 2 ^ 24) <<< 8)
  | 1 => toBytes 2 (Fmt.encode .fp16 false v)
  | 2 => toBytes 2 (Fmt.encode .bf16 false v)
  | _ => toBytes 4 (Fmt.encode .fp32 false v)

/-- A sample of a channel for the feed. A channel outside the ring gives zero where it carried zeros and its aligned signal
live; what an earlier sample of it gives is open. -/
def State.feedSample (s : State) (n c : Nat) : Nat × State :=
  match s.ringSample n c with
  | some v => (v, s)
  | none =>
    let ago := s.por.sample.toNat - 1 - n
    if (lget s.por.quiet ago 0).getLsbD c then (0, s)
    else if ago = 0 then ((lget s.por.newest c 0).toNat, s)
    else
      let (k, s) := s.fresh
      (Config.freeNat k % 2 ^ 24, s)

/-- Bytes of a feed frame of sample `n`: zeros where the ring no longer holds it. -/
def State.feedFrame (s : State) (f : Feed) (n : Nat) : List Byte × State :=
  if n < s.ringOldest then (List.replicate f.frameBytes 0, s)
  else
    let (bs, s) := f.chans.foldl (fun (p : List Byte × State) c =>
      let (v, t) := p.2.feedSample n c
      (p.1 ++ f.elem v, t)) ([], s)
    let beam := (lget s.por.beams (s.por.sample.toNat - 1 - n) 0).toNat
    (if f.mask.toNat.testBit 16 then bs ++ f.elem beam else bs, s)

/-- Copy the next frame; none: nothing is left, or the write is held. A frame whose write fails is skipped. -/
def State.feedOne (s : State) (f : Feed) : Option (State × Feed) :=
  let n := f.next.toNat
  if s.por.sample.toNat ≤ n then none
  else
    let (bs, t) := s.feedFrame f n
    let slot := f.written.toNat % max 1 f.frames
    let g := { f with next := f.next + 1, written := f.written + 1, gap := f.gap || decide (n < s.ringOldest),
                      muted := f.muted || decide (n < s.por.mutedUpTo.toNat) }
    match runAcc t (wr whoBridge (f.base.toNat + slot * f.frameBytes) bs) with
    | (_, .error (.blocked _ _)) => none
    | (t, _) => some (t, g)

/-- Copy every frame that is there (at least 8 times real time, R440). -/
def State.feedN (s : State) (f : Feed) : Nat → State × Feed
  | 0 => (s, f)
  | fuel + 1 =>
    match s.feedOne f with
    | some (s, f) => s.feedN f fuel
    | none => (s, f)

/-- The feed goes on as far as it can. -/
def State.feedGo (s : State) : State :=
  match s.por.feed with
  | none => s
  | some f =>
    let (s, f) := s.feedN f (s.por.sample.toNat - f.next.toNat)
    { s with por := { s.por with feed := some f } }

/-- The feed record (R441). -/
def Feed.record (f : Feed) : Nat :=
  f.written.toNat + f.first.toNat <<< 64 + (f.next - 1).toNat <<< 128 + (b2n f.gap) <<< 192 + (b2n f.muted) <<< 193

/-- Write the feed record, after the frames it counts. -/
def State.feedRecord (s : State) : State :=
  match s.por.feed with
  | none => s
  | some f =>
    match runAcc s (wr whoBridge (f.base.toNat + f.pages * 65536 - 32) (toBytes 32 f.record)) with
    | (_, .error (.blocked _ _)) => s
    | (s, _) => s

/-- Start the feed of a stage at PREROLL_MS before the record's START_SAMPLE, or at the oldest sample still in the ring;
a feed that runs goes on. -/
def State.feedStart (s : State) (startSample : BitVec 64) : State :=
  match s.por.feed with
  | some _ => s
  | none =>
    let back := s.reg Reg.porFeedCfgPrerollMs * rateKhz s.por.rate
    let first := max (startSample.toNat - back) s.ringOldest
    let f : Feed :=
      { base := BitVec.ofNat 48 (s.reg Reg.porFeedLoDvaLo <<< 16 + s.reg Reg.porFeedHiDvaHi <<< 32)
        pages := max 1 (s.reg Reg.porFeedHiFeedPages)
        mask := BitVec.ofNat 17 (s.reg Reg.porFeedCfgFeedMask)
        fmt := s.reg Reg.porFeedCfgFeedFmt
        first := BitVec.ofNat 64 first
        next := BitVec.ofNat 64 first }
    ({ s with por := { s.por with feed := some f } }).feedGo

/-! ### Porch changes (R427 to R431) -/

/-- The decimators are reset: 32 zero samples follow (R430). -/
def State.resetDecimators (s : State) : State := { s with por := { s.por with settle_ := 33, hist := [], pdm := [] } }

/-- Put a profile in force, if its combination with RATE is valid (R413). -/
def State.applyProfile (s : State) (sleep : Bool) : State :=
  let k := b2n sleep
  let osr := s.reg (Reg.porProfOsr.ix k)
  if !profileValid s.por.rate osr then s.noteAon fcPorConfig
  else
    let clk := s.flag (Reg.porProfClk1En.ix k)
    let reset := osr != s.por.profOsr || clk != s.por.profClk1
    let s := { s with por := { s.por with sleepProf := sleep, profOsr := osr, profClk1 := clk
                                          profBeam := BitVec.ofNat 16 (s.reg (Reg.porProfBeamMask.ix k)) } }
    (if reset then s.resetDecimators else s).clockStates.beamCheck

/-- The registers of the Keyhole name no image (R431). -/
def State.noImage (s : State) : State :=
  ((s.setFlag Reg.keyCtrlImageOk false).setReg Reg.keyCtrlImageLevel 0).setReg Reg.keyCtrlPhrases 0

/-- An image is in force. -/
def State.putImage (s : State) (level phrases : Nat) : State :=
  ((s.setFlag Reg.keyCtrlImageOk true).setReg Reg.keyCtrlImageLevel level).setReg Reg.keyCtrlPhrases phrases

/-- The Keyhole accepts an image (R431). -/
def keyImageOk (i : KeyImage) : Bool :=
  (i.level == 1 || i.level == 2) && i.phrases.length ≤ 8 && i.phrases.all (· ≤ 2000) && i.size ≤ 524288 && i.digestOk

/-- At 8 and 24 kHz the Keyhole cannot be enabled: ENABLE reads 0, and a note is raised (R418). -/
def State.keyRateCheck (s : State) (rate : Nat) : State :=
  if s.flag Reg.keyCtrlEnable && (rate == 0 || rate == 2) then (s.setFlag Reg.keyCtrlEnable false).noteAon fcPorConfig
  else s

/-- Apply a Porch change. -/
def State.applyChange (s : State) (c : PorChange) : State :=
  match c with
  | .rate v =>
    if profileValid v s.por.profOsr then
      ((({ s with por := { s.por with rate := v } }).resetDecimators).porEvent 1).keyRateCheck v
    else s.noteAon fcPorConfig
  | .ringMask m =>
    let p := { s.por with ringMask := m, ring := [], beams := [], quiet := [] }
    ({ s with por := p }).porEvent 1
  | .profile sleep =>
    let t := s.applyProfile sleep
    if profileValid s.por.rate (s.reg (Reg.porProfOsr.ix (b2n sleep))) then t.porEvent 1 else t
  | .swap d =>
    let m := if s.por.swapMap.contains d then s.por.swapMap.filter (· != d) else sins s.por.swapMap d
    let p := { s.por with swapMap := m }
    (({ s with por := p }).porEvent 1).porEvent 5 (2 * d)
  | .image l p => (s.putImage l p).porEvent 1
  | .enterS3 => s.porEvent 1

/-- Apply every waiting change, in the order of request. -/
def State.applyChanges (s : State) : State :=
  let l := s.por.changes
  let s := { s with por := { s.por with changes := [] } }
  s.each l fun s c => s.applyChange c.1

/-- The Keyhole holds a partial match. -/
def State.partialHeld (s : State) : Bool := !s.por.partials.isEmpty

/-- Request a Porch change: it is applied at once, or waits while a partial match is held (R428). -/
def State.requestChange (s : State) (c : PorChange) : State :=
  if s.partialHeld || !s.por.changes.isEmpty then
    { s with por := { s.por with changes := s.por.changes ++ [(c, s.now)] } }
  else s.applyChange c

/-- The two profiles ask for different things, or what is in force is not what the profile asks for. -/
def State.profileDiffers (s : State) (sleep : Bool) : Bool :=
  let k := b2n sleep
  s.reg (Reg.porProfOsr.ix k) != s.por.profOsr || s.flag (Reg.porProfClk1En.ix k) != s.por.profClk1
    || BitVec.ofNat 16 (s.reg (Reg.porProfBeamMask.ix k)) != s.por.profBeam

/-- The profile that the waiting changes end with. -/
def State.profileWaiting (s : State) : Option Bool :=
  (s.por.changes.filterMap fun (c : PorChange × Nat) => match c.1 with
    | .profile p => some p
    | _ => none).getLast?

/-- Switch to a profile, from the one in force or the one that waits: between identical profiles nothing changes (R427). -/
def State.switchProfile (s : State) (sleep : Bool) : State :=
  if s.profileWaiting = some sleep then s
  else if s.profileWaiting.isSome || s.profileDiffers sleep then s.requestChange (.profile sleep)
  else { s with por := { s.por with sleepProf := sleep } }

/-! ### Resets (R442) -/

/-- The kept fields of a Porch reset: MUTE and the wake records. -/
def porchKept (f : Field) : Bool := f == Reg.porCtrlMute || (0x18A00 ≤ f.off && f.off < 0x18C00)

/-- The Keyhole image of the current generation is loaded. -/
def State.loadImage (s : State) : State :=
  let s := s.noImage
  match s.currentGen.bind fun g => g.keyhole with
  | some i => if keyImageOk i then s.putImage i.level i.phrases.length else s.noteAon fcKeyImage
  | none => s

/-- What is in force when the Porch starts: its settings, at once. -/
def State.porchStart (s : State) : State :=
  let mask := s.reg Reg.porRingMaskRingMask
  let p : PorSt := { seqNext := s.por.seqNext, rate := s.reg Reg.porCtrlRate, ringMask := BitVec.ofNat 16 (max 1 mask) }
  let sleep := s.pwr.state == .s2 || s.pwr.state == .s3
  let s := ({ s with por := { p with beamFault := s.por.beamFault } }).applyProfile sleep
  ({ s with por := { s.por with settle_ := 0 } }).clockStates.beamCheck.swapShow.loadImage.keyRateCheck (s.reg Reg.porCtrlRate)

/-- The Porch is reset (PCR): capture stops, ring and counter are cleared, partial matches, chain and feed are gone,
settings are loaded anew. What the ended chain's record shows in END is open. -/
def State.porchReset (s : State) : State :=
  let s := match s.por.chain with
    | some c =>
      let (k, s) := s.fresh
      let w := (s.word (0x18A00 + 0x20 * (c.seq.toNat % 16) + 4)).toNat
      s.setWord (0x18A00 + 0x20 * (c.seq.toNat % 16) + 4) (BitVec.ofNat 32 (putBits w 11 4 (Config.freeNat k)))
    | none => s
  let s := s.returnRegs (fun f => !porchKept f) fun o => inBlock 0x18 o || inBlock 0x19 o
  s.porchStart

end Sys2Proof.Machine
end

