-- ==== Sys2Proof/Machine/Orders.lean ====
section
/-! DEFINITION. Orders that reach the whole main die: tile reset, ordered main-die reset, the stop of an L4 fault, sleep
entry and wake, the reset of the Porch (13_porch.md R442; 14_power.md R471 to R479; 15_resets_and_retention.md R481 to R488;
19_fusebox.md R598 to R603). -/

namespace Sys2Proof.Machine

/-! ### Status codes -/

/-- MAIN_RESET (15_resets_and_retention.md R487). -/
def stMainReset : Byte := 0x35
/-- SLEEP_ABANDONED (14_power.md R472). -/
def stSleepAbandoned : Byte := 0xC0
/-- SLEEP_STOPPED (14_power.md R471). -/
def stSleepStopped : Byte := 0xC1
/-- TENANT_STOPPED (17_security.md R552). -/
def stTenantStopped : Byte := 0xD0
/-- TSR_REFUSED (17_security.md R550). -/
def stTsrRefused : Byte := 0xD1
/-- EPOCH_EXHAUSTED (17_security.md R550). -/
def stEpochExhausted : Byte := 0xD2

/-! ### The main die -/

/-- The main die runs: powered, started, and not held in reset. -/
def State.mainUp (s : State) : Bool := s.pwr.mainGood && !s.rst.starting && !s.rst.resetLow

/-- Safe Floor (16_study.md R518). -/
def State.safeFloor (s : State) : Bool := s.reg Reg.styModeMode == 1

/-- The main die runs its compute side: not so in Safe Floor (R519). -/
def State.computeUp (s : State) : Bool := s.mainUp && !s.safeFloor

/-- Compute is stopped by an L4 fault (R602). -/
def State.stopped (s : State) : Bool := s.flag Reg.fbStatusStopped

/-- RST_CAUSE takes what a reset or wake writes, and the logbook records it (R502; 16_study.md R539). -/
def State.cause (s : State) (last source : Nat) (unit : Nat := 0) : State :=
  let s := ((s.setReg Reg.rstCauseLast last).setReg Reg.rstCauseSource source).setReg Reg.rstCauseUnit unit
  s.log 1 last (source + unit <<< 8)

/-- A PCR: the Porch and the Keyhole (R481, R442). -/
def State.pcr (s : State) (source : Nat) : State := s.porchReset.cause 8 source

/-! ### Tile reset (R482) -/

/-- The list runs on a wing that holds the tile, or its stopped context lies there. -/
def State.hitByTlr (s : State) (t : Nat) (w : Work) : Bool :=
  (w.on.contains t && (w.phase == .running || w.phase == .preempted || w.phase == .parked))
    || ctxOf (s.tileSt t).bgCtx w.id || ctxOf (s.tileSt t).tickCtx w.id

/-- A TLR of a present logical tile. -/
def State.tlr (s : State) (t source : Nat) : State :=
  let hit := s.wk.works.filter (s.hitByTlr t)
  let s := s.each hit fun s w => s.mapWork w.id fun w => w.end_ stUnitFailed
  let s := s.each hit fun s w =>
    match (s.work? w.id).bind fun w => w.run? t with
    | some r => s.discardShare w.id r
    | none => s
  let s := (s.losePantry t).creditsBack t
  let s := s.returnRegs (fun _ => true) fun o => o == (Reg.panErrCorr.ix t).off || o == (Reg.veNanCntCount.ix t).off
  let s := s.bump Reg.rstCauseTlrCnt
  let s := s.cause 5 source t
  ({ s with rst := { s.rst with tlr := s.rst.tlr ++ [(t, s.now)] } }).reap

/-! ### Ordered main-die reset (R486) -/

/-- A sleep entry is past its irrevocable point. -/
def State.sleepSure (s : State) : Bool :=
  match s.pwr.entry with
  | .grace _ | .porch _ => true
  | _ => false

/-- The PERF_REQUEST of a sleep entry that is given up completes with a status. -/
def State.dropEntry (s : State) (status : Byte) : State :=
  let s := match s.pwr.sleepTicket with
    | some t => s.complete t status
    | none => s
  { s with pwr := { s.pwr with entry := .none, sleepTicket := none } }

/-- The Study orders an MDR. With the main die down there is none to reset, and what follows the reset runs at once; one
that is under way is not begun again. -/
def State.orderMdr (s : State) (source : Nat) (after : After := .nothing) (countStart : Bool := true) : State :=
  if !s.mainUp || s.sleepSure then
    match after with
    | .pcr => s.pcr source
    | .nothing => s
  else match s.rst.mdr with
    | some j =>
      let j := match after with
        | .pcr => { j with after := .pcr }
        | .nothing => j
      { s with rst := { s.rst with mdr := some j } }
    | none =>
      let s := s.dropEntry stMainReset
      let s := s.stopAll stMainReset
      { s with rst := { s.rst with mdr := some { source := source, after := after, t0 := s.now, countStart := countStart } } }

/-! ### The stop (R600 to R603) -/

/-- A tenant switch, an ordered MDR or a sleep entry is under way. -/
def State.flowBusy (s : State) : Bool := s.sec.tsr.isSome || s.rst.mdr.isSome || s.pwr.entry != .none

/-- A record reaches L4: the stop takes effect, but for the work of what is already under way (R602, R603); Gallery frames
are dropped as they end while FB_STATUS.STOPPED is set. -/
def State.stopNow (s : State) : State :=
  let s := s.setFlag Reg.fbStatusStopped true
  if s.flowBusy then { s with fb := { s.fb with stopWait := true } }
  else ({ s with fb := { s.fb with stopWait := false } }).stopAll stFaultStop

/-- A stop that waited for what was under way. -/
def State.stopLate (s : State) : State :=
  if s.fb.stopWait && !s.flowBusy then
    if s.hasStop then s.stopNow else { s with fb := { s.fb with stopWait := false } }
  else s

/-- Records that may clear do so; when the last L4 record clears, the Fusebox orders an MDR, unless the main die is
unpowered (R599, R600). -/
def State.clearGo (s : State) : State :=
  let had := s.hasStop
  let s := s.clearRecords
  if had && !s.hasStop && s.mainUp then s.orderMdr 6 else s

/-- Acknowledge every record. -/
def State.ackAll (s : State) : State :=
  { s with fb := { s.fb with recs := s.fb.recs.map fun e => (e.1, { e.2 with acked := true }) } }

/-! ### Waking (R472, R477 to R479) -/

/-- Code of the power state in records. -/
def PState.code : PState → Nat
  | .s0 => 0 | .s1 => 1 | .s2 => 2 | .s3 => 3 | .s4 => 4

/-- Write the last-wake record. -/
def State.lastWake (s : State) (src fromState : Nat) (during : Bool) (seq : BitVec 32) : State :=
  let bits := src + fromState <<< 4 + (b2n during) <<< 6 + (b2n (!s.pins.battWarnN)) <<< 7 + seq.toNat <<< 16
    + (s.now / 1000000 % 2 ^ 64) <<< 64
  s.each (List.range 4) fun s w => s.setReg (Reg.pwrLastwakeRecord.ix w) (bitsAt bits (32 * w) 32)

/-- Begin to leave S2 or S3: the enables rise; the main die starts when its groups are good. -/
def State.wakeNow (s : State) (src : Nat) (seq : BitVec 32) (during : Bool) : State :=
  let code := s.pwr.state.code
  let s := s.lastWake src code during seq
  { s with pwr := { s.pwr with waking := some code, wakePending := none }
           rst := { s.rst with starting := true, startKind := if code = 3 then 10 else 9, ordered := false }
           pins := { s.pins with pwrEnMain := true, pwrEnLoft := true } }

/-- The source wakes from S3. -/
def wakesS3 (src : Nat) : Bool := src == 2 || src == 3 || src == 5

/-- Abandon a sleep entry that is not yet irrevocable (R472). -/
def State.abandonSleep (s : State) : State :=
  let s := s.dropEntry stSleepAbandoned
  -- lists that have not stopped yet run on
  let s := s.mapWorks fun w => if (w.ending.any fun e => e.1 == stSleepStopped) then { w with ending := none } else w
  { s with rg := { s.rg with closed := false } }

/-- Hold a wake source until the entry ends. -/
def State.holdWake (s : State) (src : Nat) (seq : BitVec 32) : State :=
  if s.pwr.wakePending.isSome then s else { s with pwr := { s.pwr with wakePending := some (src, seq) } }

/-- A wake source occurs: an entry, into S2 or S3, is abandoned or holds it (R472). -/
def State.wakeBy (s : State) (src : Nat) (seq : BitVec 32 := 0) : State :=
  match s.pwr.entry with
  | .stopping _ => s.abandonSleep
  | .grace _ | .porch _ => s.holdWake src seq
  | .none =>
    if s.pwr.waking.isSome || s.pwr.tripped || s.rst.resetLow || s.rst.starting then s
    else if s.pwr.state == .s2 || (s.pwr.state == .s3 && wakesS3 src) then s.wakeNow src seq false
    else s

end Sys2Proof.Machine
end

