-- ==== Sys2Proof/Machine/Scan.lean ====
section
/-! DEFINITION. State-carrying streams: the stream table, the recurrence and the SCAN step (10_state_streams.md R333 to
R350, R354 to R356). -/

namespace Sys2Proof.Machine

/-- STREAM_INVALID (R350). -/
def stStreamInvalid : Byte := 0xB0
/-- STREAM_BUSY. -/
def stStreamBusy : Byte := 0xB1
/-- STREAM_SEQ_STALE. -/
def stStreamSeqStale : Byte := 0xB2
/-- STREAM_SEQ_TIMEOUT. -/
def stStreamSeqTimeout : Byte := 0xB3
/-- STREAM_REJECTED. -/
def stStreamRejected : Byte := 0xB4

/-! ### The stream table (R339, R340) -/

/-- DVA of stream-table entry `n`. -/
def State.strmDva (s : State) (n : Nat) : Nat :=
  s.reg Reg.strmBaseLoBaseLo <<< 19 + s.reg Reg.strmBaseHiBaseHi <<< 32 + 32 * n

/-- A stream-table entry. -/
structure StreamEntry where
  valid : Bool
  mode : Nat
  fp24 : Bool
  away : Bool
  chunk : Nat
  heads : Nat
  pc : Nat
  nc : Nat
  bc : Bool
  state : Nat
  init : Nat
  next : Nat
  hold : Nat
  gen : Nat
  deriving DecidableEq, Repr

/-- Read an entry's fields. -/
def streamEntry (x : Nat) : StreamEntry :=
  { valid := bitAt x 0, mode := bitsAt x 1 1, fp24 := bitAt x 2, away := bitAt x 3, chunk := bitsAt x 4 4,
    heads := bitsAt x 8 6 + 1, pc := bitsAt x 14 2, nc := bitsAt x 16 2, bc := bitAt x 18, state := bitsAt x 32 48,
    init := bitsAt x 80 48, next := bitsAt x 128 32, hold := bitsAt x 160 8, gen := bitsAt x 176 16 }

/-! ### The step's operands (R343) -/

/-- The operand fields of a SCAN step. -/
structure ScanFields where
  x : Nat
  items : Nat
  y : Nat
  marks : Bool
  mode : Nat
  bc : Bool
  io : Fmt
  b : Nat
  chunk : Nat
  heads : Nat
  pc : Nat
  nc : Nat
  c : Nat
  yf : Fmt
  a : Nat
  list : Nat
  mark : Nat
  work : Nat
  deriving DecidableEq, Repr

/-- Read them. -/
def scanFields (d : Nat) : ScanFields :=
  { x := bitsAt d 64 48, items := bitsAt d 112 16, y := bitsAt d 128 48, marks := bitAt d 185, mode := bitsAt d 186 1,
    bc := bitAt d 187, io := Fmt.ofCode (bitsAt d 188 4), b := bitsAt d 192 48, chunk := bitsAt d 240 4,
    heads := bitsAt d 244 6 + 1, pc := bitsAt d 250 2, nc := bitsAt d 252 2, c := bitsAt d 256 48,
    yf := Fmt.ofCode (bitsAt d 304 4), a := bitsAt d 320 48, list := bitsAt d 368 48, mark := bitsAt d 416 48,
    work := bitsAt d 464 24 }

/-- T. -/
def ScanFields.t (f : ScanFields) : Nat := 2 ^ f.chunk
/-- P. -/
def ScanFields.p (f : ScanFields) : Nat := 16 <<< f.pc
/-- N. -/
def ScanFields.n (f : ScanFields) : Nat := 16 <<< f.nc
/-- Rows of b and c per position. -/
def ScanFields.g (f : ScanFields) : Nat := if f.bc then 1 else f.heads
/-- Factors per position. -/
def ScanFields.factors (f : ScanFields) : Nat := if f.mode = 0 then f.heads else f.heads * f.p
/-- Elements of one head's state (R341). -/
def ScanFields.headState (f : ScanFields) : Nat := if f.mode = 0 then f.p * f.n else f.p
/-- Bytes of the work area (R345). -/
def ScanFields.workBytes (f : ScanFields) : Nat := if f.mode = 0 then 32 * f.p * f.n else 8 * f.t * f.p

/-- Checks of a SCAN (R161, R343, R345). -/
def scanCheck (c : Ctx) : Acc (List Nat) := do
  let f := scanFields c.d
  let rows := f.items * f.t
  let reserved := if onlyFields c.d [(64, 48), (112, 16), (128, 48), (185, 1), (186, 1), (187, 1), (188, 4), (192, 48),
    (240, 4), (244, 6), (250, 2), (252, 2), (256, 48), (304, 4), (320, 48), (368, 48), (416, 48), (464, 24)]
    then [] else [1]
  return reserved
    ++ cause2 (f.items == 0 || 4096 < f.items || !([Fmt.bf16, .fp16].contains f.io || (f.mode == 1 && f.io == .fp32))
      || !attFormats.contains f.yf || f.chunk < 4 || 12 < f.chunk || (f.mode == 1 && (f.nc != 0 || f.bc)))
    ++ operandCauses f.x (rows * padded f.io (f.heads * f.p)) 64
    ++ c.outputCauses f.y (rows * padded f.yf (f.heads * f.p)) 64
    ++ operandCauses f.a (rows * padded .fp32 f.factors) 64
    ++ operandCauses f.list (8 * f.items) 8
    ++ (if f.mode = 0 then operandCauses f.b (rows * padded f.io (f.g * f.n)) 64
        ++ operandCauses f.c (rows * padded f.io (f.g * f.n)) 64 else [])
    ++ (if f.marks then operandCauses f.mark (rows / 8) 2 else [])
    ++ workCauses f.work f.workBytes

/-! ### The inputs of a chunk -/

/-- A chunk's inputs, by valid position: x, factors, b and c rows, marks. -/
structure Chunk where
  xs : List (List Fp)
  as : List (List Fp)
  bs : List (List Fp)
  cs : List (List Fp)
  ms : List Bool
  deriving DecidableEq, Repr

/-- Read rows of an operand array. -/
def scanRows (c : Ctx) (base : Nat) (f : Fmt) (n first count : Nat) : Acc (List (List Fp)) :=
  (List.range count).mapM fun t => do
    let bs ← rd c.who (base + (first + t) * padded f n) (f.rowBytes n)
    return elems f (ofBytes bs) n

/-- Read the marks of an item's valid positions: their bytes only. -/
def scanMarks (c : Ctx) (f : ScanFields) (i valid : Nat) : Acc (List Bool) :=
  if f.marks then do
    let m ← rdNat c.who (f.mark + i * f.t / 8) (cdiv valid 8)
    return (List.range valid).map fun t => m.testBit t
  else return List.replicate valid false

/-- Read a chunk. -/
def readChunk (c : Ctx) (f : ScanFields) (i valid : Nat) : Acc Chunk := do
  let first := i * f.t
  let ms ← scanMarks c f i valid
  let xs ← scanRows c f.x f.io (f.heads * f.p) first valid
  let as ← scanRows c f.a .fp32 f.factors first valid
  let bs ← if f.mode = 0 then scanRows c f.b f.io (f.g * f.n) first valid else pure []
  let cs ← if f.mode = 0 then scanRows c f.c f.io (f.g * f.n) first valid else pure []
  return { xs := xs, as := as, bs := bs, cs := cs, ms := ms }

/-- Format of a stream's state. -/
def StreamEntry.fmt (e : StreamEntry) : Fmt := if e.fp24 then .fp24 else .fp32

/-- Read a state: one list of elements for each head. -/
def readState (c : Ctx) (f : ScanFields) (e : StreamEntry) (dva : Nat) : Acc (List (List Fp)) := do
  let n := f.heads * f.headState
  let x ← rdNat c.who dva (e.fmt.rowBytes n)
  return chunks f.headState (elems e.fmt x n) n

/-! ### Mode 1 (R335, R337) -/

/-- An element of the segmented scan. -/
structure Seg where
  f : Bool
  a : Fp
  u : Fp
  deriving DecidableEq, Repr

/-- combine(l, r). -/
def Seg.combine (away : Bool) (l r : Seg) : Seg :=
  { f := l.f || r.f
    a := if r.f then r.a else f32mul away r.a l.a
    u := if r.f then r.u else f32add away (f32mul away r.a l.u) r.u }

/-- The combination of elements `lo` to `hi`, in a tree whose shape depends only on the chunk length `T`. -/
def segPrefix (away : Bool) (T : Nat) (es : List Seg) (lo hi : Nat) : Nat → Seg
  | 0 => lget es lo { f := false, a := Fp.one, u := Fp.zero }
  | fuel + 1 =>
    if hi ≤ lo then lget es lo { f := false, a := Fp.one, u := Fp.zero }
    else
      let m := lo + Config.scanSplit T lo hi % (hi - lo)
      Seg.combine away (segPrefix away T es lo m fuel) (segPrefix away T es (m + 1) hi fuel)

/-- One element of a mode 1 stream over a chunk: its outputs. -/
def diagonalOne (away : Bool) (T : Nat) (xs as : List Fp) (ms : List Bool) (hIn hInit : Fp) : List Fp :=
  let es := ((List.zip xs as).zip ms).map fun e =>
    ({ f := e.2, a := e.1.2,
       u := if e.2 then f32add away e.1.1 (f32mul away e.1.2 hInit) else e.1.1 } : Seg)
  (List.range xs.length).map fun t =>
    let q := segPrefix away T es 0 t xs.length
    if q.f then q.u else f32add away (f32mul away q.a hIn) q.u

/-- A mode 1 chunk: its output rows; the last is the carried-out state. -/
def diagonal (away : Bool) (T : Nat) (ch : Chunk) (hIn hInit : List Fp) : List (List Fp) :=
  let cols := hIn.zipIdx.map fun (h, k) =>
    diagonalOne away T (ch.xs.map fun r => lget r k Fp.zero) (ch.as.map fun r => lget r k Fp.zero) ch.ms h
      (lget hInit k Fp.zero)
  (List.range ch.xs.length).map fun t => cols.map fun l => lget l t Fp.zero

/-! ### Mode 0 (R338) -/

/-- Sum in FP32, in a free order (R338 fixes none). -/
def freeSum (away : Bool) (l : List Fp) : Acc Fp := do
  let order ← freeOrder l l.length
  return order.foldl (f32add away) Fp.zero

/-- Product of factors in FP32, in a free order. -/
def freeProduct (away : Bool) (l : List Fp) : Acc Fp := do
  let order ← freeOrder l l.length
  match order with
  | [] => return Fp.one
  | x :: r => return r.foldl (f32mul away) x

/-- A free choice among `n`. -/
def freeChoice (n : Nat) : Acc Nat := do
  let (k, s) := (← get).fresh
  set s
  return Config.freeNat k % n

/-- First position of the segment that holds position `t`, and whether a mark opens it. -/
def segmentOf (ms : List Bool) (t : Nat) : Nat × Bool :=
  match (List.range (t + 1)).reverse.find? fun m => lget ms m false with
  | some m => (m, true)
  | none => (0, false)

/-- One head of a mode 0 chunk: its inputs by position. -/
structure MatHead where
  fmt : Fmt
  xs : List (List Fp)
  as : List Fp
  bs : List (List Fp)
  cs : List (List Fp)
  ms : List Bool
  deriving DecidableEq, Repr

/-- Decay weight between positions i and t of one segment. -/
def MatHead.decay (away : Bool) (h : MatHead) (i t : Nat) : Acc Fp :=
  freeProduct away ((List.range (t - i)).map fun k => lget h.as (i + 1 + k) Fp.one)

/-- The state a segment starts from times c_t, for output row `p` of an N-column state, decayed by `w`. -/
def stateTerm (away : Bool) (n : Nat) (st c : List Fp) (w : Fp) (p : Nat) : Acc Fp := do
  let row := (st.drop (p * n)).take n
  if (← freeChoice 2) = 0 then do
    let s ← freeSum away (List.zipWith (f32mul away) row c)
    return f32mul away w s
  else freeSum away (List.zipWith (f32mul away) (row.map (f32mul away w)) c)

/-- Output row of position `t` (R338). -/
def MatHead.out (away : Bool) (h : MatHead) (P n : Nat) (hIn hInit : List Fp) (t : Nat) : Acc (List Fp) := do
  let (m, marked) := segmentOf h.ms t
  let c := lget h.cs t []
  let ws ← ((List.range (t + 1 - m)).map fun k => m + k).mapM fun i => do
    let w ← h.decay away i t
    return round16 away h.fmt (f32mul away (dot16 away c (lget h.bs i [])) w)
  let w0 ← freeProduct away ((List.range (t + 1 - m)).map fun k => lget h.as (m + k) Fp.one)
  (List.range P).mapM fun p => do
    let intra ← freeSum away (ws.zipIdx.map fun (w, k) => f32mul away w (lget (lget h.xs (m + k) []) p Fp.zero))
    let st ← stateTerm away n (if marked then hInit else hIn) c w0 p
    return f32add away intra st

/-- One term of the carried-out state: x[p] × b[n] under its decay weight, rounded into the product format at one of the
places where a bay may round it. -/
def outerTerm (away : Bool) (f : Fmt) (w x b : Fp) : Acc Fp := do
  let k ← freeChoice 3
  return if k = 0 then f32mul away (round16 away f (f32mul away w x)) b
    else if k = 1 then f32mul away x (round16 away f (f32mul away w b))
    else f32mul away w (f32mul away x b)

/-- The carried-out state after the last valid position. -/
def MatHead.carry (away : Bool) (h : MatHead) (P n : Nat) (hIn hInit : List Fp) : Acc (List Fp) := do
  let t := h.xs.length - 1
  let (m, marked) := segmentOf h.ms t
  let is := (List.range (t + 1 - m)).map fun k => m + k
  let ws ← is.mapM fun i => h.decay away i t
  let w0 ← freeProduct away (is.map fun i => lget h.as i Fp.one)
  let st := if marked then hInit else hIn
  (List.range (P * n)).mapM fun k => do
    let terms ← (List.zip is ws).mapM fun q =>
      outerTerm away h.fmt q.2 (lget (lget h.xs q.1 []) (k / n) Fp.zero) (lget (lget h.bs q.1 []) (k % n) Fp.zero)
    let sum ← freeSum away terms
    return f32add away (f32mul away w0 (lget st k Fp.zero)) sum

/-- One head's inputs. -/
def headOf (f : ScanFields) (ch : Chunk) (h : Nat) : MatHead :=
  let g := if f.bc then 0 else h
  { fmt := if f.io == .fp16 then .fp16 else .bf16
    xs := ch.xs.map fun r => (r.drop (h * f.p)).take f.p
    as := ch.as.map fun r => lget r h Fp.one
    bs := ch.bs.map fun r => (r.drop (g * f.n)).take f.n
    cs := ch.cs.map fun r => (r.drop (g * f.n)).take f.n
    ms := ch.ms }

/-! ### An item (R347, R348) -/

/-- The share of a list on a tile. -/
def State.scanShare (s : State) (id tile : Nat) : Option ScanShare :=
  s.strm.shares.find? fun x => x.work == id && x.tile == tile

/-- Change it. -/
def State.mapScan (s : State) (id tile : Nat) (f : ScanShare → ScanShare) : State :=
  { s with strm := { s.strm with shares := s.strm.shares.map fun x =>
      if x.work = id && x.tile = tile then f x else x } }

/-- A chunk of the stream runs (stopped or not), other than in step `step` of list `work`. -/
def State.chunkElsewhere (s : State) (stream work step : Nat) : Bool :=
  s.strm.shares.any fun x => !(x.work == work && x.step == step) && x.running.any fun i => i.stream == stream

/-- A chunk of the stream runs. -/
def State.chunkRuns (s : State) (stream : Nat) : Bool :=
  s.strm.shares.any fun x => x.running.any fun i => i.stream == stream

/-- An edit of the stream waits that no chunk of it keeps from being applied: it comes before any item that has yet to
start. -/
def State.editFirst (s : State) (stream : Nat) : Bool :=
  (s.wk.strmJobs.any fun j => bitsAt j.2.2.toNat 0 14 == stream) && !s.chunkRuns stream

/-- What decides whether an item starts. -/
inductive ItemGate where
  | fails (status : Byte)
  | held
  | starts (e : StreamEntry)
  deriving DecidableEq, Repr

/-- The table of R347. -/
def itemGate (s : State) (sh : ScanShare) (f : ScanFields) (it : ScanItem) (e : StreamEntry) : ItemGate :=
  let diff := (it.seq.toNat + 2 ^ 32 - e.next) % 2 ^ 32
  if !e.valid || e.mode != f.mode || e.chunk != f.chunk || e.heads != f.heads || e.pc != f.pc || e.nc != f.nc
      || e.bc != f.bc then .fails stStreamInvalid
  else if it.dup || s.chunkElsewhere it.stream sh.work sh.step then .fails stStreamBusy
  else if 2 ^ 31 ≤ diff then .fails stStreamSeqStale
  else if e.away || diff ≠ 0 then .held
  else .starts e

/-- Read a stream's entry. -/
def readStream (who : Who) (n : Nat) : Acc StreamEntry := do
  let s ← get
  let x ← rdNat { who with quiet := true, fed := true } (s.strmDva n) 32
  return streamEntry x

/-- Who makes a share's accesses. -/
def ScanShare.who (sh : ScanShare) : Who := { agent := sh.tile, key := stepKey sh.work sh.step }

/-- What R347 says of an item that comes to start; an entry that cannot be read fails it. -/
def gateOf (sh : ScanShare) (it : ScanItem) : Acc ItemGate :=
  tryCatch (do
    let e ← readStream sh.who it.stream
    let s ← get
    return itemGate s sh (scanFields sh.desc.toNat) it e) fun x =>
    match x with
    | .status st _ => return .fails st
    | .blocked d w => throw (.blocked d w)

/-- The item has failed: the lowest-numbered one decides the share's status (R350). -/
def ScanShare.fail (sh : ScanShare) (it : ScanItem) (st : Byte) : ScanShare :=
  if sh.failed.all fun x => it.idx < x.1 then { sh with failed := some (it.idx, it.stream, st) } else sh

/-- An item of a share fails, touching neither state nor NEXT_SEQ. -/
def State.scanFail (s : State) (sh : ScanShare) (it : ScanItem) (st : Byte) : State :=
  s.mapScan sh.work sh.tile fun x => x.fail it st

/-- The chunk of an item that starts: its inputs are read, its Y rows written, its carried-out state held for its
completion. -/
def chunkRun (c : Ctx) (f : ScanFields) (it : ScanItem) (e : StreamEntry) : Acc Unit := do
  let ch ← readChunk c f it.idx it.valid
  let hIn ← readState c f e e.state
  let zeros := List.replicate f.heads (List.replicate f.headState Fp.zero)
  let hInit ← if (ch.ms.contains true) && e.init != 0 then readState c f e e.init else pure zeros
  let (ys, out) ← if f.mode = 1 then do
      let ys := diagonal c.away f.t ch hIn.flatten hInit.flatten
      pure (ys, ys.getLastD [])
    else do
      let hs := (List.range f.heads).map fun h => (headOf f ch h, lget hIn h [], lget hInit h [])
      let ys ← (List.range it.valid).mapM fun t => do
        let rows ← hs.mapM fun x => x.1.out c.away f.p f.n x.2.1 x.2.2 t
        return rows.flatten
      let out ← hs.mapM fun x => x.1.carry c.away f.p f.n x.2.1 x.2.2
      pure (ys, out.flatten)
  let pitch := padded f.yf (f.heads * f.p)
  let c := c.rowsOf f.y pitch (f.yf.rowBytes (f.heads * f.p))
  forEach ys.zipIdx fun (row, t) => do
    writeElems c f.yf f.y pitch (it.idx * f.t + t) 0 row
    logUnit
  modify fun s => s.mapScan c.work c.tile fun sh =>
    { sh with running := some it, todo := sh.todo.filter fun i => i.idx != it.idx, stateDva := BitVec.ofNat 48 e.state,
              carry := packRow e.fmt c.away out }

/-! ### The share (R346) -/

/-- One item of a SCAN's list; how many positions are valid is open when VALID_M1 lies beyond T − 1. -/
def scanItem (f : ScanFields) (l : List Nat) (i x : Nat) : Acc ScanItem := do
  let m := bitsAt x 16 12
  let v ← if m < f.t then pure m else freeChoice f.t
  return { idx := i, stream := bitsAt x 0 14, valid := v + 1, seq := BitVec.ofNat 32 (x >>> 32),
           dup := 1 < l.countP fun y => bitsAt y 0 14 == bitsAt x 0 14 }

/-- The items of a SCAN's list (R344). -/
def scanItems (c : Ctx) (f : ScanFields) : Acc (List ScanItem) := do
  let raw ← rdNat c.who f.list (8 * f.items)
  let l := (List.range f.items).map fun i => bitsAt raw (64 * i) 64
  l.zipIdx.mapM fun (x, i) => scanItem f l i x

/-- The division of a SCAN: item i goes to rank i mod n. -/
def scanPlan (c : Ctx) : Acc Division := do
  let f := scanFields c.d
  let items ← scanItems c f
  let item := fun (i : ScanItem) =>
    ({ no := i.idx, rank := i.idx % max 1 c.n, lo := i.idx * f.t, hi := i.idx * f.t + i.valid } : PlanItem)
  return { base := f.y, pitch := padded f.yf (f.heads * f.p), items := items.map item }

/-- The share of a SCAN on a tile begins. -/
def scanBegins (c : Ctx) : Acc Unit := do
  let items ← scanItems c (scanFields c.d)
  let sh : ScanShare := { work := c.work, step := c.idx, tile := c.tile, desc := BitVec.ofNat 512 c.d,
                          todo := items.filter fun i => i.idx % max 1 c.n == c.rank }
  modify fun s => { s with strm := { s.strm with shares := s.strm.shares ++ [sh] } }

/-- SCAN (R333 to R350): its items run by `scanGo`, one at a time, not with those of the other kinds. -/
def scanKind : Kind :=
  { check := scanCheck, plan := scanPlan, begins := scanBegins, run := fun _ _ => pure (), ready := fun _ _ _ => false }

/-- The tile's progress on the share's list, while it runs the share (it is not stopped). -/
def State.scanRun (s : State) (sh : ScanShare) : Option (Work × TileRun) :=
  match s.work? sh.work with
  | some w => match w.run? sh.tile with
    | some r => if r.busy && r.next == sh.step then some (w, r) else none
    | none => none
  | none => none

/-- An item that has left the list of those to come: its rows, if it has written them, are final. -/
def State.scanTook (s : State) (sh : ScanShare) (it : ScanItem) : State :=
  s.mapWork sh.work fun w => { w with plans := w.plans.map fun p =>
    if p.step = sh.step then { p with items := p.items.filter fun x => x.no != it.idx } else p }

/-- An item starts, or fails in its first accesses; one that is held by a page has no effect yet. Also: whether the tile can
go on. -/
def State.startItem (s : State) (sh : ScanShare) (w : Work) (it : ScanItem) (e : StreamEntry) : State × Bool :=
  let d := sh.desc.toNat
  match s.computeItem w sh.step d (chunkRun (s.mkCtx w sh.tile sh.step d) (scanFields d) it e) with
  | (s, .ok _) => (((s.noteTouch w.id sh.step d).bookItem w.id w.id sh.tile).scanTook sh it, true)
  | (s, .error (.status st _)) =>
    let s := s.restore s.wk.undoCur
    let s := { s with wk := { s.wk with undoCur := [] } }
    let s := ((s.noteTouch w.id sh.step d).bookItem w.id w.id sh.tile).scanTook sh it
    ((s.mapScan w.id sh.tile fun x => { x with todo := x.todo.filter fun i => i.idx != it.idx }).scanFail sh it st, true)
  | (s, .error (.blocked dva wk)) =>
    (s.freshItem.mapWork w.id fun w => w.mapTile sh.tile fun r => { r with held := some (dva, wk) }, false)

/-- The tile takes its items in order until one runs. -/
def State.scanNext (s : State) (id tile : Nat) : Nat → State
  | 0 => s
  | fuel + 1 =>
    match s.scanShare id tile with
    | none => s
    | some sh =>
      match s.scanRun sh, sh.running, sh.todo with
      | some (w, r), none, it :: rest =>
        if s.editFirst it.stream || r.unissued ≠ 0 then s
        else match runAcc s (gateOf sh it) with
          | (s, .ok (.fails st)) =>
            (((s.mapScan id tile fun x => { x with todo := rest }).scanFail sh it st).scanTook sh it).scanNext id tile fuel
          | (s, .ok .held) =>
            (s.mapScan id tile fun x =>
              { x with todo := rest, held := x.held ++ [{ it with heldAt := some 0 }] }).scanNext id tile fuel
          | (s, .ok (.starts e)) =>
            let (s, on) := s.startItem sh w it e
            if on then s.scanNext id tile fuel else s
          | (s, .error _) => s
      | _, _, _ => s

/-- Put a released item back among those to come, in list order. -/
def insertItem (it : ScanItem) : List ScanItem → List ScanItem
  | [] => [it]
  | x :: r => if it.idx < x.idx then it :: x :: r else x :: insertItem it r

/-- A held item whose entry has changed is checked again, from row 1 of R347, once the entry can be read. -/
def State.recheckItem (s : State) (sh : ScanShare) (it : ScanItem) : State :=
  if s.editFirst it.stream then s
  else match runAcc s (gateOf sh it) with
    | (s, .ok g) =>
      let out := fun (x : ScanShare) => { x with held := x.held.filter fun i => i.idx != it.idx }
      match g with
      | .held => s.mapScan sh.work sh.tile fun x =>
          { x with held := x.held.map fun i => if i.idx = it.idx then { i with again := false } else i }
      | .fails st => ((s.mapScan sh.work sh.tile out).scanFail sh it st).scanTook sh it
      | .starts _ => s.mapScan sh.work sh.tile fun x =>
          { out x with todo := insertItem { it with heldAt := none, again := false } (out x).todo }
    | (s, .error _) => s

/-- A stream's entry has changed: its held items are to be checked again (R347, R354, R355). -/
def State.streamChanged (s : State) (stream : Nat) : State :=
  { s with strm := { s.strm with shares := s.strm.shares.map fun x =>
      { x with held := x.held.map fun i => if i.stream = stream then { i with again := true } else i } } }

/-- Held items are checked again where that is due, and every tile goes on with its items. -/
def State.scanGo (s : State) : State :=
  let s := s.each s.strm.shares fun s sh =>
    s.each (sh.held.filter fun i => i.again) fun s it => s.recheckItem sh it
  s.each s.strm.shares fun s sh => s.scanNext sh.work sh.tile (sh.todo.length + sh.held.length + 1)

/-! ### Completion (R348, R349) -/

/-- Write the carried-out state, then NEXT_SEQ in one write of the entry (R348); where the second fails, the state is as it
was (R349). -/
def writeCarry (sh : ScanShare) (it : ScanItem) : Acc Unit := do
  let u ← wr sh.who sh.stateDva.toNat sh.carry
  let s ← get
  let _ ← tryCatch (wr sh.who (s.strmDva it.stream + 16) (toBytes 4 ((it.seq.toNat + 1) % 2 ^ 32))) fun x => do
    modify fun s => s.restore u
    throw x
  return ()

/-- The running item is over: its Y rows stand. -/
def State.closeItem (s : State) (sh : ScanShare) : State :=
  (s.mapScan sh.work sh.tile fun x => { x with running := none, carry := [] }).mapWork sh.work fun w =>
    w.mapTile sh.tile fun r => { r with undo := [] }

/-- The running item of a tile completes. -/
def State.itemDone (s : State) (sh : ScanShare) (it : ScanItem) : State :=
  match runAcc s (writeCarry sh it) with
  | (s, .ok _) => (s.closeItem sh).streamChanged it.stream
  | (s, .error (.status st _)) => (s.closeItem sh).scanFail sh it st
  | (s, .error (.blocked _ _)) => s

/-- SCAN_ITEM_COMPLETE on a tile: not while reads of the chunk are outstanding; a chunk that one of them has failed writes no
state. -/
def State.scanItemDone (s : State) (tile : Nat) : State :=
  match s.runningOn tile with
  | none => s
  | some (w, r) =>
    match s.scanShare w.id tile with
    | none => s
    | some sh =>
      match sh.running with
      | none => s
      | some it =>
        if 0 < r.reads + r.unissued then s
        else if r.status == stOk then s.itemDone sh it
        else ((s.closeItem sh).scanFail sh it r.status).mapWork w.id fun w =>
          w.mapTile tile fun r => { r with status := stOk, detail := 0 }

/-! ### Hold limits (R354, R356) -/

/-- A boundary counts against every held item (R354). -/
def State.countHolds (s : State) : State :=
  { s with strm := { s.strm with shares := s.strm.shares.map fun x =>
      { x with held := x.held.map fun i => { i with heldAt := i.heldAt.map (· + 1) } } } }

/-- Hold limit of an entry in boundaries (R340, R357). -/
def State.holdLimit (s : State) (e : StreamEntry) : Nat :=
  max 1 (if e.hold = 0 then s.reg Reg.strmCtrlHoldTicks else e.hold)

/-- A held item leaves its tile's share with a status. -/
def State.holdEnds (s : State) (sh : ScanShare) (it : ScanItem) (st : Byte) : State :=
  ((s.mapScan sh.work sh.tile fun x => { x with held := x.held.filter fun i => i.idx != it.idx }).scanFail sh it st).scanTook
    sh it

/-- A held item that has reached its limit completes with a time-out status (R354). -/
def State.holdTimeout (s : State) (sh : ScanShare) (it : ScanItem) : State :=
  match runAcc s (readStream sh.who it.stream) with
  | (s', .ok e) =>
    if (it.heldAt.getD 0) < s.holdLimit e then s
    else (s'.bump Reg.strmStatusTimeoutCnt).holdEnds sh it (if e.away then stStreamAwayTimeout else stStreamSeqTimeout)
  | (s', .error (.status st _)) => s'.holdEnds sh it st
  | (s', .error (.blocked _ _)) => s'

/-- STREAM_HOLD_TIMEOUT on a tile, for every share that it holds. -/
def State.scanTimeouts (s : State) (tile : Nat) : State :=
  s.each (s.strm.shares.filter fun x => x.tile == tile) fun s sh => s.each sh.held fun s it => s.holdTimeout sh it

/-- Every item of a share has completed or failed. -/
def State.scanFinished (s : State) (id tile : Nat) : Bool :=
  match s.scanShare id tile with
  | some sh => sh.todo.isEmpty && sh.held.isEmpty && sh.running.isNone
  | none => true

/-- Status and DETAIL of a share that has finished (R350). -/
def ScanShare.verdict (sh : ScanShare) : Byte × BitVec 32 :=
  match sh.failed with
  | some (i, n, st) => (st, BitVec.ofNat 32 (i % 65536 + (n % 2 ^ 14) <<< 16))
  | none => (stOk, 0)

end Sys2Proof.Machine
end

