-- ==== Sys2Proof/Machine/Steps.lean ====
section
/-! DEFINITION. What remains of the steps: COPY, GATHER and SYNC, decode batching, how a share starts, runs its work items and
ends, slabs, failing lane rows and tiles, named tokens, read credits and quanta (05_steps_and_wings.md R160 to R190;
06_tile_arithmetic.md R221 to R225; 19_fusebox.md R609 to R617). -/

namespace Sys2Proof.Machine

/-! ### COPY, GATHER, SYNC (R162, R163) -/

/-- Checks of a COPY. -/
def copyCheck (c : Ctx) : Acc (List Nat) := do
  let (src, dst, n) := (c.f 64 48, c.f 128 48, c.f 192 32)
  let meets := c.handIn.isNone && !c.hands && decide (src < dst + n) && decide (dst < src + n)
  return (if onlyFields c.d [(64, 48), (128, 48), (192, 32)] then [] else [1])
    ++ cause2 (n == 0 || n % 64 != 0 || meets) ++ c.inputCauses n 64 ++ c.outputCauses dst n 64

/-- COPY: unit j goes to rank j mod n. An output row is one unit (assumption 9). -/
def copyKind : Kind :=
  { check := copyCheck
    plan := fun c =>
      let item := fun (j : Nat) =>
        ({ no := j, rank := j % max 1 c.n, lo := j, hi := j + 1, needs := [(64 * j, 64)] } : PlanItem)
      return { base := c.f 128 48, pitch := 64, items := itemsOf (c.f 192 32 / 64) item }
    run := fun c x => do
      let bs ← c.input (64 * x.no) 64
      c.output (c.f 128 48) (64 * x.no) bs }

/-- The operand fields of a GATHER. -/
structure GatherFields where
  index : Nat
  dst : Nat
  row : Nat
  count : Nat
  rows : Nat
  deriving DecidableEq, Repr

/-- Read them. -/
def gatherFields (d : Nat) : GatherFields :=
  { index := bitsAt d 128 48, dst := bitsAt d 192 48, row := bitsAt d 240 16, count := bitsAt d 256 16, rows := bitsAt d 272 32 }

/-- Checks of a GATHER. -/
def gatherCheck (c : Ctx) : Acc (List Nat) := do
  let f := gatherFields c.d
  return (if onlyFields c.d [(64, 48), (128, 48), (192, 48), (240, 16), (256, 16), (272, 32)] then [] else [1])
    ++ cause2 (f.row == 0 || f.row % 64 != 0 || 32768 < f.row || f.count == 0)
    ++ c.inputCauses (f.rows * f.row) 64 ++ operandCauses f.index (4 * f.count) 4
    ++ c.outputCauses f.dst (f.count * f.row) 64

/-- An index out of range: one note for each step (R163). -/
def gatherNote (c : Ctx) : Acc Unit := modify fun s =>
  if (s.work? c.work).all fun w => !w.gatherNoted.contains c.idx then
    (s.mapWork c.work fun w => { w with gatherNoted := w.gatherNoted ++ [c.idx] }).note fcSpGatherRange
  else s

/-- The row that index `i` names, if it is in range. -/
def GatherFields.named (f : GatherFields) (i : Nat) : Option Nat := if 2 ^ 31 ≤ i || f.rows ≤ i then none else some i

/-- One gathered row (R163). -/
def gatherRow (c : Ctx) (x : PlanItem) : Acc Unit := do
  let f := gatherFields c.d
  let i ← rdNat c.who (f.index + 4 * x.no) 4
  match f.named i with
  | none =>
    gatherNote c
    c.output f.dst (x.no * f.row) (List.replicate f.row 0)
  | some i =>
    let bs ← c.input (i * f.row) f.row
    c.output f.dst (x.no * f.row) bs

/-- What a gathered row reads of the table, once its index can be read. -/
def gatherReads (s : State) (c : Ctx) (x : PlanItem) : PlanItem :=
  let f := gatherFields c.d
  match (runAcc s (rdNat { c.who with quiet := true, fed := true } (f.index + 4 * x.no) 4)).2 with
  | .ok i => { x with needs := match f.named i with
      | some i => [(i * f.row, f.row)]
      | none => [] }
  | .error _ => x

/-- GATHER: row j goes to rank j mod n. -/
def gatherKind : Kind :=
  { check := gatherCheck
    plan := fun c =>
      let f := gatherFields c.d
      let item := fun (j : Nat) =>
        ({ no := j, rank := j % max 1 c.n, lo := j, hi := j + 1, needs := [(0, f.rows * f.row)],
           extra := [(f.index + 4 * j, 4)] } : PlanItem)
      return { base := f.dst, pitch := f.row, items := itemsOf f.count item }
    run := gatherRow
    reads := gatherReads }

/-- SYNC: no work items. -/
def syncKind : Kind :=
  { check := fun c => return if onlyFields c.d [] then [] else [1], plan := fun _ => return .plain [], run := fun _ _ => pure () }

/-- The step kinds (R160). -/
def kindOf (k : Nat) : Option Kind :=
  match k with
  | 0x01 => some matmulKind
  | 0x02 => some convKind
  | 0x03 => some dwconvKind
  | 0x04 => some vectorKind
  | 0x05 => some attKind
  | 0x06 => some scanKind
  | 0x07 => some poolKind
  | 0x08 => some cropKind
  | 0x09 => some resampleKind
  | 0x0A => some gatherKind
  | 0x0B => some copyKind
  | 0x0C => some migrateKind
  | 0x0D => some syncKind
  | _ => none

/-! ### Dividing a step (R158, R169, R170) -/

/-- The context, for reads that hold no credits of their own. -/
def Ctx.fedOnly (c : Ctx) : Ctx := { c with who := { c.who with fed := true } }

/-- Slabs of `bytes` bytes that ranges of the main input touch, ascending. -/
def slabsOf (bytes : Nat) (l : List (Nat × Nat)) : List Nat :=
  (l.flatMap fun r => (slabPieces bytes r.1 r.2).map fun p => p.1).foldl sins []

/-- The work items of the step that takes a hand-off, if its division can be told before it starts. -/
def takerItems (w : Work) (c : Ctx) (nx : Nat) : Acc (Option (List PlanItem)) := do
  match kindOf (hKind nx) with
  | some k =>
    if pipeKinds.contains (hKind nx) then
      tryCatch (do
        let d ← k.plan ((← get).mkCtx w c.tile (c.idx + 1) nx).fedOnly
        return some d.items) fun x =>
        match x with
        | .status _ _ => return none
        | .blocked d t => throw (.blocked d t)
    else return none
  | none => return none

/-- The hand-off of a step's output: what each tile of the wing reads of it; all of it where that cannot be told. -/
def planHand (w : Work) (c : Ctx) (dv : Division) (nx : Nat) : Acc HandOff := do
  let slab := 2 ^ hSlabLog2 c.d
  let bytes := slab * dv.pitch
  let all := List.range (cdiv (dv.items.foldl (fun m x => max m x.hi) 0) slab)
  let items ← takerItems w c nx
  let slabs := fun (rank : Nat) => match items with
    | some l => slabsOf bytes ((l.filter fun x => x.rank == rank).flatMap fun x => x.needs)
    | none => all
  return { step := c.idx, base := BitVec.ofNat 48 (hInput nx), slots := hOutSlots c.d, bytes := bytes,
           tiles := w.on.zipIdx.map fun p => { tile := p.1, slabs := slabs p.2 } }

/-- Divide a step, once for all its tiles; the divisions of the last steps are kept. -/
def planStep (k : Kind) (c : Ctx) (nx : Option Nat) : Acc Unit := do
  let s ← get
  match s.work? c.work with
  | none => return ()
  | some w =>
    if (w.plan? c.idx).isSome then return ()
    else
      let dv ← k.plan c.fedOnly
      let next := if c.hands then nx.toList else []
      let hands ← next.mapM (planHand w c dv)
      let p : StepPlan := { step := c.idx, desc := BitVec.ofNat 512 c.d, base := dv.base, pitch := dv.pitch,
                            slab := 2 ^ hSlabLog2 c.d, items := dv.items }
      modify fun s => s.mapWork c.work fun w =>
        { w with plans := (w.plans.filter fun q => c.idx ≤ q.step + 2) ++ [p]
                 hands := (w.hands.filter fun h => c.idx ≤ h.step + 2) ++ hands }

/-! ### Decode batching (R187 to R190) -/

/-- What batched steps must have in common. -/
def batchKey (d : Nat) : List Nat :=
  [hBatch d, bitsAt d 128 48, bitsAt d 240 16, bitsAt d 176 16, bitsAt d 384 12, bitsAt d 396 6, bitsAt d 320 48,
    bitsAt d 416 40]

/-- A list parks at its current step in a batch. -/
def State.parkIn (s : State) (id b : Nat) : State :=
  s.mapWork id fun w => { w with phase := .parked, batch := some b }

/-- Open batches of a wing and class. -/
def State.openBatches (s : State) (wing : Nat) : List Batch := s.wk.batches.filter fun b => b.wing == wing && !b.released

/-- Open a batch with a list. -/
def State.newBatch (s : State) (w : Work) (key : List Nat) (rows : Nat) : State :=
  let b : Batch := { id := s.wk.nextId, wing := w.wing, cls := w.cls, key := key, rows := rows, since := s.now,
                     members := [w.id] }
  let s := { s with wk := { s.wk with batches := s.wk.batches ++ [b], nextId := s.wk.nextId + 1 } }
  s.parkIn w.id b.id

/-- Release the list's batch if its rows reach THRESHOLD. -/
def State.releaseFull (s : State) (w : Work) : State :=
  s.releaseWhere fun b => b.members.contains w.id && s.reg (Reg.spBatchThreshold.ix w.wing) ≤ b.rows

/-- A list's step joins its batch, or opens one; none: it runs now, alone. -/
def State.enterBatch (s : State) (w : Work) (key : List Nat) (rows : Nat) : Option State :=
  let same := (s.openBatches w.wing).find? fun b => b.cls == w.cls && b.key == key
  let full := same.any fun b => 64 < b.rows + rows
  let s : State := match same with
    | some b => if full then s.releaseBatch b.id else s
    | none => s
  match same, full with
  | some b, false =>
    let bs := s.wk.batches.map fun x => if x.id = b.id then
      { x with rows := x.rows + rows, members := x.members ++ [w.id] } else x
    some ((({ s with wk := { s.wk with batches := bs } }).parkIn w.id b.id).releaseFull w)
  | _, _ =>
    if 16 ≤ (s.openBatches w.wing).length then none
    else some ((s.newBatch w key rows).releaseFull w)

/-- A MATMUL with a non-zero BATCH joins, or opens, a batch once it could start on every tile; none: it runs now, alone. -/
def State.joinBatch (s : State) (w : Work) (c : Ctx) (nx : Option Nat) : Option State :=
  let d := c.d
  if hBatch d = 0 || w.cls == .urgent || !s.flag (Reg.spBatchEnable.ix w.wing) || w.batch.isSome then none
  else if !(w.tiles.all fun r => r.next == c.idx && !r.busy
      && (!hWaitEn d || (s.tileSt r.tile).tokens.contains (hWaitToken d))) then some s
  else match runAcc s (planStep matmulKind c nx) with
    | (s', .ok _) => s'.enterBatch w (batchKey d) (mmM d)
    | (s', .error _) => some s'

/-- A list has completed its batch's step: it waits, parked, until the batch has run. -/
def State.batchStepDone (s : State) (id : Nat) : State :=
  match (s.work? id).bind fun w => w.batch with
  | none => s
  | some b =>
    let bs := s.wk.batches.map fun x => if x.id = b then { x with members := x.members.filter (· != id) } else x
    let s := { s with wk := { s.wk with batches := bs.filter fun x => !x.members.isEmpty } }
    s.mapWork id fun w => { w with phase := .parked }

/-- Lists whose batch has run, or is gone, leave their parking and go on in admission order (R188). -/
def State.unpark (s : State) : State :=
  s.mapWorks fun w =>
    match w.batch with
    | some b => if s.wk.batches.any fun x => x.id == b then w
        else { w with batch := none, phase := if w.phase == .parked then .waiting else w.phase }
    | none => w

/-- The lists that are batched with this one and whose work its shares run: it leads a released batch. -/
def State.mates (s : State) (w : Work) : List Work :=
  match w.batch.bind fun b => s.wk.batches.find? fun x => x.id == b && x.released && x.members.head? == some w.id with
  | some b => b.members.tail.filterMap s.work?
  | none => []

/-- The lists whose work items the list's shares run. -/
def State.parties (s : State) (w : Work) : List Work := w :: s.mates w

/-! ### Failing units (06_tile_arithmetic.md R222 to R225; 19_fusebox.md R609, R615 to R617) -/

/-- Entries that the ledger region holds. -/
def ledgerSize : Nat := 65536

/-- Entries that the repair ledger holds. -/
def FlashSt.findings (x : FlashSt) : Nat := x.factoryBad.length + x.ledger.length

/-- What a repair-ledger entry says (R615): its KIND, WHERE, BAY, INDEX, SOURCE and APPLIED. -/
structure Repair where
  kind : Nat
  place : Nat
  bay : Nat := 0
  index : Nat := 0
  source : Nat
  applied : Bool := false
  deriving DecidableEq, Repr

/-- The lower 96 bits of an entry with its CHECK (R615). -/
def withCheck (x : Nat) : BitVec 128 :=
  BitVec.ofNat 128 (x % 2 ^ 96 + ofBytes (shake256 (toBytes 12 x) 4) <<< 96)

/-- A repair-ledger entry as stored (R615). -/
def Repair.bits (r : Repair) (tick : BitVec 64) : BitVec 128 :=
  withCheck (r.kind + r.place <<< 4 + r.bay <<< 9 + r.index <<< 11 + r.source <<< 24 + b2n r.applied <<< 27 + tick.toNat <<< 32)

/-- An entry once a start has applied it: one of KIND 1 to 3 is in effect (R616). -/
def ledgerApplied (e : BitVec 128) : BitVec 128 :=
  if bitsAt e.toNat 0 4 ≤ 3 then withCheck (putBits e.toNat 27 1 1) else e

/-- Append a repair-ledger entry, unless the region is full. One of KIND 1 to 3 that no start's self-test made waits for the
next start (R616). -/
def State.ledger (s : State) (r : Repair) (f : FlashSt → FlashSt) : State :=
  if s.flag Reg.fbLedgerFull then s
  else
    let n := s.flash.findings + 1
    let x := f s.flash
    let s := ({ s with flash := { x with ledger := x.ledger ++ [r.bits s.tick.number] } }).bump Reg.fbLedgerEntries
    let s := if ledgerSize ≤ n then s.setFlag Reg.fbLedgerFull true else s
    if r.kind ≤ 3 && r.source != 1 then s.bump Reg.fbLedgerPending else s

/-- The logical tile that a P-tile holds. -/
def State.logicalOf (s : State) (p : Nat) : Option Nat := s.tilesPresent.find? fun t => s.ptile t == p

/-- UNIT of a TILE_FAILED record (R605). -/
def tileUnit (p bay row : Nat) : Nat := p + bay <<< 5 + row <<< 7

/-- With REPAIR_MDR set, an MDR follows the entry at once (R616), if it was written. -/
def State.repairMdr (s : State) (written : Bool) : State :=
  if written && s.flag Reg.fbCtrlRepairMdr then s.orderMdr 6 else s

/-- The ledger entry of a whole P-tile: of KIND 2, or 3 where it is a spare. -/
def State.tileRepair (s : State) (p source : Nat) : Repair :=
  { kind := if (s.logicalOf p).isSome then 2 else 3, place := p, source := source }

/-- The ledger entry of a lane row. -/
def rowRepair (e : Nat × Nat × Nat) (source : Nat) : Repair :=
  { kind := 1, place := e.1, bay := e.2.1, index := e.2.2, source := source }

/-- A whole P-tile has failed: it is fenced; a spare is never assigned from then on (R225, R609). -/
def State.tileFailed (s : State) (p bay source : Nat) : State :=
  let written := !s.flag Reg.fbLedgerFull
  let s := match s.logicalOf p with
    | some t => s.setReg (Reg.tlMapBayFenced.ix t) 15
    | none => s
  let s := { s with fb := { s.fb with tilesOut := sins s.fb.tilesOut p } }
  let s := s.ledger (s.tileRepair p source) fun f => { f with tileBad := f.tileBad ++ [p] }
  (s.raise (mkReport fcTileFailed 1 (tileUnit p bay 127) 0 true)).repairMdr written

/-- The lane row as the ledger names it: a spare in use counts as the row that it replaces (R224). -/
def FlashSt.rowOf (f : FlashSt) (p bay row : Nat) : Nat :=
  if row < 64 then row
  else
    let mine := ((f.bayRows.take f.rowsApplied).filter fun x => x.1 == p && x.2.1 == bay).map fun x => x.2.2
    lget mine (row - 64) row

/-- A lane row of a P-tile has failed (R222 to R225). -/
def State.laneRowFailed (s : State) (p bay row source : Nat) : State :=
  let written := !s.flag Reg.fbLedgerFull
  let row := s.flash.rowOf p bay row
  match s.logicalOf p with
  | none =>
    let s := s.ledger (rowRepair (p, bay, row) source) fun f => { f with bayRows := f.bayRows ++ [(p, bay, row)] }
    (s.raise (mkReport fcTileFailed 1 (tileUnit p bay row) 0 true)).repairMdr written
  | some t =>
    if s.reg (Reg.bySpareSparesUsed.ix t |>.up (8 * bay)) = 2 then
      (s.setFlag (Reg.bySpareTileFail.ix t |>.up (8 * bay)) true).tileFailed p bay source
    else
      let s := s.setReg (Reg.tlMapBayFenced.ix t) (s.reg (Reg.tlMapBayFenced.ix t) ||| 1 <<< bay)
      let s := s.setFlag (Reg.bySpareRepairPending.ix t |>.up (8 * bay)) true
      let s := s.ledger (rowRepair (p, bay, row) source) fun f => { f with bayRows := f.bayRows ++ [(p, bay, row)] }
      (s.raise (mkReport fcTileFailed 1 (tileUnit p bay row) 0 true)).repairMdr written

/-- A residue check fails in a running share: it is to complete with UNIT_FAILED, and runs no further item (R222). -/
def State.residueFail (s : State) (t bay row : Nat) (id : Nat) : State :=
  if (s.fencedBays t).testBit bay then s
  else
    let s := s.mapWork id fun w => w.mapTile t fun r => { r with broken := true }
    let s := s.bump (Reg.bySpareResidueErr.ix t |>.up (8 * bay))
    s.laneRowFailed (s.ptile t) bay row 3

/-! ### Starting a share (R161, R167, R173) -/

/-- A share begins on a tile: its token is consumed (R173). `busy`: it is the one that runs, not one batched with it. -/
def State.shareOpens (s : State) (id t d : Nat) (busy : Bool) : State :=
  let ts := s.tileSt t
  let s := if hWaitEn d && hConsume d then s.setTileSt t { ts with tokens := ts.tokens.filter (· != hWaitToken d) } else s
  s.mapWork id fun w => w.mapTile t fun r =>
    { r with busy := busy, stop := false, status := stOk, detail := 0, waited := 0, undo := [], out := [], held := none,
             lines := [], broken := false, emit := if hEmitEn d then some (hEmitToken d) else none }

/-- The share begins, and with it those batched with it. -/
def State.sharesOpen (s : State) (w : Work) (t d : Nat) : State :=
  s.each (s.mates w) (fun s v =>
    match (v.run? t).bind fun r => v.plan? r.next with
    | some p => s.shareOpens v.id t p.desc.toNat false
    | none => s) |>.shareOpens w.id t d true

/-- The tokens of the slabs that the tile needs first have arrived. -/
def State.fedFirst (s : State) (k : Kind) (c : Ctx) : Bool :=
  match s.work? c.work with
  | none => false
  | some w => match w.left c.idx c.rank with
    | [] => true
    | x :: _ => w.fedFor c.tile c.idx c.d (k.reads s c x)

/-- A share starts: the step is divided, if this is its first share, and what comes before its items happens. -/
def State.beginShare (s0 s : State) (k : Kind) (w : Work) (c : Ctx) (nx : Option Nat) : State :=
  let first : Acc Unit := do
    planStep k c nx
    k.begins c
  let book := fun (s : State) => (s.noteTouch w.id c.idx c.d).bookItem w.id w.id c.tile
  match ((s.sharesOpen w c.tile c.d).bookItem w.id w.id c.tile).computeItem w c.idx c.d first with
  | (s, .ok _) => if s.fedFirst k c then book s else s0
  | (s, .error (.status st dt)) => (book s).markShare w.id c.tile st dt
  | (s, .error (.blocked _ _)) => s0.blockedFrom s

/-- The list waits, before step `i`, for the LENGTH of an earlier ATTENTION step (09_attention_and_kv.md R321). -/
def State.lengthWaits (s : State) (id i : Nat) : Bool :=
  s.att.runs.any fun r => r.work == id && decide (r.step < i) && r.advance

/-- Start the tile's share of a step of this kind: the checks of R161, the conditions of R167, the token of R173, a fenced
tile (R611) or one without an intact bay for a step of the bays, the batch of R187, then the share itself. -/
def State.enterStep (s0 : State) (k : Kind) (w : Work) (t i d : Nat) (nx : Option Nat) : State :=
  let c := s0.mkCtx w t i d
  let ok := w.ready i d && !s0.lengthWaits w.id i
    && (!hWaitEn d || w.batch.isSome || (s0.tileSt t).tokens.contains (hWaitToken d))
  match runAcc s0.freshItem (k.check c) with
  | (s, .ok causes) =>
    match lowest (headerCauses d nx ++ causes) with
    | some cause => s.stopBefore s0 w i stBadStep (badDetail i cause)
    | none =>
      if !ok then s0
      else if s0.fenced t || (k.bays && s0.fencedBays t == 15) then
        s0.each (s0.parties w) fun s v => s.shareRefused v.id t (((v.run? t).map fun r => r.next).getD i) stUnitFailed 0
      else match if hKind d = 1 then s0.joinBatch w c nx else none with
        | some s => s
        | none => s0.beginShare s k w c nx
  | (s, .error (.status st dt)) =>
    if ok then ((s.sharesOpen w t d).bookItem w.id w.id t).markShare w.id t st dt else s0
  | (s, .error (.blocked _ _)) => s

/-- A step command of kind `kind` on a tile: the tile reads its next step and, if it is of that kind (or of none), starts its
share of it. -/
def State.startShare (s : State) (kind t : Nat) : State :=
  if !s.tileFree t then s
  else match s.current t with
    | none => s
    | some (w, r) =>
      match runAcc s (readStep w t r.next) with
      | (s', .ok (d, nx)) =>
        match kindOf (hKind d) with
        | none => s'.stopBefore s w r.next stBadStep (badDetail r.next 1)
        | some k => if hKind d ≠ kind then s else s'.enterStep k w t r.next d nx
      | (s', .error (.status c e)) => s'.stopBefore s w r.next c e
      | (s', .error (.blocked _ _)) => s'

/-! ### Running a share (R158, R169, R170) -/

/-- A work item that a share runs next: of which list and step, and how. -/
structure Chosen where
  work : Work
  step : Nat
  d : Nat
  item : PlanItem
  kind : Kind
  ctx : Ctx

/-- The first work item of list `v` that tile `t` can run, in a share of list `w`. -/
def State.itemOf (s : State) (w v : Work) (t : Nat) : Option Chosen :=
  match (v.run? t).bind fun r => v.plan? r.next with
  | none => none
  | some p =>
    let d := p.desc.toNat
    match kindOf (hKind d) with
    | none => none
    | some k =>
      let c := { s.mkCtx v t p.step d with group := stepKey w.id (((w.run? t).map fun r => r.next).getD 0) }
      ((v.left p.step c.rank).find? fun x => k.ready s c x && v.fedFor t p.step d (k.reads s c x)).map fun x =>
        { work := v, step := p.step, d := d, item := x, kind := k, ctx := c }

/-- The work item that a tile's running share can take now: none once the share has failed, or while reads of it wait for
credits, or slabs for slots (R170, R177). Lists that are batched take their items of one block together. -/
def State.nextItem (s : State) (w : Work) (r : TileRun) : Option Chosen :=
  let l := s.parties w
  if !r.busy || r.status != stOk || r.broken || r.unissued ≠ 0
      || l.any fun v => (v.run? r.tile).any fun q => !q.out.isEmpty then none
  else (l.filterMap fun v => s.itemOf w v r.tile).foldl (fun a y => match a with
    | none => some y
    | some x => if y.item.no < x.item.no then some y else a) none

/-- Output of a share whose slots are free is written to the consumer tiles' Pantries (R170). -/
def State.flushRun (s : State) (w : Work) (r : TileRun) : State :=
  match w.hand? r.next with
  | none => s
  | some h => s.each r.out fun s o =>
    let gone := fun (s : State) => s.mapWork w.id fun w => w.mapTile r.tile fun q => { q with out := q.out.erase o }
    match h.tile? o.tile with
    | none => gone s
    | some x =>
      let k := o.off / max 1 h.bytes
      if (x.slabs.findIdx? fun y => y == k).all fun n => n < x.freed + h.slots then
        let at_ := h.base.toNat + slotAt x.slabs h.slots k * h.bytes + o.off % max 1 h.bytes
        match runAcc s (wr { agent := o.tile, key := stepKey w.id r.next } at_ o.bytes) with
        | (s, .ok _) => gone s
        | (s, .error (.status st d)) => (gone s).markShare w.id r.tile st d
        | (s, .error (.blocked _ _)) => s
      else s

/-- Write all output that has room. -/
def State.flushOut (s : State) : State :=
  s.each s.wk.works fun s w => s.each (w.tiles.filter fun r => !r.out.isEmpty) fun s r => s.flushRun w r

/-- A running share takes its work items as far as it can; `fuel` bounds them. -/
def State.shareGo (s : State) (id t : Nat) : Nat → State
  | 0 => s
  | fuel + 1 =>
    match (s.work? id).bind fun w => (w.run? t).bind fun r => s.nextItem w r with
    | none => s
    | some y =>
      let (s, ran) := s.runItem id t y.work y.step y.d y.item (y.kind.run y.ctx y.item)
      if ran then s.flushOut.shareGo id t fuel else s

/-- Work items that have not run, and output that has no slot yet. -/
def State.workLeft (s : State) : Nat :=
  total (s.wk.works.map fun w => total (w.plans.map fun p => p.items.length) + total (w.tiles.map fun r => r.out.length))

/-- Shares that run: list and tile. -/
def State.sharesBusy (s : State) : List (Nat × Nat) :=
  s.wk.works.flatMap fun w => (w.tiles.filter fun r => r.busy).map fun r => (w.id, r.tile)

/-- Running shares go on for as long as one of them gets further. -/
def State.sharesGo (s : State) : Nat → State
  | 0 => s
  | fuel + 1 =>
    let s' := (s.flushOut.each s.sharesBusy fun s p => s.shareGo p.1 p.2 (s.workLeft + 1)).scanGo
    if s'.workLeft < s.workLeft then s'.sharesGo fuel else s'

/-- Running shares go on as far as they can. -/
def State.stepsGo (s : State) : State :=
  if s.wk.works.any Work.busy || !s.strm.shares.isEmpty then s.sharesGo (s.workLeft + 1) else s

/-- A step of the bays, with the residue failure that its share meets, if any (R221): integer operands are checked, and the
failure may come after any of the share's work items. -/
def State.bayStep (s : State) (kind t : Nat) (fail : Option (Fin 4 × Fin 66)) : State :=
  let s' := s.startShare kind t
  match fail, s'.runningOn t with
  | some (bay, row), some (w, r) =>
    if s.tileBusy t then s'
    else match w.plan? r.next with
      | some p =>
        let f := bayFields p.desc.toNat
        if f.af.isInt && f.bf.isInt then
          let (k, s') := s'.fresh
          (s'.shareGo w.id t (Config.freeNat k % (s'.workLeft + 1))).residueFail t bay row w.id
        else s'
      | none => s'
  | _, _ => s'

/-! ### Named tokens (R172) -/

/-- A tile's emission of a token: when every tile of the wing has emitted it, the tiles can take it. -/
def State.emit (s : State) (w : Work) (t i tok : Nat) : State :=
  let same := fun (e : Emission) => e.work == w.id && e.step == i && e.token == tok
  if s.wk.emissions.any same then
    let es := s.wk.emissions.map fun e => if same e then { e with from_ := sins e.from_ t } else e
    { s with wk := { s.wk with emissions := es } }
  else
    let e : Emission := { token := tok, work := w.id, step := i, from_ := [t], need := w.on, to_ := s.tilesPresent }
    { s with wk := { s.wk with emissions := s.wk.emissions ++ [e] } }

/-- A token reaches a tile; an emission that finds the token set has no effect there, and is noted once. -/
def State.tokenArrives (s : State) (t tok : Nat) : State :=
  match s.wk.emissions.findIdx? fun e => e.token == tok && e.to_.contains t && e.need.all fun x => e.from_.contains x with
  | none => s
  | some k =>
    let again := (s.tileSt t).tokens.contains tok
    let late := again && (s.wk.emissions[k]?.any fun e => !e.noted)
    let es := s.wk.emissions.zipIdx.map fun (e, j) =>
      if j = k then { e with to_ := e.to_.filter (· != t), noted := e.noted || again } else e
    let s := { s with wk := { s.wk with emissions := es.filter fun e => !e.to_.isEmpty } }
    let ts := s.tileSt t
    if again then if late then s.note fcSpToken else s
    else s.setTileSt t { ts with tokens := sins ts.tokens tok }

/-! ### The end of a share (R167, R176) -/

/-- Writes of a tile's share that have not been applied: to a page in MOVING or ZEROING, or to another device
(18_party_wall.md R581). -/
def State.writesOut (s : State) (t key : Nat) : Bool :=
  (s.pw.reqs.any fun q => q.agent == t && q.write && q.key == key) || s.deed.held.any fun h => h.agent == t && h.key == key

/-- Every work item of a share has run and every byte of its output is where it goes; of all the lists that it runs for. -/
def State.itemsDone (s : State) (w : Work) (t : Nat) : Bool :=
  (s.parties w).all fun v => match v.run? t with
    | some q => q.out.isEmpty && (v.left q.next (v.rankOf t)).isEmpty && !s.writesOut t (stepKey v.id q.next)
    | none => true

/-- Status and DETAIL of a share at its end. -/
def State.shareEnd (s : State) (w : Work) (r : TileRun) : Byte × BitVec 32 :=
  if r.broken then (stUnitFailed, 0)
  else match s.scanShare w.id r.tile with
    | some sh => if sh.failed.isSome then sh.verdict else (r.status, r.detail)
    | none => (r.status, r.detail)

/-- A step is complete on every tile of its list: an ATTENTION grows its sequences and no longer runs; a MIGRATE takes the
status of all its ranks; a batched list waits for its batch. None: an access is held. -/
def State.stepDone (s : State) (id k t : Nat) : Option State :=
  let s := match s.migrateVerdict id k with
    | some (st, d) => if st == stOk then s else s.mapWork id fun w => w.fail_ (k + 1) st d
    | none => s
  let s := if (s.work? id).any fun w => w.batch.isSome && w.done == k then s.batchStepDone id else s
  match s.attRun? id k with
  | none => some s
  | some r =>
    if (s.work? id).any fun w => w.halt.any fun h => h.1 ≤ k + 1 then some (s.attOver id k)
    else match runAcc s (attDone { agent := t, key := stepKey id k } r) with
    | (s, .ok _) => some (s.attOver id k)
    | (s, .error (.status st d)) => some ((s.attOver id k).mapWork id fun w => w.fail_ (k + 1) st d)
    | (_, .error (.blocked _ _)) => none

/-- Steps that every tile has completed. -/
def Work.minNext (w : Work) : Nat := w.tiles.foldl (fun a r => min a r.next) w.count

/-- Step `k` has completed with a status other than OK. -/
def Work.failedAt (w : Work) (k : Nat) : Bool := w.halt.any fun h => h.1 == k + 1

/-- Count the steps that are complete on every tile; a step that failed is not counted (04_rings_and_doorbells.md R145). -/
def State.advance (s : State) (id t : Nat) : Nat → Option State
  | 0 => some s
  | fuel + 1 =>
    match s.work? id with
    | none => some s
    | some w =>
      if w.minNext ≤ w.done then some s
      else match s.stepDone id w.done t with
        | none => none
        | some s =>
          if (s.work? id).any fun w => w.failedAt w.done then some s
          else
            let old := fun (key : Nat) => key / 65536 == id + 1 && key % 65536 ≤ w.done
            let s := { s with wk := { s.wk with exact := s.wk.exact.filter fun e => !old e.1 } }
            (s.mapWork id fun w => { w with done := w.done + 1 }).advance id t fuel

/-- A list whose every step is complete ends with OK. -/
def State.listDone (s : State) (id : Nat) : State :=
  match s.work? id with
  | some w => if w.done = w.count && w.halt.isNone && w.ending.isNone && w.batch.isNone then s.endList w stOk 0 else s
  | none => s

/-- The tile's share of a list, or of one batched with it, has ended with OK. -/
def State.shareOk (s : State) (w : Work) (r : TileRun) : State :=
  let s := match r.emit with
    | some tok => s.emit w r.tile r.next tok
    | none => s
  (s.dropShare w.id r.tile).mapWork w.id fun w => w.mapTile r.tile fun r =>
    { r with next := r.next + 1, busy := false, stop := false, undo := [], out := [], held := none, pages := [], lines := [],
             emit := none }

/-- The step fails by a SCAN item: the lowest-numbered one of all tiles gives the status (10_state_streams.md R350). -/
def Work.failItem (w : Work) (bound idx : Nat) (status : Byte) (detail : BitVec 32) : Work :=
  let first := w.halt.all fun h => bound < h.1
  let lower := (w.halt.any fun h => h.1 == bound) && w.itemFail.any fun y => y.1 + 1 == bound && idx < y.2
  if first || lower then { w with halt := some (bound, status, detail), itemFail := some (bound - 1, idx) } else w

/-- The tile's share of a list, or of one batched with it, has ended with another status: the list stops. -/
def State.shareBad (s : State) (w : Work) (r : TileRun) (status : Byte) (detail : BitVec 32) : State :=
  let item := (s.scanShare w.id r.tile).bind fun sh => sh.failed
  let s := s.discardShare w.id r
  s.mapWork w.id fun w =>
    let w := w.mapTile r.tile fun r => { r with next := r.next + 1 }
    match item with
    | some x => w.failItem (r.next + 1) x.1 status detail
    | none => w.fail_ (r.next + 1) status detail

/-- A tile's share has ended with a status; so have those batched with it (R189). None: an access is held. -/
def State.shareOver (s : State) (w : Work) (t : Nat) (status : Byte) (detail : BitVec 32) : Option State :=
  let l := s.parties w
  let s := s.each l fun s v => match v.run? t with
    | some r => if status == stOk then s.shareOk v r else s.shareBad v r status detail
    | none => s
  let s := s.forgetRemote t
  (l.foldl (fun (a : Option State) v => a.bind fun s => s.advance v.id t (v.count + 1)) (some s)).map fun s =>
    (s.each l fun s v => s.listDone v.id).unpark.dropMigrates

/-- STEP_SHARE_COMPLETE on a tile. A share that has failed completes at once; any other not while work items, reads, writes,
stream items or moves of it are outstanding. Where the list has stopped at this step or before it, a share whose remaining
items wait for what no longer comes is dropped, or completes without them. -/
def State.shareDone (s : State) (t : Nat) : State :=
  match s.runningOn t with
  | none => s
  | some (w, r) =>
    let (st, d) := s.shareEnd w r
    let stuck := (w.halt.any fun h => h.1 ≤ r.next + 1) && (s.nextItem w r).isNone
    if !s.scanFinished w.id t then s
    else if st != stOk then (s.shareOver w t st d).getD s
    else if stuck && w.bound ≤ r.next then (s.discardShare w.id r).dropMigrates
    else if s.migrating w.id t || 0 < r.reads + r.unissued || !(s.itemsDone w t || stuck) then s
    else (s.shareOver w t stOk 0).getD s

/-! ### Quanta and credits (R177 to R181) -/

/-- QUANTUM_END on a tile with a pending stop request: a share that is not to resume is dropped; another spills into its
context, and its outstanding reads complete into its buffers (R179 to R181). -/
def State.quantumOver (s : State) (t : Nat) : State :=
  match s.runningOn t with
  | none => s
  | some (w, r) =>
    if !r.stop then s
    else if w.ending.isSome then s.discardShare w.id r
    else
      let (k, s) := s.fresh
      let ts := s.tileSt t
      let ctx : Spill := { work := w.id, key := k }
      let s := s.setTileSt t { ts with bgCtx := if w.cls == .background then some ctx else ts.bgCtx,
                                       tickCtx := if w.cls == .tick then some ctx else ts.tickCtx }
      s.mapWork w.id fun w => w.mapTile t fun r => { r with busy := false, stop := false, spilled := true }

/-- Reads of the running share that waited for credits are issued as far as they go (R177, R178). -/
def State.issueReads (s : State) (t : Nat) : State :=
  match s.runningOn t with
  | none => s
  | some (w, r) =>
    let m := min r.unissued (s.creditsFree t (w.cls == .urgent))
    s.mapWork w.id fun w => w.mapTile t fun r => { r with reads := r.reads + m, unissued := r.unissued - m }

/-- A correctable error is counted (R299). -/
def State.countCorr (s : State) (loc : MemLoc) : State :=
  match loc with
  | .media h _ => if h.val < 18 then s.bump (Reg.loftSliceCorr.ix h) else s.bump (Reg.celErrCorr.ix (h - 18))
  | .pantry t _ => s.bump (Reg.panErrCorr.ix t)
  | .deed _ => s.bump Reg.deedErrCorr

/-- An uncorrectable error is counted and reported, and the unit stays bad until a write replaces it (R299 to R302). -/
def State.hitUncorr (s : State) (loc : MemLoc) : State :=
  match loc with
  | .media h u => (s.markBad h (64 * u.toNat)).reportBad h [64 * u.toNat]
  | .pantry t u => (s.markBad (pantrySpace t) (8 * u.toNat)).reportBad (pantrySpace t) [8 * u.toNat]
  | .deed p => s.failEntry p.toNat

/-- The page of Loft, Cellar or window in which a location lies: home and frame. -/
def pageOf (loc : MemLoc) : Option (Nat × Nat) :=
  match loc with
  | .media h u => some (h.val, u.toNat / 1024)
  | _ => none

/-- The share of a tile that has a read of a page outstanding, a stopped one first, and the DVA page of that read. -/
def State.readerOf (s : State) (t : Nat) (page : Nat × Nat) : Option (Work × TileRun × Nat) :=
  let find := fun (p : TileRun → Bool) => s.wk.works.findSome? fun w =>
    match w.run? t with
    | some r => if p r && 0 < r.reads then (r.pages.find? fun x => (x.2.1, x.2.2) == page).map fun x => (w, r, x.1) else none
    | none => none
  match find fun r => r.spilled with
  | some x => some x
  | none => find fun r => !r.spilled

/-- A read of a discarded share returns. -/
def State.orphanReturns (s : State) (t : Nat) (page : Nat × Nat) : Option State :=
  let ts := s.tileSt t
  match ts.orphans.find? fun o => o.pages.any fun x => (x.2.1, x.2.2) == page with
  | none => none
  | some o =>
    let rest := ts.orphans.erase o
    some (s.setTileSt t { ts with orphans := if o.n ≤ 1 then rest else { o with n := o.n - 1 } :: rest })

/-- READ_CREDIT_RETURN on a tile: the read's credit is free, a read that waited for one takes it, and what was read is good,
corrected, or not to be corrected: then the share that asked for it fails (R299). -/
def State.readReturns (s : State) (t : Nat) (loc : MemLoc) (ecc : Ecc) : State :=
  let hit := fun (s : State) => match ecc with
    | .ok => s
    | .corrected => s.countCorr loc
    | .uncorrectable => s.hitUncorr loc
  match pageOf loc with
  | none => s
  | some page =>
    match s.readerOf t page with
    | some (w, r, dva) =>
      let s := s.mapWork w.id fun w => w.mapTile t fun r =>
        { r with reads := r.reads - 1, pages := if r.reads + r.unissued ≤ 1 then [] else r.pages }
      let s := (hit s).issueReads t
      if ecc == .uncorrectable then s.markShare w.id r.tile stUncorrectable (pageDetail (dva * 65536)) else s
    | none =>
      match s.orphanReturns t page with
      | some s => (hit s).issueReads t
      | none => s

/-- A consumer tile has finished with the oldest slab of a hand-off that it still holds: it is complete, has arrived, and no
work item that has yet to run there reads it (R170). -/
def Work.slabUsed (w : Work) (h : HandOff) (x : HandTile) : Bool :=
  match x.slabs[x.freed]?, w.plan? h.step, w.run? x.tile with
  | some k, some p, some r =>
    let begun := h.step + 1 < r.next || (r.next == h.step + 1 && (r.busy || r.spilled))
    begun && p.complete (k, k) && w.delivered h x.tile (k, k)
      && !((w.left (h.step + 1) (w.rankOf x.tile)).any fun y => (slabsOf h.bytes y.needs).contains k)
  | _, _, _ => false

/-- SLAB_CREDIT_RETURN on a consumer tile: a slot becomes free. -/
def State.slabReturns (s : State) (t : Nat) : State :=
  let pick := s.wk.works.findSome? fun w => w.hands.findSome? fun h =>
    match h.tile? t with
    | some x => if w.slabUsed h x then some (w.id, h.step) else none
    | none => none
  match pick with
  | none => s
  | some (id, i) => s.mapWork id fun w => { w with hands := w.hands.map fun h =>
      if h.step = i then { h with tiles := h.tiles.map fun x => if x.tile = t then { x with freed := x.freed + 1 } else x }
      else h }

/-- TOKEN_TIMEOUT on a tile (R175). -/
def State.tokenTimeouts (s : State) (t : Nat) : State :=
  let lim := s.reg Reg.spLimitsTokenTicks
  if lim = 0 then s
  else s.mapWorks fun w =>
    if w.cls == .background && w.tiles.any fun r => r.tile == t && lim ≤ r.waited then w.end_ stTokenTimeout else w

end Sys2Proof.Machine
end

