-- ==== Sys2Proof/Machine/Rings.lean ====
section
/-! DEFINITION. The ring engine: doorbells, the reading of descriptors, what holds one back, the error completion ring, and
what a descriptor must look like (04_rings_and_doorbells.md R114 to R141, R146, R153). -/

namespace Sys2Proof.Machine

/-! ### Descriptors (R118 to R120) -/

/-- INDEX. -/
def dIndex (d : Nat) : Nat := bitsAt d 0 16
/-- OP. -/
def dOp (d : Nat) : Nat := bitsAt d 16 8
/-- CLASS. -/
def dCls (d : Nat) : Nat := bitsAt d 24 2
/-- WING. -/
def dWing (d : Nat) : Nat := bitsAt d 26 2
/-- CH_FENCE. -/
def dFences (d : Nat) : Nat := bitsAt d 28 4
/-- FENCE_MARK. -/
def dMark (d : Nat) : Nat := bitsAt d 32 16
/-- CQ. -/
def dCq (d : Nat) : Nat := bitsAt d 48 6
/-- QUIET. -/
def dQuiet (d : Nat) : Bool := bitAt d 54
/-- TAG. -/
def dTag (d : Nat) : BitVec 64 := BitVec.ofNat 64 (bitsAt d 64 64)
/-- TARGET_TICK. -/
def dTarget (d : Nat) : BitVec 64 := BitVec.ofNat 64 (bitsAt d 128 64)
/-- OPERANDS. -/
def dOps (d : Nat) : BitVec 256 := BitVec.ofNat 256 (bitsAt d 192 256)
/-- INDEX_CHK. -/
def dCheck (d : Nat) : Nat := bitsAt d 496 16

/-- Every bit of a number outside the listed fields (lowest bit, width) is zero. -/
def zeroOutside (x : Nat) (fields : List (Nat × Nat)) : Bool := fields.foldl (fun x f => putBits x f.1 f.2 0) x == 0

/-- OPERANDS are zero outside these fields, whose places are those of the whole descriptor. -/
def opsOnly (d : Nat) (fields : List (Nat × Nat)) : Bool :=
  zeroOutside (bitsAt d 192 256 <<< 192) fields

/-- A Gallery event code (12_gallery.md R403). -/
def eventOk (e : Nat) : Bool :=
  (0x1000 ≤ e && e < 0x1018) || (0x2000 ≤ e && e < 0x2030) || (0x3000 ≤ e && e < 0x3018)

/-- LIST_DVA and COUNT are in range. -/
def listOk (d : Nat) : Bool := bitsAt d 192 48 % 64 == 0 && bitsAt d 256 16 != 0

/-- The operands of a SEQUENCE: the field that its action does not need is reserved (09_attention_and_kv.md R312). -/
def seqOpsOk (d : Nat) : Bool :=
  match bitsAt d 208 3 with
  | 0 => opsOnly d [(192, 16), (208, 3), (256, 48)] && bitsAt d 256 48 % 32 == 0
  | 1 => opsOnly d [(192, 16), (208, 3)]
  | 2 | 3 => opsOnly d [(192, 16), (208, 3), (304, 32)]
  | _ => false

/-- The operands of a kind are in their stated ranges and its reserved operand bits are zero. -/
def opsOk (d : Nat) : Bool :=
  match dOp d with
  | 0x01 => opsOnly d [(192, 48), (256, 16)] && listOk d
  | 0x02 => opsOnly d [(192, 48), (240, 9)] && bitsAt d 192 48 % 32 == 0 && 1 ≤ bitsAt d 240 9 && bitsAt d 240 9 ≤ 256
  | 0x03 => opsOnly d [(192, 4), (208, 64)]
  | 0x04 => opsOnly d [(192, 14), (208, 1)]
  | 0x05 => opsOnly d [(192, 14), (208, 1), (256, 48), (320, 48)] && (!bitAt d 208 || bitsAt d 320 48 % 32 == 0)
  | 0x06 => opsOnly d [(192, 48), (240, 32), (272, 1)]
      && (bitAt d 272 || (bitsAt d 192 48 % 65536 == 0 && bitsAt d 240 32 != 0))
  | 0x07 => opsOnly d [(192, 48), (256, 32), (288, 3), (296, 5), (304, 2), (306, 1)]
      && bitsAt d 192 48 % 65536 == 0 && bitsAt d 256 32 != 0 && bitsAt d 288 3 != 7
  | 0x08 => opsOnly d []
  | 0x09 => opsOnly d [(192, 48), (256, 16), (272, 16), (288, 1)] && listOk d && eventOk (bitsAt d 272 16)
  | 0x0A => opsOnly d [(272, 16)] && eventOk (bitsAt d 272 16)
  | 0x0B => seqOpsOk d
  | 0x0C => opsOnly d [(192, 16)]
  | 0x0D => opsOnly d [(192, 3), (196, 2)] && bitsAt d 196 2 != 1
  | _ => false

/-- CLASS and WING as the kind allows (R118, R122). -/
def classOk (d : Nat) : Bool :=
  match dOp d with
  | 0x01 => dCls d != 3
  | 0x09 => dCls d == 2
  | _ => dCls d == 0 && dWing d == 0

/-- A well-formed descriptor, its CQ apart (R118). -/
def descOk (d : Nat) : Bool :=
  bitsAt d 55 9 == 0 && bitsAt d 448 48 == 0 && dCheck d == dIndex d && classOk d && opsOk d

/-! ### Ring state -/

/-- The submission ring is enabled. -/
def State.sqOn (s : State) (n : Nat) : Bool := s.flag (Reg.rgSqCfgEnable.ix n)

/-- Slots of a submission ring (R114). -/
def State.sqSlots (s : State) (n : Nat) : Nat := 2 ^ s.reg (Reg.rgSqCfgLog2Entries.ix n)

/-- The ring engine reads rings: the main die runs its compute side, RG_CTRL.ENABLE is set and admission is not closed. -/
def State.ringsRun (s : State) : Bool := s.computeUp && s.flag Reg.rgCtrlEnable && !s.rg.closed

/-- The host can write the channel's doorbell row. -/
def State.doorOpen (s : State) (ch : Nat) : Bool :=
  let c := s.chan ch
  s.mainUp && s.pins.fdReady && !c.away && !c.deep && !c.powerDown

/-! ### Doorbells (R126 to R130, R153) -/

/-- The word is bad (R127). -/
def State.badWord (s : State) (ch w : Nat) : Bool :=
  let kind := bitsAt w 0 4
  let ring := bitsAt w 4 6
  4 < kind || bitsAt w 10 6 != 0 || bitsAt w 48 16 != 0 || bitsAt w 32 16 != 0xFFFF - bitsAt w 16 16
    || (kind == 1 && !(s.flag Reg.rgCtrlEnable && s.sqOn ring))
    || (kind == 2 && !(s.flag Reg.rgCtrlEnable && s.cqOn ring))
    || (3 ≤ kind && ring != 0) || (kind == 4 && ch != 0)

/-- An SQ tail doorbell (R128). -/
def State.sqTail (s : State) (n v : Nat) : State :=
  let q := s.sqSt n
  let d := (BitVec.ofNat 16 v - q.tail).toNat
  if d = 0 then s
  else if d ≤ s.sqSlots n - (q.tail - q.head).toNat then
    s.setSq n { q with tail := BitVec.ofNat 16 v, bells := q.bells ++ [(BitVec.ofNat 16 v, s.now)] }
  else (s.bump Reg.rgDbErrSqOverflow).note fcRgOverflow n

/-- The ring stops notifying (R148). -/
def CqSt.hush (c : CqSt) : CqSt := { c with notifying := false, coal := 0, coalFirst := none }

/-- A CQ head doorbell (R129, R148). -/
def State.cqHead (s : State) (n v : Nat) : State :=
  let c := s.cqSt n
  let d := (BitVec.ofNat 16 v - c.head).toNat
  if d ≤ (c.tail - c.head).toNat then
    let left := (c.tail - BitVec.ofNat 16 v).toNat
    let c := { c with head := BitVec.ofNat 16 v }
    s.setCq n (if left = 0 then c.hush else { c with coal := min c.coal left })
  else s.note fcRgOverflow n

/-- Window offset of the mailbox's request area (R151). -/
def mailRequest : Nat := 0x02000000

/-- Window offset of its reply area. -/
def mailReply : Nat := 0x02004000

/-- A mailbox doorbell (R153): the request is taken, unless the previous one is unanswered. -/
def State.mailDoorbell (s : State) (v : Nat) : State :=
  if s.rg.mail.isSome then s.note fcRgMailbox
  else
    let h := ofBytes (s.winRead mailRequest 32)
    let len := bitsAt h 16 16
    let bad := bitsAt h 0 16 != v || 16352 < len || h >>> 32 != 0
    let body := if bad then [] else s.winRead (mailRequest + 32) len
    let s := s.winReport mailRequest (if bad then 32 else 32 + len)
    { s with rg := { s.rg with mail := some { seq := BitVec.ofNat 16 (bitsAt h 0 16), body := body, bad := bad } } }

/-- A doorbell word written on a channel (R126, R127). -/
def State.doorbell (s : State) (ch : Nat) (x : BitVec 64) : State :=
  let w := x.toNat
  let ring := bitsAt w 4 6
  let v := bitsAt w 16 16
  if bitsAt w 0 4 = 0 then s
  else if s.badWord ch w then (s.bump Reg.rgDbErrBadWord).note fcRgDoorbell ch
  else match bitsAt w 0 4 with
    | 1 => s.sqTail ring v
    | 2 => s.cqHead ring v
    | 3 => s.setReg (Reg.rgMarkMark.ix ch) v
    | _ => s.mailDoorbell v

/-! ### Reading descriptors (R132 to R135) -/

/-- The slot of an index. -/
def State.slotOf (s : State) (n : Nat) (i : BitVec 16) : Nat :=
  ofBytes (s.winRead (s.reg (Reg.rgSqBaseBase.ix n) <<< 11 + i.toNat % s.sqSlots n * 64) 64)

/-- The slot holds the descriptor of the index. -/
def slotIs (i : BitVec 16) (d : Nat) : Bool := dIndex d == i.toNat && dCheck d == i.toNat

/-- The head moves past a slot; doorbells that it has wholly consumed are forgotten. -/
def SqSt.pass (q : SqSt) : SqSt :=
  { q with head := q.head + 1, bells := q.bells.filter fun b => b.1 != q.head + 1 }

/-- The ring has a published descriptor that has not been read. -/
def State.unread (s : State) (n : Nat) : Bool :=
  let q := s.sqSt n
  s.ringsRun && s.sqOn n && q.accepted.isNone && q.errIndex.isNone && q.head != q.tail

/-- Read the slot at the next index. -/
def State.readSlot (s : State) (n : Nat) : State :=
  let q := s.sqSt n
  if !s.unread n then s
  else
    let d := s.slotOf n q.head
    let s := s.winReport (s.reg (Reg.rgSqBaseBase.ix n) <<< 11 + q.head.toNat % s.sqSlots n * 64) 64
    if slotIs q.head d then s.setSq n { q.pass with accepted := some (BitVec.ofNat 512 d), wait := 0 }
    else s.setSq n { q with wait := 1 }

/-- The time limit of R133 has passed for the slot at the next index: it is consumed, and its record waits for the error
CQ. A slot that can be accepted is not late: the engine has re-read it (R132). -/
def State.arriveLate (s : State) (n : Nat) : State :=
  let q := s.sqSt n
  match q.bells with
  | [] => s
  | (_, t) :: _ =>
    if !s.unread n || slotIs q.head (s.slotOf n q.head) || s.now < t + us (s.reg Reg.rgLimitsArriveUs) then s
    else s.setSq n { q.pass with errIndex := some q.head, wait := 0 }

/-- A NOT_ARRIVED record is written as soon as the error CQ can take it (R134). -/
def State.errFlush (s : State) : State :=
  s.each (s.rg.sq.map fun e => e.1) fun s n =>
    let q := s.sqSt n
    let cq := s.reg (Reg.rgSqCfgErrCq.ix n)
    match q.errIndex with
    | none => s
    | some i =>
      if !s.cqSpace cq then s
      else
        let s := s.setSq n { q with errIndex := none }
        s.putRecord cq (fun ph => recordBits n i.toNat ph stNotArrived 0 0 s.tick.number 0 0) false

/-! ### What holds a descriptor back (R121, R136 to R139) -/

/-- Every channel that the descriptor names has reached its mark (R130, R136). -/
def State.marksReached (s : State) (d : Nat) : Bool :=
  (maskBits 4 (dFences d)).all fun c =>
    (BitVec.ofNat 16 (s.reg (Reg.rgMarkMark.ix c)) - BitVec.ofNat 16 (dMark d)).toNat < 0x8000

/-- Tickets of descriptors that have been admitted and have not completed; an arming in force is not among them (R121). -/
def State.outstanding (s : State) : List Ticket :=
  (s.wk.works.filterMap fun w => match w.src with
    | .ring t => some t
    | _ => none)
  ++ s.wk.wingJobs.map (fun j => j.1) ++ s.tick.switches.map (fun j => j.ticket) ++ s.wk.invals.map (fun j => j.ticket)
  ++ s.wk.seqJobs.map (fun j => j.1) ++ s.wk.strmJobs.map (fun j => j.1) ++ s.wk.perfJobs.map (fun j => j.1)
  ++ (s.wk.places.filterMap fun (p : PlaceJob) => p.ticket) ++ (s.rg.armings.filterMap fun a => a.disarm)
  ++ s.pwr.sleepTicket.toList ++ (s.sec.tsr.map fun j => j.ticket).toList

/-- The kind waits for every earlier descriptor of its ring: FENCE, and PERF_REQUEST for S2 or S3 (R121, 14_power.md
R471). -/
def waitsEarlier (d : Nat) : Bool := dOp d == 0x08 || (dOp d == 0x0D && 2 ≤ bitsAt d 196 2)

/-- The descriptor is to complete without being run: malformed, or its CQ is not enabled. -/
def State.descBad (s : State) (d : Nat) : Bool := !descOk d || !s.cqOn (dCq d)

/-- The completion ring that takes the descriptor's record (R118, R134). -/
def State.descCq (s : State) (n d : Nat) : Nat := if s.cqOn (dCq d) then dCq d else s.reg (Reg.rgSqCfgErrCq.ix n)

/-- Why the accepted descriptor of a ring waits: 0 it does not, 2 fence, 3 completion space, 5 earlier descriptors. -/
def State.heldBy (s : State) (n d : Nat) : Nat :=
  let space := if s.cqSpace (s.descCq n d) then 0 else 3
  if s.descBad d || (s.sqSt n).fenceOut then space
  else if !s.marksReached d then 2
  else if waitsEarlier d && s.outstanding.any fun t => t.sq == n then 5
  else space

/-- The ring's accepted descriptor can be taken now. -/
def State.sqReady (s : State) (n : Nat) : Bool :=
  s.sqOn n && match (s.sqSt n).accepted with
    | some d => s.heldBy n d.toNat == 0
    | none => false

/-- Rings of a group in the order of its round robin. -/
def State.groupFrom (s : State) (prio : Bool) (start : Nat) : List Nat :=
  ((List.range 64).map fun i => (start + i) % 64).filter fun n => s.flag (Reg.rgSqCfgPrio.ix n) == prio

/-- The ring that the engine serves next (R137). -/
def State.nextRing (s : State) : Option Nat :=
  if !s.ringsRun then none
  else match (s.groupFrom true s.rg.rrHi).find? s.sqReady with
    | some n => some n
    | none => (s.groupFrom false s.rg.rrLo).find? s.sqReady

/-- A fence wait has passed its limit (R136): the descriptor completes with FENCE_TIMEOUT as soon as its CQ has room. -/
def State.fenceLate (s : State) (n : Nat) : State :=
  let q := s.sqSt n
  match q.accepted, q.fenceSince with
  | some d, some t =>
    let lim := s.reg Reg.rgLimitsFenceUs
    if !s.ringsRun || !s.sqOn n || s.heldBy n d.toNat != 2 || lim = 0 || s.now ≤ t + us lim then s
    else s.setSq n { q with fenceOut := true }
  | _, _ => s

/-- SQ_WAIT of every ring, and the start of a fence wait (R132, R136, R139, R146). -/
def State.ringWaits (s : State) : State :=
  s.each (s.rg.sq.map fun e => e.1) fun s n =>
    let q := s.sqSt n
    let q := match q.accepted with
      | some d =>
        let h := s.heldBy n d.toNat
        { q with wait := if h = 5 then 0 else h
                 fenceSince := if h = 2 then some (q.fenceSince.getD s.now) else none }
      | none =>
        let w := if q.errIndex.isSome then 3 else if q.head != q.tail && q.wait == 1 then 1 else 0
        { q with wait := w, fenceSince := none }
    s.setSq n (if s.sqOn n then q else { q with wait := 4 })

/-! ### Taking a descriptor -/

/-- What a descriptor's record needs (R142). -/
def State.ticketOf (s : State) (n d : Nat) : Ticket :=
  { sq := n, index := BitVec.ofNat 16 (dIndex d), cq := s.descCq n d, quiet := dQuiet d, tag := dTag d, at_ := s.now,
    urgent := dCls d == 2 }

/-- Work is admitted: a dozing device runs again (14_power.md R470). -/
def State.activity (s : State) : State :=
  { s with pwr := { s.pwr with state := if s.pwr.state = .s1 then .s0 else s.pwr.state, idleSince := none } }

/-- The engine takes a ring's accepted descriptor: one record is reserved (R139) and the round robin moves on (R137). -/
def State.takeDesc (s : State) (n d : Nat) : State :=
  let q := s.sqSt n
  let s := s.setSq n { q with accepted := none, fenceSince := none, fenceOut := false, wait := 0 }
  let s := if s.flag (Reg.rgSqCfgPrio.ix n) then { s with rg := { s.rg with rrHi := (n + 1) % 64 } }
    else { s with rg := { s.rg with rrLo := (n + 1) % 64 } }
  (s.reserve (s.descCq n d)).activity

/-- Descriptors not yet admitted are discarded without records (R141; 14_power.md R471). -/
def State.discardSubmissions (s : State) : State :=
  let drop := fun (q : SqSt) =>
    { q with head := q.tail, bells := [], accepted := none, fenceSince := none, fenceOut := false, errIndex := none, wait := 0 }
  { s with rg := { s.rg with sq := s.rg.sq.map fun e => (e.1, drop e.2), owed := s.rg.owed.filter fun o => o.sq.isNone } }

/-! ### Attention (R147) -/

/-- COAL_TIMEOUT of a completion ring. -/
def State.coalLate (s : State) (n : Nat) : State :=
  let c := s.cqSt n
  match c.coalFirst with
  | none => s
  | some t =>
    if !s.cqOn n || c.coal = 0 || s.now < t + us (s.reg (Reg.rgCqCfgCoalUs.ix n)) then s
    else s.setCq n { c with notifying := true }

/-! ### The status row (R146) -/

/-- The sector that describes a ring. -/
def State.statusSector (s : State) (n : Nat) : Nat :=
  let q := s.sqSt n
  let c := s.cqSt n
  q.head.toNat + q.tail.toNat <<< 16 + c.tail.toNat <<< 32 + c.head.toNat <<< 48
    + (if s.sqOn n then q.wait % 8 else 4) <<< 64 + s.tick.number.toNat <<< 128

/-- Rewrite a ring's status sector. -/
def State.statusRow (s : State) (n : Nat) : State :=
  if s.mainUp && s.flag Reg.rgStatusRowValid then
    s.winWrite (s.reg Reg.rgStatusRowRowOff <<< 11 + 32 * n) (toBytes 32 (s.statusSector n))
  else s

/-! ### Setting rings up (R115 to R117, R146, R148) -/

/-- A ring of `len` bytes may lie at a window offset: within one bank, clear of excluded pages and of the mailbox. -/
def ringFits (base len : Nat) : Bool :=
  base / 2 ^ 24 == (base + len - 1) / 2 ^ 24
    && (List.range (cdiv (base % 65536 + len) 65536)).all fun i => !winExcluded ((base / 65536 + i) * 65536)

/-- The records of a ring that wait for its error CQ (R134) outlast its being set up anew: none is dropped. -/
def State.keepErrors (s : State) (n : Nat) : State :=
  let q := s.sqSt n
  let s := match q.errIndex with
    | some i => s.owe 0 (some n) (fun ph => recordBits n i.toNat ph stNotArrived 0 0 0 0 0) false
    | none => s
  match q.accepted with
  | some d =>
    if s.cqOn (dCq d.toNat) then s
    else s.owe 0 (some n) (fun ph => recordBits n (dIndex d.toNat) ph stBadDescriptor 0 (dTag d.toNat) 0 0 0) false
  | none => s

/-- Enable a submission ring: refused with a note where its base is wrong, else its indices are 0. -/
def State.enableSq (s : State) (n : Nat) : State :=
  if ringFits (s.reg (Reg.rgSqBaseBase.ix n) <<< 11) (s.sqSlots n * 64) then (s.keepErrors n).setSq n {}
  else (s.setFlag (Reg.rgSqCfgEnable.ix n) false).note fcRgConfig n

/-- Enable a completion ring; what is reserved for admitted work stays reserved. -/
def State.enableCq (s : State) (n : Nat) : State :=
  if ringFits (s.reg (Reg.rgCqBaseBase.ix n) <<< 11) (s.cqSlots n * 32) then
    s.setCq n { reserved := (s.cqSt n).reserved }
  else (s.setFlag (Reg.rgCqCfgEnable.ix n) false).note fcRgConfig n

/-- Clear a completion ring's ENABLE: it stops notifying. -/
def State.disableCq (s : State) (n : Nat) : State := s.setCq n (s.cqSt n).hush

/-- Every ring is disabled, its set-up kept (R141). -/
def State.disableRings (s : State) : State :=
  let s := s.each (List.range 64) fun s n => s.setFlag (Reg.rgSqCfgEnable.ix n) false
  s.each (List.range 64) fun s n => (s.setFlag (Reg.rgCqCfgEnable.ix n) false).disableCq n

end Sys2Proof.Machine
end

