-- ==== Sys2Proof/Machine/Keyhole.lean ====
section
/-! DEFINITION. The Porch's checks of wires and microphones, mute, the Keyhole, wake records and the wake chain
(13_porch.md R419 to R423, R427 to R439, R443). -/

namespace Sys2Proof.Machine

/-! ### Microphone and wire checks (R419 to R422) -/

/-- The state that a window shows of a channel. -/
def micJudge (o : MicObs) : Nat :=
  if o.ones < 64 || 4032 < o.ones then (if o.follows then 1 else 2)
  else if 4090 ≤ o.same then 3
  else 0

/-- A window judges a channel: a fault state at once, OK after four good windows. -/
def State.micChannel (s : State) (c : Nat) (o : MicObs) : State :=
  let put := fun (s : State) (n : Nat) => { s with por := { s.por with good := lput s.por.good c n } }
  if s.clockOff c then s
  else if (micJudge o) ≠ 0 then put (s.setChState c (micJudge o)) 0
  else if s.chState c = 0 then put s 0
  else
    let n := lget s.por.good c 0 + 1
    if 4 ≤ n then put (s.setChState c 0) 0 else put s n

/-- MIC_CHECK_WINDOW: the observations are those of the wires' channels. -/
def State.micWindow (s : State) (obs : List MicObs) : State :=
  if !s.capturing then s
  else
    let s := s.each (List.range 16) fun s c =>
      match obs[s.wireChannel c]? with
      | some o => s.micChannel c o
      | none => s
    s.beamCheck

/-- Δ of a wire in 1/64 sample. -/
def State.trimGap (s : State) (d : Nat) : Int :=
  (s.reg (Reg.porChTrim.ix (2 * d + 1)) : Int) - s.reg (Reg.porChTrim.ix (2 * d))

/-- The lags of a window, in 1/64 sample, show the wire swapped. -/
def State.looksSwapped (s : State) (d : Nat) (lags : List Int) : Bool :=
  let g := s.trimGap d
  let a := lget lags (2 * d) 0
  let b := lget lags (2 * d + 1) 0
  decide (g - 16 ≤ a && a ≤ g + 16 && -g - 16 ≤ b && b ≤ -g + 16)

/-- A wire is judged swapped (R422). -/
def State.wireSwapped (s : State) (d : Nat) : State :=
  let s := (s.setFlag (Reg.porChSwapped.ix (2 * d)) true).setFlag (Reg.porChSwapped.ix (2 * d + 1)) true
  let s := s.noteAon fcPorMic (2 * d)
  if s.flag Reg.porCtrlAutoSwap then s.requestChange (.swap d) else s

/-- SWAP_TEST_WINDOW: no wire is tested while the beam is too low. -/
def State.swapWindow (s : State) (level : Nat) (lags : List Int) : State :=
  if !s.capturing || s.reg Reg.porCtrlDetLevel ≤ level then s
  else
    s.each (List.range 8) fun s d =>
      if s.clockOff (2 * d) || (s.trimGap d).natAbs < 64 then s
      else
        let n := if s.looksSwapped d lags then lget s.por.swapRun d 0 + 1 else 0
        let t := { s with por := { s.por with swapRun := lput s.por.swapRun d (if 4 ≤ n then 0 else n) } }
        if 4 ≤ n then t.wireSwapped d else t

/-! ### Wake records (R434) -/

/-- Byte offset of the wake record slot of a sequence number. -/
def wakeSlot (seq : BitVec 32) : Nat := 0x18A00 + 0x20 * (seq.toNat % 16)

/-- Word `i` of a wake record. -/
def State.wakeWord (s : State) (seq : BitVec 32) (i : Nat) : Nat := (s.word (wakeSlot seq + 4 * i)).toNat

/-- Change bits of word `i` of a wake record, if the slot still holds it. -/
def State.putWake (s : State) (seq : BitVec 32) (i lo n v : Nat) : State :=
  if s.wakeWord seq 0 = seq.toNat then
    s.setWord (wakeSlot seq + 4 * i) (BitVec.ofNat 32 (putBits (s.wakeWord seq i) lo n v))
  else s

/-- Write a new wake record; answers its SEQ. -/
def State.wakeRecord (s : State) (phrase cause : Nat) (p : Partial) : BitVec 32 × State :=
  let q := s.por.seqNext
  let bits := phrase % 8 + (cause % 16) <<< 3 + (b2n (cause == 0 && s.por.chain.isSome)) <<< 7 + 1 <<< 8
    + p.startSample.toNat <<< 32 + (s.por.sample - 1).toNat <<< 96 + (min p.score 65535) <<< 160
    + (p.startState % 8) <<< 176 + (s.pwr.state.code % 8) <<< 179
  let s := s.each (List.range 7) fun s i => s.setWord (wakeSlot q + 4 * (i + 1)) (BitVec.ofNat 32 (bits >>> (32 * i)))
  let s := s.setWord (wakeSlot q) q
  (q, { s with por := { s.por with seqNext := if q + 1 = 0 then 1 else q + 1 } })

/-! ### The chain (R435 to R439) -/

/-- The chain ends: its record takes END, the feed stops. -/
def State.endChain (s : State) (code : Nat) : State :=
  match s.por.chain with
  | none => s
  | some c =>
    let s := s.putWake c.seq 1 11 4 code
    { s with por := { s.por with chain := none, feed := none } }

/-- Base of a stage's registers. -/
def stageReg (f : Field) (stage : Nat) : Field := f.ix (stage - 2)

/-- A match of a phrase starts the chain, and the chain has a sleeping main die woken. -/
def State.chainFor (s : State) (phrase : Nat) (seq : BitVec 32) (start : BitVec 64) : State :=
  if s.por.chain.isSome || !s.flag (Reg.keyPhraseStartChain.ix phrase) || !s.flag Reg.porCtrlChainEn
      || !s.flag (stageReg Reg.porChain0En 2) then s
  else
    let c : Chain := { stage := 2, phase := .starting, seq := seq, startSample := start, firstPost := none }
    ({ s with por := { s.por with chain := some c } }).wakeBy 1 seq

/-- DECIDE_DVA of a stage. -/
def State.decideDva (s : State) (stage : Nat) : Nat :=
  s.reg (stageReg Reg.porChain3DecideLo stage) <<< 3 + s.reg (stageReg Reg.porChain4DecideHi stage) <<< 32

/-- LIST_DVA of a stage. -/
def State.stageDva (s : State) (stage : Nat) : BitVec 48 :=
  BitVec.ofNat 48 (s.reg (stageReg Reg.porChain1ListLo stage) <<< 6 + s.reg (stageReg Reg.porChain2ListHi stage) <<< 32)

/-- The ticket of a stage's list: SQ and INDEX of its record, which no descriptor gives, are open. -/
def State.stageTicket (s : State) (stage : Nat) : Ticket × State :=
  let (k, s) := s.fresh
  let x := Config.freeNat k
  ({ sq := x % 64, index := BitVec.ofNat 16 (x / 64), cq := s.reg (stageReg Reg.porChain0Cq stage), quiet := false,
     tag := BitVec.ofNat 64 (s.reg (stageReg Reg.porChain5Tag stage)), at_ := s.now, urgent := false }, s)

/-- The stage's list is admitted (R436, R139). -/
def State.postStage (s : State) (c : Chain) : State :=
  let k := c.stage
  let (t, s) := s.stageTicket k
  let n := s.reg (stageReg Reg.porChain2Count k)
  let s := (s.reserve t.cq).activity
  let s := if s.flag (stageReg Reg.porChain0Feed k) then s.feedStart c.startSample else s
  let s := s.putWake c.seq 1 8 3 k
  let s := if k = 2 && c.firstPost.isNone then s.putWake c.seq 7 0 32 s.tick.number.toNat else s
  let post := fun (s : State) (p : ChainPhase) =>
    { s with por := { s.por with chain := some { c with phase := p, firstPost := some (c.firstPost.getD s.now) } } }
  if n = 0 then post (s.complete t stBadDescriptor c.seq) (.ended stBadDescriptor)
  else
    let cls : Cls := if s.flag (stageReg Reg.porChain0Class k) then .background else .tick
    let s := post s (.posted s.wk.nextId)
    s.addWork { id := 0, cls := cls, wing := s.reg (stageReg Reg.porChain0Wing k), src := .chain t c.seq,
                dva := s.stageDva k, count := n, target := s.tick.number + 1, admTime := s.now }

/-- The chain can start its stage: the main die is in S0 (or dozes), rings are enabled, admission is open, and the stage's
completion ring can take a record. -/
def State.stageMay (s : State) (c : Chain) : Bool :=
  s.mainUp && (s.pwr.state == .s0 || s.pwr.state == .s1) && s.pwr.waking.isNone && s.ringsRun
    && s.cqSpace (s.reg (stageReg Reg.porChain0Cq c.stage))

/-- CHAIN_STAGE_START (R436). A decision word that cannot be written ends the chain as a failed stage. -/
def State.chainStart (s : State) : State :=
  match s.por.chain with
  | none => s
  | some c =>
    if c.phase != .starting then s
    else if s.pwr.state == .s2 then s.wakeBy 1 c.seq
    else if s.safeFloor && s.mainUp then s.endChain 5
    else if !s.stageMay c then s
    else match runAcc s (wr whoBridge (s.decideDva c.stage) (toBytes 8 0)) with
      | (s, .ok _) => s.postStage c
      | (s, .error (.blocked _ _)) => s
      | (s, .error _) => s.endChain 3

/-- The next enabled stage after one. -/
def State.stageAfter (s : State) (k : Nat) : Option Nat :=
  [3, 4].find? fun j => k < j && s.flag (stageReg Reg.porChain0En j)

/-- CHAIN_STAGE_COMPLETE (R437, R438). -/
def State.chainDone (s : State) : State :=
  match s.por.chain with
  | none => s
  | some c =>
    match c.phase with
    | .ended st =>
      if c.stopping then s.endChain 7
      else if st != stOk then s.endChain 3
      else if !s.mainUp then s
      else match runAcc s (rdNat whoBridge (s.decideDva c.stage) 8) with
        | (s, .ok 1) =>
          match s.stageAfter c.stage with
          | some j =>
            { s with por := { s.por with chain := some { c with stage := j, phase := .starting, firstPost := none } } }
          | none => s.endChain 1
        | (s, .ok 2) => { s with por := { s.por with chain := some { c with phase := .starting } } }
        | (s, .ok _) => s.endChain 2
        | (s, .error (.blocked _ _)) => s
        | (s, .error _) => s.endChain 3
    | _ => s

/-- CHAIN_STAGE_TIMEOUT (R437): the list runs on. -/
def State.chainLate (s : State) : State :=
  match s.por.chain with
  | none => s
  | some c =>
    match c.firstPost with
    | none => s
    | some f => if s.now < f + ms (s.reg (stageReg Reg.porChain0TimeoutMs c.stage)) then s else s.endChain 4

/-- CHAIN_EN is cleared (R438). -/
def State.chainOff (s : State) : State :=
  match s.por.chain with
  | none => s
  | some c =>
    match c.phase with
    | .posted _ => { s with por := { s.por with chain := some { c with stopping := true } } }
    | _ => s.endChain 7

/-- A posted list is gone without a record (15_resets_and_retention.md R488): its stage has failed. -/
def State.chainLost (s : State) : State :=
  let lost := fun (c : Chain) => match c.phase with
    | .posted _ => { c with phase := .ended stMainReset }
    | _ => c
  { s with por := { s.por with chain := s.por.chain.map lost } }

/-! ### Scoring (R432, R433) -/

/-- The Keyhole scores: enabled, with an image, at a rate it can listen at, outside Safe Floor. -/
def State.keyholeOn (s : State) : Bool :=
  s.capturing && s.flag Reg.keyCtrlEnable && s.flag Reg.keyCtrlImageOk && !s.safeFloor
    && (s.por.rate == 1 || 3 ≤ s.por.rate)

/-- First sample of the 10 ms frame that ends now. -/
def State.frameFirst (s : State) : BitVec 64 := s.por.sample - BitVec.ofNat 64 (10 * rateKhz s.por.rate)

/-- Drop a partial match. -/
def State.dropPartial (s : State) (k : Nat) : State :=
  { s with por := { s.por with partials := tdel s.por.partials k } }

/-- A match of a phrase. -/
def State.matched (s : State) (k : Nat) (p : Partial) : State :=
  let s := s.bump Reg.keyStatusMatchCnt
  let (q, s) := (s.dropPartial k).wakeRecord k 0 p
  s.chainFor k q p.startSample

/-- A held partial match meets a frame's score. -/
def State.scorePartial (s : State) (k : Nat) (p : Partial) (x : KeyScore) : State :=
  let v := x.score.toNat
  let p := { p with score := max p.score v }
  if s.reg (Reg.keyPhraseMatch.ix k) * 256 ≤ v && x.ended then s.matched k p
  else if v < s.reg (Reg.keyPhraseArm.ix k) * 256 then s.dropPartial k
  else { s with por := { s.por with partials := tset s.por.partials k p } }

/-- A phrase is scored. -/
def State.scorePhrase (s : State) (k : Nat) (x : KeyScore) : State :=
  let v := x.score.toNat
  let arm := s.reg (Reg.keyPhraseArm.ix k) * 256
  match tfind s.por.partials k with
  | some p => s.scorePartial k p x
  | none =>
    if v < arm then { s with por := { s.por with blocked := s.por.blocked.filter (· != k) } }
    else if s.por.blocked.contains k then s
    else
      let p : Partial :=
        { start := s.now, startSample := s.frameFirst, startState := s.por.frameState, score := v }
      s.scorePartial k p x

/-- Score the frame that ends now. -/
def State.scoreFrame (s : State) (xs : List KeyScore) : State :=
  if !s.keyholeOn then s
  else
    s.each (List.range (min 8 (s.reg Reg.keyCtrlPhrases))) fun s k =>
      match xs[k]? with
      | some x => if s.flag (Reg.keyPhraseEn.ix k) then s.scorePhrase k x else s
      | none => s

/-- The next frame begins in this power state. -/
def State.frameMark (s : State) : State := { s with por := { s.por with frameState := s.pwr.state.code } }

/-- KEYHOLE_FRAME: the frame is scored; waiting changes are applied at a boundary that holds no partial match (R428). -/
def State.keyFrame (s : State) (xs : List KeyScore) : State :=
  if !s.capturing then s
  else
    let s := s.scoreFrame xs
    let s := if s.partialHeld then s else s.applyChanges
    s.frameMark

/-- The partial matches that are held end with a wake record of a cause. -/
def State.cutPartials (s : State) (cause : Nat) : State :=
  s.each s.por.partials fun s e => ((s.dropPartial e.1).wakeRecord e.1 cause e.2).2

/-- PORCH_CHANGE_DEADLINE (R429). -/
def State.changeLate (s : State) (xs : List KeyScore) : State :=
  match s.por.changes with
  | [] => s
  | (_, t) :: _ =>
    if s.now < t + ms 2500 then s
    else (((s.scoreFrame xs).cutPartials 1).applyChanges).frameMark

/-- PARTIAL_MATCH_TIMEOUT of a phrase (R432). -/
def State.partialLate (s : State) (k : Nat) : State :=
  match tfind s.por.partials k with
  | none => s
  | some p =>
    if s.now < p.start + ms 2500 then s
    else
      let s := s.dropPartial k
      { s with por := { s.por with blocked := sins s.por.blocked k } }

/-! ### Mute (R423) -/

/-- MUTE takes a value: a change is logged, and setting it ends the partial matches. -/
def State.muteTo (s : State) (m : Bool) : State :=
  if s.flag Reg.porCtrlMute == m then s
  else
    let s := (s.setFlag Reg.porCtrlMute m).porEvent 3
    if m then s.cutPartials 2 else s

/-! ### Settling, the tenant switch (R430, R443) -/

/-- SETTLING_END. -/
def State.settled (s : State) : State :=
  if s.por.settle_ = 1 then { s.porEvent 2 with por := { (s.porEvent 2).por with settle_ := 0 } } else s

/-- The Porch's part of a tenant switch. -/
def State.porchSwitch (s : State) : State :=
  let s := s.cutPartials 3
  let s := s.endChain 6
  let s := s.setFlag Reg.porCtrlChainEn false
  { s with por := { s.por with ring := [], beams := s.por.beams.map (fun _ => 0), newest := [], feed := none } }

/-- The feed goes on while the main die can take it. -/
def State.feedOn (s : State) : State := if s.mainUp then s.feedGo else s

/-- PORCH_SAMPLE. -/
def State.sampleOn (s : State) (bits : List (BitVec 8 × BitVec 8)) : State :=
  if s.capturing then (s.takeSample bits).feedOn else s

end Sys2Proof.Machine
end

