-- ==== Sys2Proof/Machine/GalPixel.lean ====
section
/-! DEFINITION. The Gallery's pixel pipeline: decompanding, padding, black level, gain, demosaic, IR subtraction, crop,
scale and conversion (12_gallery.md R381, R384, R387, R391 to R399). Linear values have 24 integer and 8 fractional bits
(R395) and are held as integers in units of 2^-8. -/

namespace Sys2Proof.Machine

/-! ### Arithmetic (R395) -/

/-- The integer nearest to `n / d`, ties to even. -/
def rne (n : Int) (d : Nat) : Int :=
  let q := Int.fdiv n d
  let r := Int.fmod n d
  if 2 * r < d then q else if d < 2 * r then q + 1 else if q % 2 = 0 then q else q + 1

/-- Clamp to [0, 2^24 - 1]. -/
def clampPix (v : Int) : Int := max 0 (min v ((2 ^ 24 - 1) * 256))

/-! ### Input streams as in force -/

/-- PORT. -/
def GalIn.port (g : GalIn) : Nat := bitsAt g.ctrl.toNat 1 4
/-- VC. -/
def GalIn.vc (g : GalIn) : Nat := bitsAt g.ctrl.toNat 5 4
/-- DT. -/
def GalIn.dt (g : GalIn) : Nat := bitsAt g.ctrl.toNat 9 6
/-- CFA. -/
def GalIn.cfa (g : GalIn) : Nat := bitsAt g.ctrl.toNat 15 3
/-- DECOMP. -/
def GalIn.decomp (g : GalIn) : Nat := bitsAt g.ctrl.toNat 22 3
/-- LINE_POLICY 1. -/
def GalIn.repeats (g : GalIn) : Bool := bitAt g.ctrl.toNat 25
/-- FRAME_POLICY 1. -/
def GalIn.drops (g : GalIn) : Bool := bitAt g.ctrl.toNat 26
/-- EDGE_T. -/
def GalIn.edge (g : GalIn) : Nat := bitsAt g.ctrl.toNat 27 4
/-- EXP_W. -/
def GalIn.w (g : GalIn) : Nat := bitsAt g.geom.toNat 0 16
/-- EXP_H. -/
def GalIn.h (g : GalIn) : Nat := bitsAt g.geom.toNat 16 16
/-- PERIOD_US. -/
def GalIn.period (g : GalIn) : Nat := bitsAt g.timing.toNat 0 20
/-- LATE_TOL. -/
def GalIn.tol (g : GalIn) : Nat := bitsAt g.timing.toNat 20 4
/-- BLACK. -/
def GalIn.black (g : GalIn) : Nat := bitsAt g.level.toNat 0 24
/-- IR_SUB. -/
def GalIn.irSub (g : GalIn) : Nat := bitsAt g.level.toNat 24 8

/-- Bits of a RAW data type (R381). -/
def dtBits : Nat → Option Nat
  | 0x2A => some 8 | 0x2B => some 10 | 0x2C => some 12 | 0x2D => some 14 | 0x2E => some 16 | 0x2F => some 20 | _ => none

/-- Data bits of a parallel port. -/
def State.portWidth (s : State) (p : Nat) : Nat := 8 + 2 * s.reg (Reg.galPortWidthParallel.ix (p - 12))

/-- The stream carries YUV422 8-bit. -/
def State.isYuv (s : State) (g : GalIn) : Bool :=
  if g.port < 12 then g.dt == 0x1E else s.flag (Reg.galPortFmtParallel.ix (g.port - 12))

/-- Bits of a RAW code of the stream; none: a data type that the Gallery discards. -/
def State.codeBits (s : State) (g : GalIn) : Option Nat :=
  if g.port < 12 then (if g.dt = 0x1E then some 8 else dtBits g.dt) else some (s.portWidth g.port)

/-! ### Decompanding (R392) -/

/-- A table's value of a code. -/
def knees (xs ys : Nat → Nat) (x : Nat) : Int :=
  if xs 32 ≤ x then 256 * (ys 32 : Int)
  else if x < xs 0 then 256 * (ys 0 : Int)
  else match (List.range 32).find? fun j => xs j ≤ x && x < xs (j + 1) with
    | some j =>
      let dx := xs (j + 1) - xs j
      clampPix (rne (256 * ((ys j : Int) * dx + ((x - xs j : Nat) : Int) * ((ys (j + 1) : Int) - ys j))) dx)
    | none => 256 * (ys 32 : Int)

/-- The linear value of an n-bit code. -/
def State.decompand (s : State) (k n x : Nat) : Int :=
  if k = 0 then 256 * (((x % 2 ^ n) <<< (24 - n) : Nat) : Int)
  else if k ≤ 4 then
    knees (fun j => s.reg (Reg.galDecompXX.ix2 (k - 1) j)) (fun j => s.reg (Reg.galDecompYY.ix2 (k - 1) j)) (x % 2 ^ n)
  else 256 * ((Config.otherDecomp k (x % 2 ^ n)).toNat : Int)

/-! ### Padding (R387, R388) -/

/-- Pixels that a line keeps: none where it is missing, or fails its CRC under LINE_POLICY 1. -/
def GalLine.kept (l : GalLine) (repeats : Bool) : Bool := !l.flags.getLsbD 3 && !(repeats && l.flags.getLsbD 2)

/-- A good line: whole, with its CRC. -/
def GalLine.good (l : GalLine) : Bool := !l.flags.getLsbD 0 && !l.flags.getLsbD 2 && !l.flags.getLsbD 3

/-- Complete a line to `w` pixels from the previous good line or the missing pixels' value. -/
def fillRow (w : Nat) (prev : Option (List Int)) (missing : Nat → Int) (row : List Int) : List Int :=
  (List.range w).map fun x =>
    match row[x]? with
    | some v => v
    | none => match prev with
      | some p => lget p x (missing x)
      | none => missing x

/-- The `h` rows of a frame, completed. -/
def fillRows (w : Nat) (repeats : Bool) (missing : Nat → Int) (code : Nat → Int) :
    Option (List Int) → List GalLine → Nat → List (List Int)
  | _, _, 0 => []
  | prev, [], h + 1 => fillRow w prev missing [] :: fillRows w repeats missing code prev [] h
  | prev, l :: r, h + 1 =>
    let px := if l.kept repeats then l.px.map code else []
    let row := fillRow w prev missing px
    row :: fillRows w repeats missing code (if repeats && l.good then some row else prev) r h

/-! ### Colour filters (R393) -/

/-- Colour at a place of a pattern. -/
def cfaAt (cfa x y : Nat) : Nat :=
  if cfa = 3 then
    lget (lget [[2, 1, 0, 1], [1, 3, 1, 3], [0, 1, 2, 1], [1, 3, 1, 3]] (y % 4) []) (x % 4) 0
  else if cfa = 4 then 0
  else (x % 2) + (y % 2)

/-- Colour of the stream's pixel (x, y). -/
def GalIn.colour (g : GalIn) (x y : Nat) : Nat :=
  cfaAt g.cfa (x + bitsAt g.ctrl.toNat 18 2) (y + bitsAt g.ctrl.toNat 20 2)

/-- One image plane. -/
abbrev Plane := Nat → Nat → Int

/-- Rows as a plane. -/
def planeOf (rows : List (List Int)) : Plane := fun x y => lget (lget rows y []) x 0

/-- Black level and gain (R391). -/
def GalIn.levelled (g : GalIn) (p : Plane) : Plane := fun x y =>
  let v := max 0 (p x y - 256 * (g.black : Int))
  clampPix (rne (v * ((lget g.gains (g.colour x y) 0).toNat : Int)) 4096)

/-! ### Demosaic (R394) -/

/-- A place mirrored at the image edges. -/
def mirror (n : Nat) (i : Int) : Nat :=
  if i < 0 then min (n - 1) i.natAbs else if (n : Int) ≤ i then 2 * (n - 1) - i.toNat else i.toNat

/-- What the demosaic sees of an image: the edges are mirrored by two pixels. -/
structure Mosaic where
  w : Nat
  h : Nat
  col : Nat → Nat → Nat
  v : Plane

/-- The place lies in the mirrored image. -/
def Mosaic.has (m : Mosaic) (x y : Int) : Bool := -2 ≤ x && x ≤ m.w + 1 && -2 ≤ y && y ≤ m.h + 1

/-- Colour at a place of the mirrored image. -/
def Mosaic.colAt (m : Mosaic) (x y : Int) : Nat := m.col (mirror m.w x) (mirror m.h y)

/-- A plane's value there. -/
def Mosaic.at_ (m : Mosaic) (p : Plane) (x y : Int) : Int := p (mirror m.w x) (mirror m.h y)

/-- Nearest site of the same colour from (x, y) in a direction; where the image shows none, the one in the opposite
direction. -/
def Mosaic.same (m : Mosaic) (x y dx dy : Int) : Int :=
  let c := m.colAt x y
  let look := fun (k : Int) => if m.has (x + k * dx) (y + k * dy) && m.colAt (x + k * dx) (y + k * dy) == c then
    some (m.at_ m.v (x + k * dx) (y + k * dy)) else none
  (([2, 4, -2, -4] : List Int).findSome? look).getD (m.at_ m.v x y)

/-- The guide plane at a pixel. -/
def Mosaic.guide (m : Mosaic) (edge : Nat) : Plane := fun px py =>
  if m.col px py = 1 then m.v px py
  else
    let x : Int := px
    let y : Int := py
    let c := m.v px py
    let l := m.at_ m.v (x - 1) y
    let r := m.at_ m.v (x + 1) y
    let u := m.at_ m.v x (y - 1)
    let d := m.at_ m.v x (y + 1)
    let ch := 2 * c - m.same x y (-1) 0 - m.same x y 1 0
    let cv := 2 * c - m.same x y 0 (-1) - m.same x y 0 1
    let dh : Int := ((l - r).natAbs + ch.natAbs : Nat)
    let dv : Int := ((u - d).natAbs + cv.natAbs : Nat)
    let eh := rne (l + r) 2 + rne ch 4
    let ev := rne (u + d) 2 + rne cv 4
    clampPix (if 16 * dh < (16 - edge : Nat) * dv then eh else if 16 * dv < (16 - edge : Nat) * dh then ev
      else rne (eh + ev) 2)

/-- Weight of a site of colour `k` at an offset in the bilinear interpolation: R and B of RGB-IR lie on a diagonal
lattice of spacing 4, every other colour on a square one of spacing 2. -/
def siteWeight (diagonal : Bool) (dx dy : Int) : Nat :=
  if diagonal then (4 - (dx + dy).natAbs) * (4 - (dx - dy).natAbs) else (2 - dx.natAbs) * (2 - dy.natAbs)

/-- Offsets that an interpolation looks at. -/
def siteOffsets : List (Int × Int) :=
  ([-3, -2, -1, 0, 1, 2, 3] : List Int).flatMap fun dx => ([-3, -2, -1, 0, 1, 2, 3] : List Int).map fun dy => (dx, dy)

/-- The plane of colour `k`: the guide plane plus its interpolated difference. -/
def Mosaic.plane (m : Mosaic) (guide : Plane) (diagonal : Bool) (k : Nat) : Plane := fun px py =>
  if m.col px py = k then m.v px py
  else
    let sites := siteOffsets.filter fun o =>
      0 < siteWeight diagonal o.1 o.2 && m.has (px + o.1) (py + o.2) && m.colAt (px + o.1) (py + o.2) == k
    let sum := sites.foldl (fun (a : Int) o =>
      a + siteWeight diagonal o.1 o.2 * (m.at_ m.v (px + o.1) (py + o.2) - m.at_ guide (px + o.1) (py + o.2))) 0
    let tot := sites.foldl (fun a o => a + siteWeight diagonal o.1 o.2) 0
    clampPix (guide px py + rne sum tot)

/-- The planes of colours 0 to 3 after demosaic and IR subtraction. -/
def GalIn.planes (g : GalIn) (p : Plane) : List Plane :=
  if g.cfa = 4 then [p]
  else
    let m : Mosaic := { w := g.w, h := g.h, col := g.colour, v := p }
    let guide := m.guide g.edge
    let ir := g.cfa == 3
    let ps := [m.plane guide ir 0, guide, m.plane guide ir 2]
    if ir then
      let i := m.plane guide false 3
      (ps.map fun q => fun x y => clampPix (q x y - rne (g.irSub * i x y) 256)) ++ [i]
    else ps

/-! ### Output streams as in force -/

/-- Field of word `k` of an output stream's configuration. -/
def GalOut.f (o : GalOut) (k lo n : Nat) : Nat := bitsAt (lget o.cfg k 0).toNat lo n

/-- Output format. -/
def GalOut.fmt (o : GalOut) : Fmt := Fmt.ofCode (o.f 0 8 4)

/-- The channel list. -/
def GalOut.chans (o : GalOut) : List Nat := ((List.range 4).map fun i => o.f 0 (12 + 3 * i) 3).takeWhile (· != 7)

/-- OW. -/
def GalOut.ow (o : GalOut) : Nat := o.f 3 0 16
/-- OH. -/
def GalOut.oh (o : GalOut) : Nat := o.f 3 16 16
/-- LAYOUT 1. -/
def GalOut.planar (o : GalOut) : Bool := o.f 0 7 1 == 1

/-- Bytes of one row. -/
def GalOut.rowBytes (o : GalOut) : Nat := o.ow * (if o.planar then 1 else o.chans.length) * (o.fmt.bits / 8)

/-- Pitch of rows (R398). -/
def GalOut.pitch (o : GalOut) : Nat := if o.f 6 0 16 = 0 then cdiv o.rowBytes 64 * 64 else o.f 6 0 16 * 64

/-- DVA of slot 0. -/
def GalOut.base (o : GalOut) : Nat := o.f 4 16 16 <<< 16 + o.f 5 0 16 <<< 32

/-- Slots. -/
def GalOut.slots (o : GalOut) : Nat := o.f 5 26 4 + 1

/-- Bytes of a slot. -/
def GalOut.slotBytes (o : GalOut) : Nat := o.f 6 16 16 * 65536

/-- DVA of the slot of the next delivered frame (R400). -/
def GalOut.slotDva (o : GalOut) : Nat := o.base + o.d % o.slots * o.slotBytes

/-- DVA of its record (R401). -/
def GalOut.recordDva (o : GalOut) : Nat := o.base + o.slots * o.slotBytes + 32 * (o.d % o.slots)

/-! ### Scaling and conversion (R396, R397) -/

/-- Input pixels that an output coordinate covers, each with its covered length in units of 1/on. -/
def covered (n on i : Nat) : List (Nat × Nat) :=
  ((List.range (cdiv ((i + 1) * n) on - i * n / on)).map fun k =>
    let r := i * n / on + k
    (r, min ((i + 1) * n) ((r + 1) * on) - max (i * n) (r * on)))

/-- The area-weighted mean of a region. -/
def GalOut.scaled (o : GalOut) (p : Plane) (i j : Nat) : Int :=
  let cw := o.f 2 0 16
  let ch := o.f 2 16 16
  let sum := (covered ch o.oh i).foldl (fun (a : Int) r => (covered cw o.ow j).foldl (fun (b : Int) c =>
    b + ((r.2 * c.2 : Nat) : Int) * p (o.f 1 0 16 + c.1) (o.f 1 16 16 + r.1)) a) 0
  rne sum (cw * ch)

/-- Number of the plane that a channel code names for a colour filter; none: the source lacks it. -/
def planeIdx (cfa code : Nat) : Option Nat :=
  match cfa, code with
  | 4, _ => none
  | _, 0 => some 0
  | 1, 1 => none
  | 2, 1 => some 2
  | _, 1 => some 1
  | 2, 2 => none
  | _, 2 => some 2
  | 3, 3 => some 3
  | 1, 3 | 2, 3 => some 1
  | _, _ => none

/-- A RAW source's value of a channel at an output pixel, in units of 2^-8. -/
def GalOut.rawValue (o : GalOut) (cfa : Nat) (ps : List Plane) (code i j : Nat) : Int :=
  let one := fun (k : Nat) => match planeIdx cfa k with
    | some n => o.scaled (lget ps n fun _ _ => 0) i j
    | none => 0
  if code = 4 then
    if cfa = 4 then o.scaled (lget ps 0 fun _ _ => 0) i j else rne (one 0 + 2 * one 1 + one 2) 4
  else one code

/-- Luma, U and V planes of YUV422 codes (luma in the low byte, chroma above it: U of even pixels, V of odd ones), in
units of 2^-8. -/
def yuvPlane (w : Nat) (p : Plane) (code : Nat) : Plane := fun x y =>
  let luma := fun (x : Nat) => 256 * (p x y % 256)
  let chroma := fun (x : Nat) => 256 * (p x y / 256 % 256)
  if code = 4 then luma x
  else
    let parity := if code = 5 then 0 else 1
    if x % 2 = parity then chroma x
    else if x = 0 then chroma 1
    else if w ≤ x + 1 then chroma (x - 1)
    else rne (chroma (x - 1) + chroma (x + 1)) 2

/-- The element's value before OUT_GAIN. -/
def GalOut.value (o : GalOut) (g : GalIn) (yuv : Bool) (p : Plane) (ps : List Plane) (code i j : Nat) : Fp :=
  let fix := fun (v : Int) (e : Int) => Fp.fin (decide (v < 0)) v.natAbs e
  if yuv then
    if code = 4 then fix (o.scaled (yuvPlane g.w p 4) i j) (-16)
    else if code = 5 || code = 6 then fix (o.scaled (yuvPlane g.w p code) i j - 128 * 256) (-16)
    else Fp.zero
  else fix (o.rawValue g.cfa ps code i j) (-32)

/-- OUT_GAIN; 0.0 reads as 1.0. -/
def GalOut.gain (o : GalOut) : Fp :=
  let v := Fp.of32 (o.f 7 0 32)
  if v.isZero then Fp.one else v

/-- Bytes of an element. -/
def GalOut.elem (o : GalOut) (v : Fp) : List Byte := toBytes (o.fmt.bits / 8) (o.fmt.encode false (Fp.mul v o.gain))

/-- The rows that a frame writes: offset in the slot, and bytes (R398). -/
def GalOut.rows (o : GalOut) (g : GalIn) (yuv : Bool) (p : Plane) (ps : List Plane) : List (Nat × List Byte) :=
  if o.planar then
    o.chans.zipIdx.flatMap fun (code, c) => (List.range o.oh).map fun i =>
      (c * o.oh * o.pitch + i * o.pitch,
        ((List.range o.ow).flatMap fun j => o.elem (o.value g yuv p ps code i j)))
  else
    (List.range o.oh).map fun i =>
      (i * o.pitch, ((List.range o.ow).flatMap fun j => o.chans.flatMap fun code => o.elem (o.value g yuv p ps code i j)))

/-- The rows of an embedded-data stream (R399). -/
def GalOut.embeddedRows (o : GalOut) (packets : List (List Byte)) : List (Nat × List Byte) :=
  (packets.take o.oh).zipIdx.map fun (bs, i) => (i * o.pitch, bs.take o.pitch)

end Sys2Proof.Machine
end

