-- ==== Sys2Proof/Machine/Gallery.lean ====
section
/-! DEFINITION. The Gallery: frame starts, lines and ends, delivery, events, wire faults and what a write to its registers
does (12_gallery.md R380 to R390, R400 to R410). -/

namespace Sys2Proof.Machine

/-- Vehicle time in ns, 0 if not synchronised (02_the_tick.md R51). -/
def State.vehicleTime (s : State) : BitVec 64 := if s.tick.vtSync then BitVec.ofInt 64 (s.now + s.tick.vtBase) else 0

/-- The Gallery runs. -/
def State.galleryUp (s : State) : Bool := s.computeUp && (s.pwr.state == .s0 || s.pwr.state == .s1)

/-- An input stream. -/
def State.galIn (s : State) (i : Nat) : GalIn := tget s.gal.ins i {}

/-- Store it. -/
def State.setGalIn (s : State) (i : Nat) (g : GalIn) : State := { s with gal := { s.gal with ins := tput {} s.gal.ins i g } }

/-- An output stream. -/
def State.galOut (s : State) (o : Nat) : GalOut := tget s.gal.outs o {}

/-- Store it. -/
def State.setGalOut (s : State) (o : Nat) (g : GalOut) : State :=
  { s with gal := { s.gal with outs := tput {} s.gal.outs o g } }

/-- A port. -/
def State.galPort (s : State) (p : Nat) : GalPort := tget s.gal.ports p {}

/-- Store it. -/
def State.setGalPort (s : State) (p : Nat) (g : GalPort) : State :=
  { s with gal := { s.gal with ports := tput {} s.gal.ports p g } }

/-- A Gallery event occurs (R403): an armed list is work, which ends a doze. -/
def State.galEvent (s : State) (ev : Nat) : State :=
  let t := s.raiseEvent ev
  if t.wk.nextId = s.wk.nextId then t else t.activity

/-- The port receives: it is there, enabled, and not waiting for a new LANE_MAP. -/
def State.portOn (s : State) (p : Nat) : Bool :=
  s.galleryUp && p < 14 && s.flag (Reg.galPortEnable.ix p) && !(s.galPort p).discard

/-- A GAL_WIRE fault of a port. -/
def State.wireFault (s : State) (p : Nat) : State := s.raise (mkReport fcGalWire 1 p 0 true)

/-! ### CSI-2 packet headers (R381 to R383, R407) -/

/-- Data lanes of a CSI port. -/
def State.lanes (s : State) (p : Nat) : Nat := 2 ^ min 2 (s.reg (Reg.galPortLanesCsi.ix p))

/-- The physical lane that an order in LANE_MAP form names for a logical lane. -/
def laneOf (order l : Nat) : Nat := bitsAt order (2 * l) 2

/-- LANE_MAP receives the lanes that the port uses where this order puts them (R382). -/
def State.inOrder (s : State) (p : Nat) (wires : BitVec 8) : Bool :=
  (List.range (s.lanes p)).all fun l => laneOf wires.toNat l == laneOf (s.reg (Reg.galPortLaneMapCsi.ix p)) l

/-- The port receives data on a physical lane. -/
def State.usesLane (s : State) (p lane : Nat) : Bool :=
  (List.range (s.lanes p)).any fun l => laneOf (s.reg (Reg.galPortLaneMapCsi.ix p)) l == lane

/-- Two successive headers pass under one other lane order. -/
def State.orderFault (s : State) (p : Nat) (order : BitVec 8) : State :=
  let s := (s.setFlag (Reg.galPortStatusOrderFaultCsi.ix p) true).setReg (Reg.galPortStatusDetOrderCsi.ix p) order.toNat
  (s.setGalPort p { s.galPort p with discard := true, wrong := none }).wireFault p

/-- A header arrives on a port that receives: whether it passes, and what its failure does. -/
def State.header (s : State) (h : CsiHeader) : State × Bool :=
  let p := h.port.val
  let q := s.galPort p
  if h.bad then ((s.setGalPort p { q with wrong := none }).bump (Reg.galPortStatusHdrErrCsi.ix p), false)
  else if s.inOrder p h.wires then (s.setGalPort p { q with wrong := none }, true)
  else
    let s := s.bump (Reg.galPortStatusHdrErrCsi.ix p)
    (if q.wrong = some h.wires then s.orderFault p h.wires else s.setGalPort p { q with wrong := some h.wires }, false)

/-- Input streams, in ascending order, that a test of their registers in force picks. -/
def State.streams (s : State) (f : GalIn → Bool) : List Nat :=
  (List.range 24).filter fun i => (s.galIn i).on && f (s.galIn i)

/-! ### Registers in force (R404) -/

/-- The stream's registers. -/
def State.loadIn (s : State) (i : Nat) (g : GalIn) : GalIn :=
  let w := fun (k : Nat) => s.word (0x16100 + 16 * i + 4 * k)
  { g with on := true, ctrl := w 0, geom := w 1, timing := w 2, level := w 3
           gains := [0, 1, 2, 3].map fun k =>
             BitVec.ofNat 16 ((s.word (0x16280 + 8 * i + 4 * (k / 2))).toNat >>> (16 * (k % 2))) }

/-- The output stream's registers. -/
def State.loadOut (s : State) (o : Nat) (g : GalOut) : GalOut :=
  let cfg := (List.range 8).map fun k => s.word (0x16C00 + 32 * o + 4 * k)
  if g.on then { g with cfg := cfg } else { on := true, cfg := cfg }

/-- At a frame start of input stream `i`, an enabled output stream of it takes its registers, and this frame or not
(R400). -/
def State.outStarts (s : State) (i o : Nat) : State :=
  if !s.flag (Reg.galOut0Enable.ix o) || s.reg (Reg.galOut0Src.ix o) ≠ i then s
  else
    let g := s.loadOut o (s.galOut o)
    s.setGalOut o { g with inFrame := g.seen % (g.f 0 24 4 + 1) == 0, seen := g.seen + 1 }

/-! ### The end of a frame (R388, R400 to R402, R405, R409) -/

/-- What a frame came to. -/
structure FrameEnd where
  received : Nat
  short : Bool
  bad : Nat
  long_ : Bool
  anyShort : Bool
  anyLong : Bool
  anyCrc : Bool

/-- Sum a frame up against EXP_H. -/
def GalFrame.sum (f : GalFrame) (h : Nat) : FrameEnd :=
  let got := (f.lines.filter fun l => !l.flags.getLsbD 3).length
  { received := got + f.extra
    short := got < h
    bad := (f.lines.filter fun l => l.flags != 0).length + (h - f.lines.length)
    long_ := 0 < f.extra
    anyShort := f.lines.any fun l => l.flags.getLsbD 0
    anyLong := f.lines.any fun l => l.flags.getLsbD 1
    anyCrc := f.lines.any fun l => l.flags.getLsbD 2 }

/-- The 32 bytes of a frame record. -/
def GalFrame.record (f : GalFrame) (e : FrameEnd) (dropped werr : Bool) (now : Nat) : Nat :=
  f.frame.toNat + (b2n dropped) <<< 32 + (b2n e.anyShort) <<< 33 + (b2n e.anyLong) <<< 34 + (b2n e.short) <<< 35
    + (b2n e.long_) <<< 36 + (b2n f.late) <<< 37 + (b2n e.anyCrc) <<< 38 + (b2n (0 < f.lost)) <<< 39
    + (b2n werr) <<< 40 + (min e.bad 65535) <<< 48 + f.tick.toNat <<< 64 + f.vt.toNat <<< 128
    + (e.received % 65536) <<< 192 + ((now - f.start) / 1000 % 2 ^ 32) <<< 224

/-- Write rows of a slot in order. -/
def writeRows (base : Nat) : List (Nat × List Byte) → Acc Unit
  | [] => return ()
  | (off, bs) :: r => do
    let _ ← wr whoGallery (base + off) bs
    writeRows base r

/-- The linear rows of a frame, or the codes of a YUV one. -/
def State.frameRows (s : State) (g : GalIn) (f : GalFrame) : List (List Int) :=
  if s.isYuv g then
    fillRows g.w g.repeats (fun x => ((Config.missingYuv g.black x).toNat : Int)) (fun x => (x : Int)) none f.lines g.h
  else
    fillRows g.w g.repeats (fun _ => 256 * (g.black : Int)) (s.decompand g.decomp ((s.codeBits g).getD 8)) none f.lines g.h

/-- The rows that an output stream writes for a frame. -/
def State.outRows (s : State) (g : GalIn) (o : GalOut) (f : GalFrame) : List (Nat × List Byte) :=
  if o.f 0 6 1 = 1 then o.embeddedRows f.embedded
  else
    let yuv := s.isYuv g
    let p := planeOf (s.frameRows g f)
    o.rows g yuv p (if yuv then [] else g.planes (g.levelled p))

/-- A token of the Gallery: each tile takes it on receipt (R402). -/
def State.galToken (s : State) (tok : Nat) : State :=
  let e : Emission := { token := tok, work := 0, step := 65536, from_ := [], need := [], to_ := s.tilesPresent }
  { s with wk := { s.wk with emissions := s.wk.emissions ++ [e] } }

/-- A frame is delivered: the next one takes the next slot; its token and its event follow. -/
def State.delivered (s : State) (n : Nat) (o : GalOut) : State :=
  let s := s.setGalOut n { s.galOut n with d := o.d + 1 }
  let s := if o.f 0 28 1 = 1 then s.galToken (o.f 5 16 10) else s
  s.galEvent (0x2000 + n)

/-- A write of an output stream failed (R405). -/
def State.outFailed (s : State) (n : Nat) : State := (s.bump Reg.galStatusWriteErr).note fcGalWrite n

/-- Write an output stream's record of a frame that ended at `ended`. -/
def State.putFrameRecord (s : State) (o : GalOut) (f : GalFrame) (e : FrameEnd) (dropped werr : Bool) (ended : Nat) :
    State × Except AFail Unit :=
  runAcc s (do
    let _ ← wr whoGallery o.recordDva (toBytes 32 (f.record e dropped werr ended))
    return ())

/-- An output stream's part of the end of a frame; false: one of its accesses is held. -/
def State.outEnds (s : State) (n : Nat) (cfg : List (BitVec 32)) (x : GalEnd) : State × Bool :=
  let o := { s.galOut n with cfg := cfg }
  let f := x.frame
  let e := f.sum x.regs.h
  if (e.short && x.regs.drops) || s.stopped then
    match s.putFrameRecord o f e true false x.ended with
    | (t, .error (.blocked _ _)) => (t, false)
    | (t, .error _) => (t.outFailed n, true)
    | (t, .ok _) => (t, true)
  else
    match runAcc s (writeRows o.slotDva (s.outRows x.regs o f)) with
    | (t, .error (.blocked _ _)) => (t, false)
    | (t, .error _) =>
      match t.putFrameRecord o f e true true x.ended with
      | (u, .error (.blocked _ _)) => (s.blockedFrom u, false)
      | (u, _) => (u.outFailed n, true)
    | (t, .ok _) =>
      match t.putFrameRecord o f e false false x.ended with
      | (u, .error (.blocked _ _)) => (s.blockedFrom u, false)
      | (u, .error _) => (u.outFailed n, true)
      | (u, .ok _) => (u.delivered n o, true)

/-- The outputs of a frame that has ended, in ascending order; answers those that are held. -/
def State.outsEnd (s : State) (x : GalEnd) : State × List (Nat × List (BitVec 32)) :=
  x.outs.foldl (fun (p : State × List (Nat × List (BitVec 32))) o =>
    let r := p.1.outEnds o.1 o.2 x
    (r.1, if r.2 then p.2 else p.2 ++ [o])) (s, [])

/-- The frames that have ended go on: each as far as its writes are not held, and none before an earlier frame of its
stream. -/
def State.galGo (s : State) : State :=
  if s.gal.ends.isEmpty then s
  else
    let (t, kept) := s.gal.ends.foldl (fun (p : State × List GalEnd) x =>
      if p.2.any fun y => y.stream == x.stream then (p.1, p.2 ++ [x])
      else
        let r := p.1.outsEnd x
        (r.1, if r.2.isEmpty then p.2 else p.2 ++ [{ x with outs := r.2 }])) (s, [])
    { t with gal := { t.gal with ends := kept } }

/-- Data bits of a parallel port that a frame of 64 lines or more never changed (R409). -/
def State.stuckBits (s : State) (g : GalIn) (f : GalFrame) : State :=
  if g.port < 12 || f.lines.length + f.extra < 64 then s
  else
    let p := g.port - 12
    let n := s.portWidth g.port
    let stuck := (2 ^ n - 1) - (f.changed.toNat % 2 ^ n)
    if stuck = 0 then s
    else
      let r := Reg.galPortStatusStuckBitsParallel.ix p
      (s.setReg r (s.reg r ||| stuck)).note fcGalStuck g.port

/-- The frame in progress of an input stream ends; the output streams that take it write it, now or when they can. -/
def State.endFrame (s : State) (i : Nat) : State :=
  let g := s.galIn i
  match g.cur with
  | none => s
  | some f =>
    let g := { g with cur := none }
    let takers := (List.range 48).filter fun n => (s.galOut n).on && (s.galOut n).inFrame && (s.galOut n).f 0 1 5 == i
    let x : GalEnd := { stream := i, regs := g, frame := f, ended := s.now, outs := takers.map fun n => (n, (s.galOut n).cfg) }
    let s := (s.setGalIn i g).each takers fun s n => s.setGalOut n { s.galOut n with inFrame := false }
    ({ s with gal := { s.gal with ends := s.gal.ends ++ [x] } }).galGo.stuckBits g f

/-! ### Frame starts (R386, R389) -/

/-- Nanoseconds after a frame start at which the next one is late. -/
def GalIn.lateAfter (g : GalIn) : Nat := g.period * (50 + g.tol) * 20

/-- No frame start has come by the late bound: FRAME_LATE. -/
def State.frameIsLate (s : State) (i : Nat) : State :=
  let g := s.galIn i
  match g.lastStart with
  | none => s
  | some t0 =>
    if !s.galleryUp || !g.on || g.period = 0 || g.lateDone || s.now < t0 + g.lateAfter then s
    else ((s.setGalIn i { g with lateDone := true }).note fcGalLate i).galEvent (0x3000 + i)

/-- A frame starts on an input stream: the frame in progress ends, the registers are taken, and a new frame begins. It is late
when the late event of the bound in force until now has been raised, or is due. -/
def State.streamStarts (s : State) (i : Nat) : State :=
  let s := s.endFrame i
  let s := if ((s.galIn i).lastStart.map fun t0 => t0 + (s.galIn i).lateAfter) == some s.now then s else s.frameIsLate i
  let g := s.loadIn i (s.galIn i)
  let n := s.reg (Reg.galFrameFrame.ix i) + 1
  let f : GalFrame :=
    { start := s.now, tick := s.tick.number, vt := s.vehicleTime, frame := BitVec.ofNat 32 n, late := g.lateDone }
  let s := s.setReg (Reg.galFrameFrame.ix i) n
  let s := s.setGalIn i { g with cur := some f, lastStart := some s.now, lateDone := false }
  let s := s.each (List.range 48) fun s o => s.outStarts i o
  s.galEvent (0x1000 + i)

/-- Enabled input streams whose registers name a port, and which `f` picks, in ascending order. -/
def State.startsOn (s : State) (p : Nat) (f : Nat → Bool := fun _ => true) : List Nat :=
  (List.range 24).filter fun i =>
    s.flag (Reg.galInCtrlEnable.ix i) && s.reg (Reg.galInCtrlPort.ix i) == p && f i

/-- A frame starts on every stream that takes it. -/
def State.portStarts (s : State) (p : Nat) (f : Nat → Bool := fun _ => true) : State :=
  s.each (s.startsOn p f) fun s i => s.streamStarts i

/-- A frame ends on every stream that takes it. -/
def State.portEnds (s : State) (l : List Nat) : State := s.each l fun s i => s.endFrame i

/-- FRAME_TIMEOUT: 2 × PERIOD_US after its start, or 1 s. -/
def State.frameTimesOut (s : State) (i : Nat) : State :=
  let g := s.galIn i
  match g.cur with
  | none => s
  | some f =>
    let lim := if g.period = 0 then ms 1000 else us (2 * g.period)
    if !s.galleryUp || s.now < f.start + lim then s else s.endFrame i

/-! ### Lines (R383, R387, R390) -/

/-- A line joins a frame: as received, or lost with its header or to an overflow. -/
def addLine (g : GalIn) (f : GalFrame) (lost over_ crc : Bool) (px : List Nat) : GalFrame :=
  let f := { f with lost := f.lost + b2n over_ }
  if g.h ≤ f.lines.length then (if lost || over_ then f else { f with extra := f.extra + 1 })
  else if lost || over_ then { f with lines := f.lines ++ [{ px := [], flags := 8 }] }
  else
    let flags : BitVec 4 := BitVec.ofNat 4 (b2n (px.length < g.w) + 2 * b2n (g.w < px.length) + 4 * b2n crc)
    { f with lines := f.lines ++ [{ px := px.take g.w, flags := flags }] }

/-- A line of each of these streams that has a frame in progress. -/
def State.takeLines (s : State) (l : List Nat) (lost : Bool) (kind : LineKind) (px : List Nat) : State :=
  s.each l fun s i =>
    let g := s.galIn i
    match g.cur with
    | some f =>
      s.setGalIn i { g with cur := some (addLine g f lost (kind == LineKind.overflow) (kind == LineKind.crc) px) }
    | none => s

/-- A line's packet arrives on a CSI port (R381, R383, R385, R390). -/
def State.csiLineArrives (s : State) (h : CsiHeader) (kind : LineKind) (px : List Nat) : State :=
  let p := h.port.val
  if !s.portOn p || (s.galPort p).faulted then s
  else
    let (s, ok) := s.header h
    let takers := s.streams fun g => g.port == p && g.vc == h.vc.toNat && g.dt == h.dt.toNat
    if h.dt.toNat ≠ 0x1E && (dtBits h.dt.toNat).isNone then
      if ok then s.setGalPort p { s.galPort p with unsupported := (s.galPort p).unsupported + 1 } else s
    else if !ok then s.takeLines takers true .good []
    else if takers.isEmpty then s
    else
      let s := match kind with
        | .crc => s.bump (Reg.galPortStatusCrcErrCsi.ix p)
        | .overflow => s.bump Reg.galStatusOverflow
        | .good => s
      s.takeLines takers false kind px

/-- EMBEDDED_DATA_PACKET (R385, R399). -/
def State.embeddedArrives (s : State) (h : CsiHeader) (payload : CsiPayload) : State :=
  let p := h.port.val
  if !s.portOn p || (s.galPort p).faulted then s
  else
    let (s, ok) := s.header h
    let takers := s.streams fun g => g.port == p && g.vc == h.vc.toNat
    if !ok || takers.isEmpty then s
    else
      let s := if payload.crcOk then s else s.bump (Reg.galPortStatusCrcErrCsi.ix p)
      s.each takers fun s i =>
        let g := s.galIn i
        match g.cur with
        | some f => s.setGalIn i { g with cur := some { f with embedded := f.embedded ++ [payload.bytes] } }
        | none => s

/-! ### Parallel ports (R384) -/

/-- Data bits that have changed since the last sample, and that sample. -/
def GalFrame.sampled (f : GalFrame) (x : Nat) : GalFrame :=
  let m := match f.lastCode with
    | some y => f.changed ||| BitVec.ofNat 16 (x ^^^ y)
    | none => f.changed
  { f with lastCode := some x, changed := m }

/-- Streams of a parallel port. -/
def State.parallel (s : State) (p : Nat) : List Nat := s.streams fun g => g.port == p

/-- Pixel codes of a line's samples: YUV422 takes two samples a pixel on an 8-bit port, chroma first. -/
def pixelsOf (yuv : Bool) (width : Nat) : List Nat → List Nat
  | a :: b :: r => if yuv && width = 8 then (a * 256 + b) :: pixelsOf yuv width r else a :: pixelsOf yuv width (b :: r)
  | [a] => if yuv && width = 8 then [] else [a]
  | [] => []

/-- A line of a parallel port ends; one without a sample is no line. -/
def State.pinLine (s : State) (p : Nat) (kind : LineKind) (xs : List Nat) : State :=
  let s := s.setGalPort p { s.galPort p with buf := [], inLine := false }
  let px := pixelsOf (s.flag (Reg.galPortFmtParallel.ix (p - 12))) (s.portWidth p) xs
  let takers := (s.parallel p).filter fun i => (s.galIn i).cur.isSome
  if xs.isEmpty || takers.isEmpty then s
  else (if kind == LineKind.overflow then s.bump Reg.galStatusOverflow else s).takeLines takers false kind px

/-- A sample in separate mode: VSYNC starts a frame, DE qualifies a pixel, the inactive edge of HSYNC ends a line, and that of
VSYNC the frame. -/
def State.separate (s : State) (p : Nat) (kind : LineKind) (e : PinEdge) (x : Nat) : State :=
  let hs := e.hs == s.flag (Reg.galPortHsPolParallel.ix (p - 12))
  let vs := e.vs == s.flag (Reg.galPortVsPolParallel.ix (p - 12))
  let de := e.de == s.flag (Reg.galPortDePolParallel.ix (p - 12))
  let q := s.galPort p
  let s := if vs && !q.vs then s.portStarts p else s
  let q1 := s.galPort p
  let s := if de then s.setGalPort p { q1 with buf := q1.buf ++ [x] } else s
  let s := if q.hs && !hs then s.pinLine p kind (s.galPort p).buf else s
  let s := if q.vs && !vs then s.portEnds (s.parallel p) else s
  s.setGalPort p { s.galPort p with hs := hs, vs := vs }

/-- A sample in embedded mode: codes FF 00 00 XY, whose bits 5 and 4 say blanking and end of active video (PRESUMED: BT.656
and BT.1120, on the low byte of 16 bits and on the high bits of other widths; assumption 34). -/
def State.embeddedSync (s : State) (p : Nat) (kind : LineKind) (x : Nat) : State :=
  let w := s.portWidth p
  let b := if w = 16 then x % 256 else x / 2 ^ (w - 8)
  let q := s.galPort p
  let s := s.setGalPort p { q with last3 := (q.last3 ++ [b]).drop ((q.last3.length + 1) - 3)
                                   buf := if q.inLine then q.buf ++ [x] else q.buf }
  if q.last3 ≠ [0xFF, 0, 0] || b < 0x80 then s
  else
    let blank := bitAt b 5
    let s := if bitAt b 4 && q.inLine then s.pinLine p kind (q.buf.take (q.buf.length - 3)) else s
    let s := if !blank && !q.vs then s.portStarts p else if blank && q.vs then s.portEnds (s.parallel p) else s
    let q := s.galPort p
    s.setGalPort p { q with vs := !blank, inLine := !bitAt b 4 && !blank, buf := [] }

/-- The pins over some periods of PCLK, sampled on the edge that PCLK_EDGE selects. -/
def State.pinsArrive (s : State) (p : Nat) (kind : LineKind) (clocks : List (PinEdge × PinEdge)) : State :=
  s.each clocks fun s c =>
    if !s.portOn p then s
    else
      let e := if s.flag (Reg.galPortPclkEdgeParallel.ix (p - 12)) then c.2 else c.1
      let x := e.data.toNat % 2 ^ s.portWidth p
      let s := s.each (s.parallel p) fun s i =>
        let g := s.galIn i
        s.setGalIn i { g with cur := g.cur.map fun f => f.sampled x }
      if s.flag (Reg.galPortSyncParallel.ix (p - 12)) then s.embeddedSync p kind x else s.separate p kind e x

/-! ### Frames and lines as they arrive -/

/-- FRAME_START (R386). -/
def State.frameStarts (s : State) : CamSrc → State
  | .csi h =>
    if !s.portOn h.port then s
    else
      let (s, ok) := s.header h
      let s := if ok then s.setGalPort h.port { s.galPort h.port with faulted := false } else s
      if ok then s.portStarts h.port fun i => s.reg (Reg.galInCtrlVc.ix i) == h.vc.toNat else s
  | .pins p clocks => s.pinsArrive (12 + p) .good clocks

/-- FRAME_END (R388). -/
def State.frameEnds (s : State) : CamSrc → State
  | .csi h =>
    if !s.portOn h.port then s
    else
      let (s, ok) := s.header h
      if ok then s.portEnds (s.streams fun g => g.port == h.port.val && g.vc == h.vc.toNat) else s
  | .pins p clocks => s.pinsArrive (12 + p) .good clocks

/-- CSI_LINE (R387): a line of a CSI port, or the pins of a parallel one while lines end. -/
def State.lineArrives (s : State) (src : CamSrc) (kind : LineKind) (px : List Nat) : State :=
  match src with
  | .csi h => s.csiLineArrives h kind px
  | .pins p clocks => s.pinsArrive (12 + p) kind clocks

/-! ### Wire faults (R406 to R408) -/

/-- LANE_POLARITY_INVERT: a physical lane on which the port receives data. -/
def State.laneInverts (s : State) (p lane : Nat) : State :=
  if !s.galleryUp || !s.flag (Reg.galPortEnable.ix p) || !s.usesLane p lane then s
  else
    let r := Reg.galPortStatusPolSwapCsi.ix p
    let s := s.setReg r (s.reg r ||| 1 <<< lane)
    let q := s.galPort p
    let s := if q.noted = 0 then s.note fcGalPolarity p else s
    s.setGalPort p { q with noted := q.noted ||| 1#4 <<< lane }

/-- LANE_ORDER_FAULT: two successive headers whose lanes arrive in another order. -/
def State.laneOrder (s : State) (p : Fin 12) (order : BitVec 8) : State :=
  s.each (List.range 2) fun s _ =>
    if s.portOn p then (s.header { port := p, vc := 0, dt := 0, wires := order, bad := false }).1 else s

/-- LANE_FAULT. -/
def State.laneFaults (s : State) (p lane : Nat) : State :=
  if !s.galleryUp || !s.flag (Reg.galPortEnable.ix p) || !s.usesLane p lane then s
  else
    let r := Reg.galPortStatusLaneFaultCsi.ix p
    let s := s.setReg r (s.reg r ||| 1 <<< lane)
    (s.setGalPort p { s.galPort p with faulted := true }).wireFault p

/-- NO_CLOCK. -/
def State.clockGone (s : State) (p : Nat) : State :=
  if !s.galleryUp || !s.flag (Reg.galPortEnable.ix p) then s
  else
    let s := s.setFlag (Reg.galPortStatusNoClockCsi.ix p) true
    (s.setGalPort p { s.galPort p with faulted := true }).wireFault p

/-- LANE_FAULT, NO_CLOCK and ORDER_FAULT of a port are all clear: its GAL_WIRE records are no longer ACTIVE. -/
def State.wireClear (s : State) (p : Nat) : State :=
  if s.reg (Reg.galPortStatusLaneFaultCsi.ix p) = 0 && !s.flag (Reg.galPortStatusNoClockCsi.ix p)
      && !s.flag (Reg.galPortStatusOrderFaultCsi.ix p) then
    s.endCondition fcGalWire fun r => r.unit.toNat == p
  else s

/-! ### Register writes (R404, R405, R407) -/

/-- An enable of an output stream is refused (R405). -/
def State.outRefused (s : State) (n : Nat) : Bool :=
  let o := s.loadOut n {}
  let i := o.f 0 1 5
  let ew := s.reg (Reg.galInGeomExpW.ix i)
  let eh := s.reg (Reg.galInGeomExpH.ix i)
  let cw := o.f 2 0 16
  let ch := o.f 2 16 16
  let ratio := fun (n on : Nat) => 1 ≤ on && on ≤ n && n ≤ 16 * on
  let planes := if o.planar then o.chans.length else 1
  24 ≤ i || ew < o.f 1 0 16 + cw || eh < o.f 1 16 16 + ch || !ratio cw o.ow || !ratio ch o.oh
    || !([Fmt.fp32, .bf16, .fp16, .e4m3, .uint8].contains o.fmt) || o.chans.isEmpty
    || o.slotBytes < planes * o.oh * o.pitch || !s.flag (Reg.galInCtrlEnable.ix i)

/-- What follows a write that found a port's configuration as `old`. -/
def State.portWritten (s : State) (p old : Nat) : State :=
  let q := s.galPort p
  let q := if old % 2 = 0 && s.flag (Reg.galPortEnable.ix p) then { q with noted := 0 } else q
  s.setGalPort p { q with discard := false, wrong := none, buf := [], last3 := [], inLine := false }

/-- The frames that have ended drop these output streams. -/
def State.endsDrop (s : State) (f : GalEnd → Nat → Bool) : State :=
  let ends := s.gal.ends.map fun x => { x with outs := x.outs.filter fun o => !f x o.1 }
  { s with gal := { s.gal with ends := ends.filter fun x => !x.outs.isEmpty } }

/-- An input stream's ENABLE of 1 is judged: it is refused for a reserved pattern. -/
def State.inJudged (s : State) (i : Nat) : State :=
  if 4 < s.reg (Reg.galInCtrlCfa.ix i) then (s.setFlag (Reg.galInCtrlEnable.ix i) false).note fcGalConfig i else s

/-- An output stream's ENABLE of 1 is judged (R405). -/
def State.outJudged (s : State) (n : Nat) : State :=
  if s.outRefused n then (s.setFlag (Reg.galOut0Enable.ix n) false).note fcGalConfig n else s

/-- The enables that a settings generation has loaded are judged, input streams first. -/
def State.galJudged (s : State) : State :=
  let s := s.each (List.range 24) fun s i => if s.flag (Reg.galInCtrlEnable.ix i) then s.inJudged i else s
  s.each (List.range 48) fun s n => if s.flag (Reg.galOut0Enable.ix n) then s.outJudged n else s

/-- What follows a write that found an input stream's ENABLE as `was`: clearing it drops the frame in progress; setting it
starts FRAME at 0. -/
def State.inWritten (s : State) (i : Nat) (was : Bool) : State :=
  if !s.flag (Reg.galInCtrlEnable.ix i) then
    let s := (s.setGalIn i {}).endsDrop fun x _ => x.stream == i
    s.each (List.range 48) fun s n =>
      let o := s.galOut n
      if o.on && o.f 0 1 5 = i then s.setGalOut n { o with inFrame := false } else s
  else if was then s
  else (s.setReg (Reg.galFrameFrame.ix i) 0).inJudged i

/-- What follows a write that found an output stream's ENABLE as `was`. -/
def State.outWritten (s : State) (n : Nat) (was : Bool) : State :=
  if !s.flag (Reg.galOut0Enable.ix n) then (s.setGalOut n {}).endsDrop fun _ o => o == n
  else if was then s
  else s.outJudged n

/-- Every output stream is disabled (a tenant switch). -/
def State.outsOff (s : State) : State :=
  (s.each (List.range 48) fun s n => (s.setFlag (Reg.galOut0Enable.ix n) false).setGalOut n {}).endsDrop fun _ _ => true

end Sys2Proof.Machine
end

