-- ==== Sys2Proof/Machine/PartyWall.lean ====
section
/-! DEFINITION. The party-wall links: training and lanes, jobs, the packets that arrive, redirects, moves across devices,
and the loss of a port or a peer (18_party_wall.md R570 to R588; 17_security.md R548). -/

namespace Sys2Proof.Machine

/-! ### Ports (R573 to R575) -/

/-- The device has party-wall links (R570) and its main die runs. -/
def State.linksUp (s : State) : Bool := s.fuses.links && s.computeUp

/-- A port's state beside its register. -/
def State.pwPort (s : State) (p : Nat) : PwPort := tget s.pw.ports p {}

/-- Store it. -/
def State.setPwPort (s : State) (p : Nat) (x : PwPort) : State := { s with pw := { s.pw with ports := tput {} s.pw.ports p x } }

/-- The port is up. -/
def State.portUp (s : State) (p : Nat) : Bool :=
  s.reg (Reg.pwPortState.ix p) == 2 || s.reg (Reg.pwPortState.ix p) == 3

/-- STATE and SPARE_USED that faulty lanes lead to (fourth step of R573). -/
def widthOf (bad : Nat) : Nat × Bool :=
  let faulty := (maskBits 9 bad).length
  if faulty = 0 then (2, false)
  else if faulty = 1 then (2, !bad.testBit 8)
  else if faulty ≤ 5 then (3, false)
  else (4, false)

/-- Show a port's state. -/
def State.showPort (s : State) (p st bad : Nat) (spare : Bool) : State :=
  ((s.setReg (Reg.pwPortState.ix p) st).setFlag (Reg.pwPortSpareUsed.ix p) spare).setReg (Reg.pwPortBadLanes.ix p) bad

/-- A port is up again: what stood for its loss, or its peer's, has ended (19_fusebox.md R604). -/
def State.portBack (s : State) (p pos : Nat) : State :=
  let s := s.endCondition fcPwPortDown fun r => r.unit.toNat == p
  s.endCondition fcPwPeerLost fun r => r.unit.toNat == pos

/-- The repair ledger records a faulty lane of a port, and every later training excludes it (R574), unless the ledger is
full (19_fusebox.md R617). -/
def State.linkRepair (s : State) (p lane : Nat) : State :=
  if s.flag Reg.fbLedgerFull then s
  else
    (s.ledger { kind := 5, place := p, index := lane, source := 5, applied := true } id).setPwPort p
      { s.pwPort p with bad := (s.pwPort p).bad ||| 1#9 <<< lane }

/-- A port trains (R573): lanes found faulty join those of the repair ledger; a peer of another set, or whose check value
does not match, is refused. -/
def State.train (s : State) (p : Nat) (r : Training) : State :=
  if !s.linksUp || !(s.reg Reg.pwCtrlPortEn).testBit p || !s.pins.fdReady || s.pwr.state != .s0 || !s.sec.startOk then s
  else
    let x := s.pwPort p
    let bad := (x.bad ||| r.bad).toNat
    let (st, spare) := widthOf bad
    let s := s.each (maskBits 9 (r.bad &&& ~~~x.bad).toNat) fun s l => s.linkRepair p l
    let s := s.setReg (Reg.pwPortPeer.ix p) r.pos
    if st = 4 then s.showPort p 4 bad spare
    else if r.setId.toNat ≠ s.reg Reg.pwSetSetId || !r.checkOk then
      (s.showPort p 5 bad spare).raise (mkReport fcPwSetMismatch 1 p)
    else ((s.showPort p st bad spare).setPwPort p { s.pwPort p with peerPc := r.pc }).portBack p r.pos

/-! ### Held writes of a page -/

/-- Writes held for a page. -/
def State.heldFor (s : State) (page : Nat) : List Held := s.deed.held.filter fun h => h.page == page

/-- The writes held for a page go on, in order, against its entry as it now stands (08_memory_tiers.md R270). -/
def State.applyHeld (s : State) (page : Nat) : State :=
  let l := s.heldFor page
  let s := { s with deed := { s.deed with held := s.deed.held.filter fun h => h.page != page } }
  s.each l State.heldGoes

/-- Forget the move of a page. -/
def State.dropMove (s : State) (page : Nat) : State :=
  { s with deed := { s.deed with moves := s.deed.moves.filter fun m => m.page != page } }

/-- Send the writes held for a page that has moved to another member, as whole units of the page as it stood here (R586:
the accesses it held then redirect). -/
def State.sendHeld (s : State) (m : Move) (pos j : Nat) : State :=
  let e := m.entry.toNat
  let key := spaceKey (dHome e) (dFrame e * 65536)
  let l := s.heldFor m.page
  let s := { s with deed := { s.deed with held := s.deed.held.filter fun h => h.page != m.page } }
  let start := if s.scrubView e then [] else mread s.mem key 65536
  let page : Mem := l.foldl (fun p h => mwrite p h.off h.bytes) (mwrite [] 0 start)
  s.each l fun s h =>
    let lo := h.off / 64 * 64
    let n := cdiv (h.off - lo + h.bytes.length) 64 * 64
    s.sendWrites h.agent h.key h.dva j pos m.page (lo / 64) (mread page lo n) (n / 2048 + 1)

/-! ### Jobs (R576, R577) -/

/-- A job register's STATE. -/
def State.jobState (s : State) (j : Nat) : Nat := s.reg (Reg.pwJob0State.ix j)

/-- A page lies in a job register's range. -/
def State.inJob (s : State) (j page : Nat) : Bool :=
  s.reg (Reg.pwJob1Base.ix j) ≤ page && page < s.reg (Reg.pwJob1Base.ix j) + s.reg (Reg.pwJob2Pages.ix j)

/-- Payload of a JOB_OPEN: MEMBERS, BASE and PAGES, whose places the manual does not give. -/
def openPayload (members base pages : Nat) : List Byte :=
  toBytes 64 (members + base <<< 32 + pages <<< 64)

/-- The job is OPEN once every peer is. -/
def State.jobReady (s : State) (j : Nat) : State :=
  if s.jobState j = 1 && (s.pwJob j).peers.all fun q => q.open_ then s.setReg (Reg.pwJob0State.ix j) 2 else s

/-- A JOB_OPEN whose tag verified opens its sender, when its fields match (third step of R576). -/
def State.openPeer (s : State) (j : Nat) (p : Packet) (members base pages : Nat) : State :=
  if s.reg (Reg.pwJob0Members.ix j) = members && s.reg (Reg.pwJob1Base.ix j) = base
      && s.reg (Reg.pwJob2Pages.ix j) = pages then
    let x := s.pwJob j
    let peers := x.peers.map fun q => if q.pos = p.src then { q with open_ := true, ke := p.ke, recv := [0] } else q
    (s.setPwJob j { x with peers := peers }).jobReady j
  else s

/-- A write of OPEN (R576, R577). -/
def State.openJob (s : State) (j : Nat) : State :=
  let num := BitVec.ofNat 16 (s.reg (Reg.pwJob0J.ix j))
  let base := s.reg (Reg.pwJob1Base.ix j)
  let pages := s.reg (Reg.pwJob2Pages.ix j)
  let members := s.reg (Reg.pwJob0Members.ix j)
  let clash := (List.range 16).any fun i => s.jobState i != 0 && s.reg (Reg.pwJob1Base.ix i) < base + pages
    && base < s.reg (Reg.pwJob1Base.ix i) + s.reg (Reg.pwJob2Pages.ix i)
  if s.jobState j ≠ 0 then s
  else if s.pw.used.contains num || clash then s.note fcPwConfig j
  else
    let others := (maskBits 4 members).filter fun p => p != s.reg Reg.pwIdPos
    let s := { s with pw := { s.pw with used := s.pw.used ++ [num] } }
    let s := s.setPwJob j { peers := others.map fun p => { pos := p }, openAt := s.now }
    let s := s.setReg (Reg.pwJob0State.ix j) 1
    let s := s.each others fun s p => s.sendPkt j p { emptyPacket with type := 1, payload := openPayload members base pages }
    let mine := s.pw.early.filter fun e => e.1.job == num
    let s := { s with pw := { s.pw with early := s.pw.early.filter fun e => e.1.job != num } }
    (s.each mine fun s e => s.openPeer j e.1 e.2.1.toNat e.2.2.1.toNat e.2.2.2.toNat).jobReady j

/-- Requests and moves of a job that are outstanding. -/
def State.jobBusy (s : State) (j : Nat) : Bool :=
  (s.pw.reqs.any fun q => q.job == j) || (s.pw.incoming.any fun i => i.job == j)
    || s.deed.moves.any fun m => m.remote && s.inJob j m.page

/-- A job becomes CLOSED: pages of its range that name a remote home become UNHOMED (R577). -/
def State.jobClosed (s : State) (j : Nat) : State :=
  let far := s.deed.entries.filter fun e =>
    s.inJob j e.1 && 22 ≤ dHome e.2.toNat && dHome e.2.toNat ≤ 25 && dState e.2.toNat != 5
  let s := s.each far fun s e => s.setDeed e.1 (putBits (putBits e.2.toNat 0 5 31) 5 3 0)
  let num := BitVec.ofNat 16 (s.reg (Reg.pwJob0J.ix j))
  let s := { s with pw := { s.pw with lateReqs := s.pw.lateReqs.filter fun p => p.job != num } }
  (s.setPwJob j {}).setReg (Reg.pwJob0State.ix j) 0

/-- Jobs that are closing and have nothing outstanding close. -/
def State.closeLate (s : State) : State :=
  s.each (List.range 16) fun s j =>
    if (s.pwJob j).closing && s.jobState j != 0 && !s.jobBusy j then s.jobClosed j else s

/-- A job is to close: by a write of CLOSE, which tells the members, or by a member's JOB_CLOSE. -/
def State.closeJob (s : State) (j : Nat) (tell : Bool) : State :=
  if s.jobState j = 0 then s
  else
    let x := s.pwJob j
    let s := if tell then s.each (x.peers.filter fun q => s.reaches q.pos) fun s q => s.sendPkt j q.pos { emptyPacket with type := 10 }
      else s
    (s.setPwJob j { s.pwJob j with closing := true }).closeLate

/-- A peer has not opened in time (R577). -/
def State.openLate (s : State) (j : Nat) : State :=
  if s.jobState j = 1 && (s.pwJob j).openAt + ms 10 ≤ s.now then
    (s.setReg (Reg.pwJob0State.ix j) 3).note fcPwConfig j
  else s

/-! ### Packets that arrive (R548, R579) -/

/-- A packet that breaks R548 is counted; the first on its port since the last switch raises a note. -/
def State.retire (s : State) (port : Nat) : State :=
  let s := s.bump Reg.secLinkRetired
  if s.sec.retiredPorts.contains port then s
  else ({ s with sec := { s.sec with retiredPorts := s.sec.retiredPorts ++ [port] } }).note fcLinkKeyRetired port

/-- A packet whose tag fails. -/
def State.tagFails (s : State) (port : Nat) : State :=
  (s.bump Reg.pwErrTagFail).raise (mkReport fcPwAuth 1 port)

/-- The open job that a packet names. -/
def State.jobNamed (s : State) (p : Packet) : Option Nat :=
  firstSat 16 fun j => s.jobState j == 2 && s.reg (Reg.pwJob0J.ix j) == p.job.toNat

/-- SEQ was accepted before, or lies too far below the highest accepted. -/
def seqOld (recv : List (BitVec 64)) (seq : BitVec 64) : Bool :=
  recv.contains seq || recv.any fun r => seq.toNat + 4096 < r.toNat

/-- SEQ values that still matter once one more is accepted. -/
def seqKeep (recv : List (BitVec 64)) (seq : BitVec 64) : List (BitVec 64) :=
  let all := seq :: recv
  let top := all.foldl (fun a r => max a r.toNat) 0
  all.filter fun r => top ≤ r.toNat + 4096

/-- What a received packet comes to: discarded and counted, or accepted for a job register. -/
def State.admitPkt (s : State) (port : Nat) (p : Packet) (tagOk : Bool) : State × Option Nat :=
  if !s.linksUp || !s.portUp port then (s, none)
  else match s.jobNamed p with
    | none => (s.retire port, none)
    | some j =>
      let x := s.pwJob j
      match x.peers.find? fun q => q.pos == p.src with
      | none => (s.retire port, none)
      | some q =>
        if q.ke != p.ke then (s.retire port, none)
        else if !tagOk then (s.tagFails port, none)
        else if seqOld q.recv p.seq then (s.bump Reg.pwErrSeqDrop, none)
        else
          let peers := x.peers.map fun r => if r.pos = p.src then { r with recv := seqKeep r.recv p.seq } else r
          (s.setPwJob j { x with peers := peers }, some j)

/-- Act on an accepted packet. -/
def State.onPkt (s : State) (port : Nat) (p : Packet) (tagOk : Bool) (f : State → Nat → State) : State :=
  match s.admitPkt port p tagOk with
  | (s, some j) => f s j
  | (s, none) => s

/-- A JOB_OPEN packet (R576): it opens its sender for an opening job; one that comes before this device has opened the job
is kept for it. -/
def State.jobOpenArrives (s : State) (port : Nat) (p : Packet) (tagOk : Bool) (members : BitVec 4) (base : BitVec 22)
    (pages : BitVec 23) : State :=
  if !s.linksUp || !s.portUp port then s
  else if !tagOk then s.tagFails port
  else match firstSat 16 fun j => s.jobState j != 0 && s.reg (Reg.pwJob0J.ix j) == p.job.toNat with
    | some j => if s.jobState j = 1 then s.openPeer j p members.toNat base.toNat pages.toNat else s.bump Reg.pwErrSeqDrop
    | none =>
      if s.pw.used.contains p.job then s.retire port
      else { s with pw := { s.pw with early := s.pw.early ++ [(p, members, base, pages)] } }

/-! ### Serving requests (R581, R582) -/

/-- Answer a request. -/
def State.answer (s : State) (j : Nat) (p : Packet) (type : Nat) (status : Byte) (payload : List Byte) (target : Nat := 0) : State :=
  s.sendPkt j p.src { emptyPacket with type := type, page := p.page, unit := p.unit, rtag := p.rtag, status := status,
                                       target := BitVec.ofNat 2 target, payload := payload }

/-- Hold a request while its page is MOVING or ZEROING here. -/
def State.holdReq (s : State) (p : Packet) : State := { s with pw := { s.pw with lateReqs := s.pw.lateReqs ++ [p] } }

/-- Serve a READ_REQ or WRITE_REQ against this device's own entry. -/
def State.serve (s : State) (j : Nat) (p : Packet) (write : Bool) : State :=
  let page := p.page.toNat
  let reply := if write then 5 else 3
  let off := 64 * p.unit.toNat
  match s.pageView page with
  | .remote pos => s.answer j p 9 0 [] pos
  | .unhomed => s.answer j p reply stNoHome []
  | .failed => s.answer j p reply stUncorrectable []
  | .corrupt => (s.failEntry page).answer j p reply stUncorrectable []
  | .held => s.holdReq { p with type := if write then 4 else 2 }
  | .scrub _ _ =>
    if write then (s.setDeed page (putBits (s.deedOf page) 5 3 4)).holdReq { p with type := 4 }
    else s.answer j p reply stOk (List.replicate (64 * p.len) 0)
  | .resident h f =>
    let at_ := f * 65536 + off
    -- whole units are written, so a bad one is replaced
    if write then (s.mediaPut h at_ p.payload).answer j p reply stOk []
    else
      let bad := s.badIn h at_ (64 * p.len)
      if bad.isEmpty then s.answer j p reply stOk (mread s.mem (spaceKey h at_) (64 * p.len))
      else (s.reportBad h bad).answer j p reply stUncorrectable []

/-- Held requests whose page is free again are served, in order. -/
def State.serveLate (s : State) : State :=
  if s.pw.lateReqs.isEmpty then s
  else
    let ready := s.pw.lateReqs.filter fun p => s.pageView p.page.toNat != .held
    let s := { s with pw := { s.pw with lateReqs := s.pw.lateReqs.filter fun p => s.pageView p.page.toNat == PageView.held } }
    s.each ready fun s p =>
      match s.jobNamed p with
      | some j => s.serve j p (p.type == 4)
      | none => s

/-! ### Answers (R581, R582, R587) -/

/-- Forget a request. -/
def State.dropReq (s : State) (tag : BitVec 16) : State :=
  { s with pw := { s.pw with reqs := s.pw.reqs.filter fun q => q.rtag != tag } }

/-- Change a request. -/
def State.mapReq (s : State) (tag : BitVec 16) (f : RemoteReq → RemoteReq) : State :=
  { s with pw := { s.pw with reqs := s.pw.reqs.map fun q => if q.rtag = tag then f q else q } }

/-- A remote request has failed: a read is refused to the step that asked; a write gives its share the status. -/
def State.reqFails (s : State) (q : RemoteReq) (status : Byte) : State :=
  let s := s.dropReq q.rtag
  if q.write then s.shareFails q.agent q.key status (remoteDetail status q.dva)
  else
    let units := (List.range (q.data.length / 64)).map fun i => q.page * 1024 + q.unit + i
    { s with pw := { s.pw with refused := units.foldl (fun t u => tset t u status) s.pw.refused } }

/-- The request that an answer from a member echoes. -/
def State.reqOf (s : State) (p : Packet) (write : Bool) : Option RemoteReq :=
  s.pw.reqs.find? fun q => q.rtag == p.rtag && q.target == p.src && q.write == write

/-- READ_RSP. -/
def State.readAnswered (s : State) (p : Packet) : State :=
  match s.reqOf p false with
  | none => s
  | some q =>
    if p.status != stOk then s.reqFails q p.status
    else
      let bytes := (p.payload.take q.data.length).zipIdx
      let a := q.page * 65536 + 64 * q.unit
      let c := bytes.foldl (fun c (b, i) => tset c (a + i) b) s.pw.cache
      ({ s with pw := { s.pw with cache := c } }).dropReq q.rtag

/-- WRITE_ACK. -/
def State.writeAnswered (s : State) (p : Packet) : State :=
  match s.reqOf p true with
  | none => s
  | some q => if p.status != stOk then s.reqFails q p.status else s.dropReq q.rtag

/-- Send a request again, to the home that this device's own entry names; a page that has come home here is read or
written here. -/
def State.resend (s : State) (q : RemoteReq) : State :=
  match s.pageView q.page with
  | .remote pos =>
    if s.jobState q.job ≠ 2 || !s.reaches pos then s.reqFails q stLinkFailed
    else
      let s := s.mapReq q.rtag fun q => { q with target := pos, waiting := false }
      s.sendPkt q.job pos { emptyPacket with type := if q.write then 4 else 2, page := BitVec.ofNat 22 q.page,
                                             unit := BitVec.ofNat 10 q.unit, len := q.data.length / 64, rtag := q.rtag,
                                             payload := if q.write then q.data else [] }
  | .unhomed => s.reqFails q stNoHome
  | .failed => s.reqFails q stUncorrectable
  | .corrupt => (s.failEntry q.page).reqFails q stUncorrectable
  | _ =>
    let s := s.dropReq q.rtag
    if q.write then
      s.heldGoes { page := q.page, off := 64 * q.unit, bytes := q.data, agent := q.agent, key := q.key, dva := q.dva }
    else s

/-- REDIRECT: the requester's entry names the home that the answer names, unless the page lies here by now; the third
redirect makes the request wait. -/
def State.redirected (s : State) (p : Packet) : State :=
  match s.pw.reqs.find? fun q => q.rtag == p.rtag && q.target == p.src with
  | none => s
  | some q =>
    let e := s.deedOf q.page
    let s := match s.pageView q.page with
      | .remote _ => if p.target.toNat = s.reg Reg.pwIdPos then s else s.setDeed q.page (putBits e 0 5 (22 + p.target.toNat))
      | _ => s
    let n := q.redirects + 1
    let s := s.mapReq q.rtag fun q => { q with redirects := n, waiting := 3 ≤ n }
    if 3 ≤ n then s else s.resend { q with redirects := n }

/-- The wait after three redirects is over: the request starts again from this device's own entry. -/
def State.backoffOver (s : State) (tag : BitVec 16) : State :=
  match s.pw.reqs.find? fun q => q.rtag == tag && q.waiting with
  | none => s
  | some q => (s.mapReq tag fun q => { q with redirects := 0, waiting := false }).resend { q with redirects := 0 }

/-! ### Moves across devices (R586) -/

/-- The homes in which an arriving page may be placed, in search order: the packets do not say which tier its phase mapping
names, so that is open. -/
def State.arrivalHomes (s : State) (page : Nat) : List Nat × State :=
  let (k, s) := s.fresh
  let loft := spread s.loftSet page
  match Config.freeBool k, spread s.cellarSet page with
  | true, h :: _ => (fromTarget h s.loftSet, s)
  | _, _ => (loft, s)

/-- Change the arrival of a page. -/
def State.mapIncoming (s : State) (page src : Nat) (f : Incoming → Incoming) : State :=
  { s with pw := { s.pw with incoming := s.pw.incoming.map fun i => if i.page = page && i.src = src then f i else i } }

/-- Forget the arrival of a page. -/
def State.dropIncoming (s : State) (page src : Nat) : State :=
  { s with pw := { s.pw with incoming := s.pw.incoming.filter fun i => !(i.page == page && i.src == src) } }

/-- A page begins to arrive: it takes a free frame; HOME 31 marks one for which there is none, which MOVE_COMMIT says. -/
def State.arrivalBegins (s : State) (j : Nat) (p : Packet) : State :=
  let page := p.page.toNat
  let before := BitVec.ofNat 64 (s.deedOf page)
  let (l, s) := s.arrivalHomes page
  match l.find? fun h => 0 < s.freeFrames h with
  | some h =>
    let (f, s) := s.takeFrame h
    let i : Incoming := { page := page, home := h, frame := f, src := p.src, job := j, before := before }
    { s with pw := { s.pw with incoming := s.pw.incoming ++ [i] } }
  | none =>
    let i : Incoming := { page := page, home := 31, frame := 0, src := p.src, job := j, before := before }
    let s := { s with pw := { s.pw with incoming := s.pw.incoming ++ [i] } }
    s.sendPkt j p.src { emptyPacket with type := 7, page := p.page, status := stNoSpace }

/-- Every packet of the page has arrived: the entry names its frame, and MOVE_COMMIT goes out. -/
def State.arrivalDone (s : State) (i : Incoming) (scrub : Bool) : State :=
  if i.home = 31 then s.dropIncoming i.page i.src
  else
    let e := i.before.toNat
    let s := s.setDeed i.page (mkDeed i.home (if scrub then 3 else 1) (dClass e) (dArg e) s.epoch i.frame)
    let s := s.mapIncoming i.page i.src fun i => { i with committed := true }
    s.sendPkt i.job i.src { emptyPacket with type := 7, page := BitVec.ofNat 22 i.page }

/-- MOVE_DATA: one packet of a page, or the only one of a page that carries no data. -/
def State.moveDataArrives (s : State) (j : Nat) (p : Packet) : State :=
  let page := p.page.toNat
  let find := fun (s : State) => s.pw.incoming.find? fun i => i.page == page && i.src == p.src && !i.committed
  let s := match find s, s.pageView page with
    | none, .remote _ | none, .unhomed => s.arrivalBegins j p
    | _, _ => s
  match find s with
  | none => s
  | some i =>
    if p.payload.isEmpty then s.arrivalDone i true
    else
      let s := if i.home = 31 then s else s.mediaPut i.home (i.frame * 65536 + 64 * p.unit.toNat) p.payload
      let units := sins i.units (p.unit.toNat / 32)
      let s := s.mapIncoming page p.src fun i => { i with units := units }
      if 32 ≤ units.length then s.arrivalDone { i with units := units } false else s

/-- A move to another device is abandoned: the page stays where it was. -/
def State.moveBack (s : State) (m : Move) (f : PlaceJob → PlaceJob) : State :=
  let s := if dState (s.deedOf m.page) = 2 then s.setDeed m.page m.entry.toNat else s
  ((s.dropMove m.page).applyHeld m.page).placeStep m.job f

/-- MOVE_COMMIT at the source: the entry names the destination, the frame is free, MOVE_DONE goes out; or the destination had
no space and the page stays. -/
def State.moveCommitArrives (s : State) (j : Nat) (p : Packet) : State :=
  match s.deed.moves.find? fun m => m.remote && m.page == p.page.toNat && m.home == 22 + p.src with
  | none => s
  | some m =>
    if p.status == stNoSpace then s.moveBack m fun q => { q with unplaced := q.unplaced + 1 }
    else
      let e := s.deedOf m.page
      let s := s.setDeed m.page (mkDeed m.home 1 (dClass e) (dArg e) s.epoch 0)
      let s := (s.dropMove m.page).sendHeld m p.src j
      let s := s.sendPkt j p.src { emptyPacket with type := 8, page := p.page }
      s.placeStep m.job

/-- MOVE_DONE at the destination. -/
def State.moveDoneArrives (s : State) (p : Packet) : State :=
  match s.pw.incoming.find? fun i => i.page == p.page.toNat && i.src == p.src && i.committed with
  | some i => s.dropIncoming i.page i.src
  | none => s

/-! ### Loss of a link or a peer (R588) -/

/-- Jobs that are opening or open and include a member. -/
def State.jobsWith (s : State) (pos : Nat) : List Nat :=
  (List.range 16).filter fun j =>
    (s.jobState j == 1 || s.jobState j == 2) && (s.pwJob j).peers.any fun q => q.pos == pos

/-- A job breaks: its requests fail, its moves in either direction are abandoned. -/
def State.breakJob (s : State) (j : Nat) : State :=
  let s := s.setReg (Reg.pwJob0State.ix j) 3
  let s := s.each (s.pw.reqs.filter fun q => q.job == j) fun s q => s.reqFails q stLinkFailed
  let s := s.each (s.deed.moves.filter fun m => m.remote && s.inJob j m.page) fun s m =>
    s.moveBack m fun q => { q with link := true }
  let s := s.each (s.pw.incoming.filter fun i => i.job == j) fun s i =>
    (if i.committed then s.setDeed i.page i.before.toNat else s).dropIncoming i.page i.src
  let num := BitVec.ofNat 16 (s.reg (Reg.pwJob0J.ix j))
  { s with pw := { s.pw with lateReqs := s.pw.lateReqs.filter fun p => p.job != num } }

/-- No port reaches a peer any more. -/
def State.losePeer (s : State) (pos : Nat) : State :=
  let s := s.each ((List.range 4).filter fun p => s.portUp p && s.reg (Reg.pwPortPeer.ix p) == pos) fun s p =>
    s.setReg (Reg.pwPortState.ix p) 4
  let s := s.raise (mkReport fcPwPeerLost 2 pos 0 true)
  s.each (s.jobsWith pos) fun s j => s.breakJob j

/-- A port goes down. -/
def State.losePort (s : State) (p : Nat) : State :=
  if !s.portUp p then s
  else
    let pos := s.reg (Reg.pwPortPeer.ix p)
    let s := s.setReg (Reg.pwPortState.ix p) 4
    if s.reaches pos then s.raise (mkReport fcPwPortDown 1 p 0 true) else s.losePeer pos

/-- A lane of a port that is up becomes faulty: the ledger records it, and the port retrains without it (R574). -/
def State.linkLane (s : State) (p lane : Nat) : State :=
  if !s.linksUp || !s.portUp p || (s.reg (Reg.pwPortBadLanes.ix p)).testBit lane then s
  else
    let was := s.reg (Reg.pwPortState.ix p)
    let hadSpare := s.flag (Reg.pwPortSpareUsed.ix p)
    let s := s.linkRepair p lane
    let bad := s.reg (Reg.pwPortBadLanes.ix p) ||| 1 <<< lane
    let (st, spare) := widthOf bad
    if st = 4 then (s.setReg (Reg.pwPortBadLanes.ix p) bad).losePort p
    else
      let s := s.showPort p st bad spare
      let s := if spare && !hadSpare then s.note fcPwLane p else s
      if st = 3 && was = 2 then s.raise (mkReport fcPwLane 1 p) else s

/-- What follows on the links from any change: held requests are served, closing jobs close. -/
def State.pwGo (s : State) : State := if s.fuses.links then s.serveLate.closeLate else s

end Sys2Proof.Machine
end

