-- ==== Sys2Proof/Machine/Firmware.lean ====
section
/-! DEFINITION. Which firmware images run: which are usable, how a set is judged and selected, and Safe Floor (16_study.md
R512 to R521). -/

namespace Sys2Proof.Machine

/-- The image in a slot (0: A, 1: B) of a kind (0 Study, 1 Porch, 2 microcode). -/
def State.imageAt (s : State) (k slot : Nat) : Option Image := lget s.flash.images (2 * k + slot) none

/-- The digest of the owner firmware key of the owner slot in force, as SEC_OKEY shows it; 0 names none (17_security.md
R544). -/
def State.ownerKey (s : State) : Nat := (List.range 8).foldl (fun a w => a + s.reg (Reg.secOkeyDigest.ix w) <<< (32 * w)) 0

/-- An image's signatures and digest hold (17_security.md R559). -/
def State.imageSigned (s : State) (i : Image) : Bool :=
  i.good && (s.ownerKey == 0 || i.owner.toNat == s.ownerKey)

/-- An image is usable (R513). -/
def State.imageOk (s : State) (k : Nat) (i : Image) : Bool :=
  s.imageSigned i && i.kind == k + 1 && s.fuses.rollback ≤ i.rollback

/-- The usable image of a slot. -/
def State.usable (s : State) (k slot : Nat) : Option Image :=
  match s.imageAt k slot with
  | some i => if s.imageOk k i then some i else none
  | none => none

/-- A slot holds an image that is not usable. -/
def State.badSlot (s : State) (k slot : Nat) : Bool := (s.imageAt k slot).isSome && (s.usable k slot).isNone

/-- A COMPAT entry of an image names another image of a kind. -/
def namesOther (a b : Image) : Bool :=
  a.compat.any fun e => e.1 == b.kind && e.2.1 == b.level && e.2.2.1 ≤ b.version && b.version ≤ e.2.2.2

/-- Class of a pair of images: 0 matched, 1 tolerated, 2 untested (R514). -/
def pairClass (a b : Image) : Nat :=
  if a.release = b.release then 0 else if namesOther a b || namesOther b a then 1 else 2

/-- Class of an image and the silicon (R514). -/
def siliconClass (a : Image) (stepping : Nat) : Nat :=
  match a.steppings.find? fun e => e.1 == stepping with
  | some (_, 1) => 0
  | some _ => 1
  | none => 2

/-- The six pairs in the order of R514: the second member 3 stands for the silicon. -/
def pairOrder : List (Nat × Nat) := [(0, 1), (0, 2), (1, 2), (0, 3), (1, 3), (2, 3)]

/-- Class of a pair of a set. -/
def State.classOf (s : State) (set_ : List Image) (p : Nat × Nat) : Nat :=
  match set_[p.1]?, set_[p.2]? with
  | some a, some b => pairClass a b
  | some a, none => siliconClass a (s.reg Reg.styIdStepping)
  | none, _ => 3

/-- The newer image of a pair (R515): by VERSION, then microcode before Porch before Study. -/
def newerOf (set_ : List Image) (p : Nat × Nat) : Nat :=
  match set_[p.1]?, set_[p.2]? with
  | some a, some b => if b.version < a.version then p.1 else p.2
  | _, _ => p.1

/-- What the judging comes to: the slots that run, or Safe Floor for a reason, with the slots as they stood; PAIRS; and the
slots it found to hold an image that is not usable. -/
structure Judged where
  slots : List Nat
  reason : Nat
  pairs : Nat
  bad : List (Nat × Nat)
  deriving DecidableEq, Repr

/-- PAIRS of a set. -/
def State.pairsOf (s : State) (set_ : List Image) : Nat :=
  (pairOrder.zipIdx.map fun (p, i) => s.classOf set_ p <<< (2 * i)).foldl (· + ·) 0

/-- The loop of R515. -/
def State.judgeLoop (s : State) (slots : List Nat) (set_ : List Image) (fell : List Nat) (bad : List (Nat × Nat)) : Nat → Judged
  | 0 => { slots := slots, reason := 2, pairs := s.pairsOf set_, bad := bad }
  | fuel + 1 =>
    match pairOrder.find? fun p => s.classOf set_ p == 2 with
    | none => { slots := slots, reason := 0, pairs := s.pairsOf set_, bad := bad }
    | some p =>
      let i := newerOf set_ p
      let other := 1 - lget slots i 0
      match fell.contains i, s.usable i other with
      | false, some x => s.judgeLoop (lset slots i other) (lset set_ i x) (i :: fell) bad fuel
      | true, _ => { slots := slots, reason := 2, pairs := s.pairsOf set_, bad := bad }
      | false, none =>
        { slots := slots, reason := 2, pairs := s.pairsOf set_, bad := if s.badSlot i other then bad ++ [(i, other)] else bad }

/-- The slot that a kind starts from: its active slot, or the other one if the active one is not usable. -/
def State.startSlot (s : State) (k : Nat) : Option Nat :=
  let a := lget s.flash.active k 0
  if (s.usable k a).isSome then some a else if (s.usable k (1 - a)).isSome then some (1 - a) else none

/-- Slots that the choice of a kind's starting slot finds unusable. -/
def State.startBad (s : State) (k : Nat) : List (Nat × Nat) :=
  let a := lget s.flash.active k 0
  if (s.usable k a).isSome then [] else [(k, a), (k, 1 - a)].filter fun p => s.badSlot p.1 p.2

/-- Safe Floor reason of a kind that has no usable image (R518). -/
def floorReason (k : Nat) : Nat := lget [1, 3, 4] k 1

/-- Select the set (R515). -/
def State.judgeSet (s : State) : Judged :=
  let bad := (List.range 3).flatMap s.startBad
  let slots := (List.range 3).map fun k => (s.startSlot k).getD (lget s.flash.active k 0)
  match (List.range 3).find? fun k => (s.startSlot k).isNone with
  | some k => { slots := slots, reason := floorReason k, pairs := 0xFFF, bad := bad }
  | none => s.judgeLoop slots ((List.range 3).filterMap fun k => s.usable k (lget slots k 0)) [] bad 4

/-- The version registers show the images of the selected slots. -/
def State.showSet (s : State) (slots : List Nat) : State :=
  let s := s.each (List.range 3) fun s k =>
    match s.usable k (lget slots k 0) with
    | some i => (s.setReg (Reg.styVerVersion.ix k) i.version).setReg (Reg.styVerLevel.ix k) i.level
    | none => (s.setReg (Reg.styVerVersion.ix k) 0).setReg (Reg.styVerLevel.ix k) 0
  let s := s.setReg Reg.stySlotsRunStudy (lget slots 0 0)
  let s := s.setReg Reg.stySlotsRunPorch (lget slots 1 0)
  s.setReg Reg.stySlotsRunUcode (lget slots 2 0)

/-- Enter Safe Floor (R518). -/
def State.enterFloor (s : State) (reason : Nat) : State :=
  if s.safeFloor && s.reg Reg.styModeSfReason == reason then s
  else
    let s := (s.setReg Reg.styModeMode 1).setReg Reg.styModeSfReason reason
    (s.raiseAon (mkReport fcSafeFloor 2 0 0 true)).log 7 reason

/-- Leave Safe Floor. -/
def State.leaveFloor (s : State) : State :=
  let s := if s.safeFloor then s.log 7 0 else s
  ((s.setReg Reg.styModeMode 0).setReg Reg.styModeSfReason 0).endCondition fcSafeFloor fun _ => true

/-- Judge the set and let it run: at POR, at WRM, at a wake from S3 and at the activation of an update (R515 to R518). -/
def State.runSet (s : State) : State :=
  let j := s.judgeSet
  let s := s.each j.bad fun s _ => s.noteAon fcImageBad
  let fb := maskOf ((List.range 3).filter fun k => lget j.slots k 0 != lget s.flash.active k 0)
  let s := (s.showSet j.slots).setReg Reg.styCompatPairs j.pairs
  let s := { s with sty := { s.sty with set_ := j.slots } }
  let s := s.setReg Reg.stySlotsFallback (if j.reason = 0 then fb else 0)
  let s := s.endCondition fcFwFallback fun _ => j.reason != 0 || fb == 0
  let s := if j.reason = 0 && fb != 0 then s.raiseAon (mkReport fcFwFallback 1 0 0 true) else s
  if j.reason ≠ 0 then s.enterFloor j.reason
  else if s.genSlot.isNone then s.enterFloor 5
  else s.leaveFloor

end Sys2Proof.Machine
end

