-- ==== Sys2Proof/Machine/Power.lean ====
section
/-! DEFINITION. Supplies, caps, performance levels, clocks and temperatures (14_power.md R446 to R468; 16_study.md R505 to
R507; 08_memory_tiers.md R258). Temperature operands are whole degrees Celsius, voltages millivolts. -/

namespace Sys2Proof.Machine

/-! ### Levels (R461 to R463) -/

/-- The level in force: the lowest of the requested level and the caps. -/
def State.level (s : State) : Nat :=
  min (min s.pwr.requested (s.reg Reg.pwrCapsSupply)) (min (s.reg Reg.pwrCapsBatt) (min (s.reg Reg.pwrCapsTherm) (s.reg Reg.pwrCapsPower)))

/-- The level in force has changed, or may have: downwards the clock follows at once and the voltage after it; upwards the
voltage is written first. A change in progress is retargeted. -/
def State.relevel (s : State) : State :=
  let l := s.level
  let s := (s.setReg Reg.pwrStatusLevel l).setReg Reg.pwrStatusRequested s.pwr.requested
  if !s.mainUp || s.pwr.target = l then s
  else
    let s := s.setFlag Reg.pwrStatusAvsBusy true
    { s with pwr := { s.pwr with clock := min s.pwr.clock l, reached := min s.pwr.reached l, target := l } }

/-- The regulator reports completion: the voltage last written is reached, and an upward clock change takes effect (R462). -/
def State.avsReached (s : State) : State :=
  if !s.flag Reg.pwrStatusAvsBusy then s
  else
    let s := s.setFlag Reg.pwrStatusAvsBusy false
    { s with pwr := { s.pwr with reached := s.pwr.target, clock := s.pwr.target } }

/-- The level at a main-die start: the voltage of START_LEVEL has been reached before any tile leaves reset (R450). -/
def State.startLevel (s : State) (requested : Nat) : State :=
  let l := s.reg Reg.pwrCtrlStartLevel
  let s := s.setFlag Reg.pwrStatusAvsBusy false
  ({ s with pwr := { s.pwr with clock := l, reached := l, target := l, requested := requested } }).relevel

/-- Core voltage of a level in mV (00_scope.md). -/
def coreMv (l : Nat) : Nat := lget [550, 580, 620, 660, 700, 750, 800, 850] l 850

/-- Nominal voltage of a rail in mV, in the row order of R446; the core rail's is that of the level that R458 names, and 0.75 V before the first write of R450 has completed (21_signals_and_ratings.md). -/
def State.nominal (s : State) (rail : Nat) : Nat :=
  if rail = 0 then (if s.pwr.coreSet then coreMv s.pwr.clock else 750) else lget [0, 850, 750, 500, 1800, 1800, 1050, 1800, 750, 1800, 1800] rail 1800

/-- Group of a rail: 0 main, 1 Loft, 2 companion. -/
def railGroup (rail : Nat) : Nat := if rail < 6 then 0 else if rail < 8 then 1 else 2

/-- The rail is powered in the current state. -/
def State.railOn (s : State) (rail : Nat) : Bool :=
  s.pwr.aonGood && match railGroup rail with
    | 0 => s.pins.pwrEnMain && s.pwr.mainGood
    | 1 => s.pins.pwrEnLoft && s.pwr.loftGood
    | _ => true

/-! ### Caps (R452, R455, R461) -/

/-- The cap's field. -/
def capField : Cap → Field
  | .supply => Reg.pwrCapsSupply
  | .battery => Reg.pwrCapsBatt
  | .thermal => Reg.pwrCapsTherm
  | .power => Reg.pwrCapsPower

/-- When the cap next rises. -/
def State.capRise (s : State) : Cap → Option Nat
  | .supply => s.pwr.supplyHold
  | .battery => s.pwr.battHold
  | .thermal => s.pwr.thermRise
  | .power => s.pwr.powerRise

/-- Set when the cap next rises. -/
def State.setRise (s : State) (c : Cap) (t : Option Nat) : State :=
  match c with
  | .supply => { s with pwr := { s.pwr with supplyHold := t } }
  | .battery => { s with pwr := { s.pwr with battHold := t } }
  | .thermal => { s with pwr := { s.pwr with thermRise := t } }
  | .power => { s with pwr := { s.pwr with powerRise := t } }

/-- The cap's release step. -/
def releaseStep : Cap → Nat
  | .supply | .battery => us 100
  | .thermal | .power => ms 10

/-- A cap applies at a level, at once; it is not being released. -/
def State.setCap (s : State) (c : Cap) (l : Nat) : State := ((s.setReg (capField c) l).setRise c none).relevel

/-- A sensor's last reading, when it is valid. -/
def State.tempOf (s : State) (i : Nat) : Option Int := if s.pwr.sensBad.contains i then none else s.pwr.temps[i]?

/-- Some valid sensor reads at least `t`. -/
def State.anyHot (s : State) (t : Int) : Bool := (List.range 64).any fun i => (s.tempOf i).any fun x => decide (t ≤ x)

/-- What ends a cap's hold has happened (R461). A rail's return above its warning threshold is what the event itself says. -/
def State.causeOver (s : State) : Cap → Bool
  | .supply => true
  | .battery => s.pins.battWarnN
  | .thermal => !s.anyHot 111
  | .power => s.reg Reg.pwrLimitWatts = 0 || 10 * s.reg Reg.pwrLimitAvgW < 9 * s.reg Reg.pwrLimitWatts

/-- The cap is being released: it has risen since it was applied. -/
def State.releasing (s : State) (c : Cap) : Bool :=
  match c with
  | .supply | .battery => 3 < s.reg (capField c)
  | _ => (s.capRise c).isSome

/-- A cap rises one level; one that no longer limits is gone. -/
def State.raiseCap (s : State) (c : Cap) : State :=
  let l := s.reg (capField c) + 1
  let gone := 7 ≤ l || s.pwr.requested ≤ l
  let s := (s.setReg (capField c) (if gone then 7 else l)).setRise c (if gone then none else some (s.now + releaseStep c))
  let s := if c == .thermal then
      (if gone then { s with pwr := { s.pwr with thermOn := false } } else s).endCondition fcThermal fun _ => true
    else s
  s.relevel

/-- The time at which the cap may next rise has come. -/
def State.riseDue (s : State) (c : Cap) : Bool := (s.capRise c).all fun t => t ≤ s.now

/-- A rail is back above its warning threshold; with the last one, the supply cap's hold begins (R452). -/
def State.railReturned (s : State) (rail : Nat) : State :=
  let was := s.pwr.supplyBad.contains rail
  let s := { s with pwr := { s.pwr with supplyBad := s.pwr.supplyBad.filter (· != rail) } }
  if was && s.pwr.supplyBad.isEmpty && s.reg Reg.pwrCapsSupply == 3 then s.setRise .supply (some (s.now + ms 1)) else s

/-- Every rail is back above its warning threshold. -/
def State.railsBack (s : State) : State :=
  ({ s with pwr := { s.pwr with supplyBad := [] } }).endCondition fcSupplyWarn fun _ => true

/-- The cap applies. -/
def State.capOn (s : State) (c : Cap) : Bool := s.reg (capField c) != 7 || (c == .thermal && s.pwr.thermOn)

/-- CAP_HOLD_EXPIRY. -/
def State.capHeld (s : State) (c : Cap) : State :=
  if !s.capOn c || s.releasing c || !s.causeOver c || !s.riseDue c then s
  else (if c == .supply then s.railsBack else s).raiseCap c

/-- CAP_RELEASE_STEP: a released cap rises whatever has become of its cause since, until the cause applies it again. -/
def State.capStep (s : State) (c : Cap) : State :=
  if !s.capOn c || !s.releasing c || !s.riseDue c then s else s.raiseCap c

/-- SUPPLY_WARNING (R452). -/
def State.supplyWarn (s : State) (rail : Nat) : State :=
  if !s.railOn rail then s
  else
    let s := s.raiseAon (mkReport fcSupplyWarn 0 rail 0 true)
    let s := { s with pwr := { s.pwr with supplyBad := sins s.pwr.supplyBad rail } }
    -- the rail returns after this, so the hold ends no earlier than 1 ms from here
    ((s.bump Reg.pwrCapsWarnCnt).setCap .supply 3).setRise .supply (some (s.now + ms 1))

/-- SUPPLY_HIGH (R451). -/
def State.supplyHigh (s : State) (rail : Nat) : State :=
  if s.railOn rail then s.raiseAon (mkReport fcSupplyHigh 1 rail 0 true) else s

/-- BATT_WARN_N goes low (R455). -/
def State.battLow (s : State) : State :=
  if !s.pwr.aonGood || !s.pins.battWarnN then s
  else
    let s := { s with pins := { s.pins with battWarnN := false }
                      pwr := { s.pwr with battLowSince := some s.now, battFaulted := false } }
    ((s.setFlag Reg.pwrStatusBattLow true).log 3 1).setCap .battery 3

/-- BATT_WARN_N returns high. -/
def State.battBack (s : State) : State :=
  if s.pins.battWarnN then s
  else
    let s := { s with pins := { s.pins with battWarnN := true }, pwr := { s.pwr with battLowSince := none, battFaulted := false } }
    let s := (s.setFlag Reg.pwrStatusBattLow false).log 3 0
    (s.setRise .battery (some (s.now + ms 1))).endCondition fcBattWarnStuck fun _ => true

/-- BATT_WARN_N has been low too long (R456). -/
def State.battStuck (s : State) : State :=
  let lim := s.reg Reg.pwrCtrlBattStuckS
  match s.pwr.battLowSince with
  | some t =>
    if lim = 0 || s.pwr.battFaulted || s.now < t + ms (1000 * lim) then s
    else ({ s with pwr := { s.pwr with battFaulted := true } }).raiseAon (mkReport fcBattWarnStuck 1 0 0 true)
  | none => s

/-- POWER_CAP_EVALUATION. -/
def State.powerJudge (s : State) (watts : Nat) : State :=
  if !s.mainUp then s
  else
    let s := s.setReg Reg.pwrLimitAvgW watts
    let lim := s.reg Reg.pwrLimitWatts
    if lim = 0 then (s.setRise .power none).setCap .power 7
    else if lim < watts then (s.setCap .power (s.level - 1)).log 8 3
    else s

/-! ### Temperatures (R466 to R468; 16_study.md R505, R506) -/

/-- A reading as the 8 bits of a register; what a reading beyond them shows is open. -/
def State.tempByte (s : State) (t : Int) : Nat × State :=
  if decide (-128 ≤ t ∧ t ≤ 127) then ((t % 256).toNat, s)
  else
    let (k, s) := s.fresh
    (Config.freeNat k % 256, s)

/-- LOFT_SLICEn.TEMP shows the hotter of the slice's two stack sensors, faulty ones left out (08_memory_tiers.md R258,
R304). -/
def State.sliceTemp (s : State) (slice : Nat) : State :=
  let l := [2 * slice, 2 * slice + 1].filterMap s.tempOf
  match l with
  | [] => s
  | a :: r =>
    if !s.mainUp then s
    else
      let (b, s) := s.tempByte (r.foldl max a)
      s.setReg (Reg.loftSliceTemp.ix slice) b

/-- A sensor's reading is taken, once the sensors have been read. -/
def State.putTemp (s : State) (i : Nat) (t : Int) : State :=
  let s : State := { s with pwr := { s.pwr with temps := lset s.pwr.temps i t } }
  if i < 36 then s.sliceTemp (i / 2) else s

/-- THERMAL_CAP: a valid sensor reaches 115 °C. -/
def State.thermCap (s : State) (i : Nat) (t : Int) : State :=
  if !s.pwr.aonGood || s.pwr.state == .s3 || s.pwr.sensBad.contains i || t < 115 then s
  else
    let s := (s.putTemp i t).noteAon fcThermalCap i
    let old := s.reg Reg.pwrCapsTherm
    let l := min old (s.reg Reg.pwrThermCapLevel)
    let fall := if s.pwr.thermOn then s.pwr.thermFall else some (s.now + ms 10)
    let s := { s with pwr := { s.pwr with thermFall := fall, thermOn := true } }
    let s := (s.setCap .thermal l).log 8 1
    if l = 0 && old != 0 then s.raiseAon (mkReport fcThermal 1 0 0 true) else s

/-- THERMAL_CAP_STEP: at 120 °C or above the cap falls by a further level, with the Study running (15_resets_and_retention.md
R483). -/
def State.thermStep (s : State) : State :=
  let l := s.reg Reg.pwrCapsTherm
  if !s.sty.up || !s.pwr.thermOn || l = 0 || !s.anyHot 120 || (s.pwr.thermFall.any fun t => s.now < t) then s
  else
    let s := { s with pwr := { s.pwr with thermFall := some (s.now + ms 10) } }
    let s := (s.setCap .thermal (l - 1)).log 8 2
    if l = 1 then s.raiseAon (mkReport fcThermal 1 0 0 true) else s

/-- Both neighbours of a sensor differ from it by more than 15 °C; the sensors at the ends have one. -/
def farFromBoth (l : List Int) (i : Nat) : Bool :=
  let t := lget l i 0
  let near := (if i = 0 then [] else [lget l (i - 1) 0]) ++ (if 64 ≤ i + 1 then [] else [lget l (i + 1) 0])
  near.all fun x => 15 < (x - t).natAbs

/-- Judge a sensor after a scan (R506). -/
def State.judgeSensor (s : State) (l : List Int) (i : Nat) : State :=
  let t := lget l i 0
  let n := if farFromBoth l i then min 100 (lget s.pwr.sensDiff i 0 + 1) else 0
  let s := { s with pwr := { s.pwr with sensDiff := lput s.pwr.sensDiff i n } }
  let bad := decide (t < -55 ∨ 150 < t) || n == 100
  let was := s.pwr.sensBad.contains i
  let s := if bad && !was then
      ({ s with pwr := { s.pwr with sensBad := sins s.pwr.sensBad i } }).raiseAon (mkReport fcSensor 1 i 0 true)
    else if !bad && was then
      ({ s with pwr := { s.pwr with sensBad := s.pwr.sensBad.filter (· != i) } }).endCondition fcSensor fun r => r.unit.toNat == i
    else s
  let (b, s) := s.tempByte t
  (s.setReg (Reg.styTempTemp.ix i) b).setFlag (Reg.styTempValid.ix i) (!bad)

/-- The hottest valid sensor. -/
def State.hottest (s : State) : Option (Int × Nat) :=
  (List.range 64).foldl (fun a i => match a, s.tempOf i with
    | none, some t => some (t, i)
    | some (m, j), some t => if m < t then some (t, i) else some (m, j)
    | a, none => a) none

/-- SENSOR_SCAN. -/
def State.scanTemps (s : State) (raw : Nat) : State :=
  if !s.sty.up || s.pwr.state == .s3 then s
  else
    let l := (List.range 64).map fun i => signed 16 (bitsAt raw (16 * i) 16)
    let s := { s with pwr := { s.pwr with temps := l }, sty := { s.sty with scans := s.sty.scans + 1 } }
    let s := s.each (List.range 64) fun s i => s.judgeSensor l i
    let s := s.each (List.range 18) State.sliceTemp
    let s := match s.hottest with
      | some (t, i) =>
        let (b, s) := s.tempByte t
        (s.setReg Reg.pwrThermHotMax b).setReg Reg.pwrThermHotId i
      | none => s
    if s.anyHot 105 then s else s.endCondition fcThermalTrip fun _ => true

/-- LOFT_BAND_CHANGE: the band follows the hotter of the two stack sensors, faulty ones left out; it falls only 3 °C below
a threshold (R258). -/
def State.loftBand (s : State) (slice : Nat) (t0 t1 : Int) : State :=
  let ok := fun i => !s.pwr.sensBad.contains i
  let l := (if ok (2 * slice) then [t0] else []) ++ (if ok (2 * slice + 1) then [t1] else [])
  match l with
  | [] => s
  | a :: r =>
    if !s.mainUp then s
    else
      let hot := r.foldl max a
      let up := if 105 ≤ hot then 2 else if 85 ≤ hot then 1 else 0
      let down := if 102 < hot then 2 else if 82 < hot then 1 else 0
      let (b, s) := s.tempByte hot
      let s := s.setReg (Reg.loftSliceTemp.ix slice) b
      s.setReg (Reg.loftSliceBand.ix slice) (max up (min down (s.reg (Reg.loftSliceBand.ix slice))))

/-! ### Rails (16_study.md R507) -/

/-- Place of a rail among the four whose current is measured. -/
def currentPlace (rail : Nat) : Option Nat := [0, 1, 6, 8].findIdx? fun r => r == rail

/-- A rail's reading shows it within its thresholds. -/
def State.railRead (s : State) (rail mv : Nat) : State :=
  let nom := s.nominal rail
  -- the rail may have been back for any time: the supply cap's hold is not counted from the reading
  let s := if 96 * nom < 100 * mv && s.pwr.supplyBad.contains rail then
      ({ s with pwr := { s.pwr with supplyBad := s.pwr.supplyBad.filter (· != rail) } }).endCondition fcSupplyWarn
        fun r => r.unit.toNat == rail
    else s
  if 100 * mv ≤ 106 * nom then s.endCondition fcSupplyHigh fun r => r.unit.toNat == rail else s

/-- RAIL_SCAN. -/
def State.scanRails (s : State) (mv cur : Nat) : State :=
  if !s.sty.up || s.pwr.state == .s3 then s
  else
    s.each (List.range 11) fun s r =>
      let v := if s.railOn r then bitsAt mv (16 * r) 16 else 0
      let c := match currentPlace r with
        | some i => if s.railOn r then bitsAt cur (16 * i) 16 else 0
        | none => 0
      let s := (s.setReg (Reg.styRailMv.ix r) v).setReg (Reg.styRailCurrent.ix r) c
      if s.railOn r then s.railRead r v else s

/-! ### After a reset of the registers -/

/-- The caps whose causes are still present apply again. -/
def State.capsAgain (s : State) : State :=
  let s := if s.pwr.supplyBad.isEmpty then s else s.setReg Reg.pwrCapsSupply 3
  let low := fun (s : State) => { s with pwr := { s.pwr with battLowSince := some (s.pwr.battLowSince.getD s.now) } }
  let s := if s.pins.battWarnN then s else low ((s.setReg Reg.pwrCapsBatt 3).setFlag Reg.pwrStatusBattLow true)
  let hot := s.anyHot 115
  let s := if hot then s.setReg Reg.pwrCapsTherm (s.reg Reg.pwrThermCapLevel) else s
  let s := { s with pwr := { s.pwr with thermOn := hot, thermFall := if hot then some (s.now + ms 10) else none } }
  let s := s.setFlag Reg.pwrStatusWakeIn s.pins.wakeIn
  { s with pwr := { s.pwr with supplyHold := none, battHold := none, thermRise := none, powerRise := none } }

end Sys2Proof.Machine
end

