-- ==== Sys2Proof/Machine/Start.lean ====
section
/-! DEFINITION. How the main die goes down and comes up again: what is lost and restored, the repair ledger and the tile
map, settings trials, and the reset of the whole device (01_house_plan.md R25, R28; 08_memory_tiers.md R285; 14_power.md
R454, R460, R467 to R474, R478; 15_resets_and_retention.md R484 to R501; 19_fusebox.md R597 to R600, R610 to R619). -/

namespace Sys2Proof.Machine

/-! ### Settings trials (R496 to R500) -/

/-- The trial has failed: its generation is rejected and the fallback is current. -/
def State.trialFails (s : State) : State :=
  match firstSat 2 fun k => s.genStateAt k == .trial with
  | none => s
  | some k =>
    let s := s.setGenState k .rejected
    let s := { s with flash := { s.flash with reverted := true, startsLeft := 0, ticksLeft := 0 } }
    (s.raiseAon (mkReport fcSettingsReverted 1)).log 6 4

/-- A trial settles. -/
def State.trialSettles (s : State) : State :=
  match firstSat 2 fun k => s.genStateAt k == .trial with
  | none => s
  | some k =>
    let s := s.setGenState k .settled
    ({ s with flash := { s.flash with startsLeft := 0, ticksLeft := 0 } }).log 6 3

/-- The generations are read at a start; one that counts takes a start from a trial, or finds none left (R495, R498, R499). -/
def State.settingsStart (s : State) (count : Bool) : State :=
  let s := s.readGens
  if !s.inTrial || !count then s
  else if s.flash.startsLeft = 0 then s.trialFails
  else { s with flash := { s.flash with startsLeft := s.flash.startsLeft - 1 } }

/-- A revert on command, or none if the other slot holds no SETTLED generation (R500). -/
def State.revert (s : State) : Option State :=
  match s.genSlot with
  | none => none
  | some k =>
    if s.genStateAt (1 - k) != .settled then none
    else
      let s := s.setGenState k .rejected
      let s := { s with flash := { s.flash with reverted := true, startsLeft := 0, ticksLeft := 0 } }
      some ((s.log 6 5).orderMdr 10 .pcr)

/-! ### Contents that are lost -/

/-- MEM_UNCORR records of these spaces have ended. -/
def State.endMemRecords (s : State) (l : List Nat) : State :=
  let units := l.map s.memUnit
  s.endCondition fcMemUncorr fun r => units.contains r.unit.toNat

/-- Whole spaces lose their contents. -/
def State.loseSpaces (s : State) (l : List Nat) : State :=
  if l.isEmpty then s
  else
    let s := s.endMemRecords l
    { s with mem := s.mem.filter fun e => !l.contains (keySpace e.1)
             badUnits := s.badUnits.filter fun k => !l.contains (keySpace k) }

/-- Every Deed entry becomes UNHOMED (R490). -/
def State.unhomeAll (s : State) : State :=
  ({ s with deed := { scrubPos := s.deed.scrubPos } }).endCondition fcMemUncorr fun r => r.unit.toNat == 3 <<< 5

/-- The Deed table is restored from its shadow (R489): moves are undone, zeroing becomes scrub-pending, entries whose home
has lost its contents become UNHOMED, and the free lists are rebuilt. -/
def State.restoreDeed (s : State) (gone : Nat → Bool) : State :=
  let back := fun (e : BitVec 64) =>
    let x := e.toNat
    if dState x = 2 then putBits x 5 3 1
    else if dState x = 4 then putBits x 5 3 3
    else x
  let fix := fun (x : Nat) =>
    if dState x ≠ 0 && dState x ≠ 5 && dHome x < 22 && gone (dHome x) then putBits (putBits x 0 5 31) 5 3 0 else x
  let t := s.deed.entries.map fun e => (e.1, BitVec.ofNat 64 (fix (back e.2)))
  { s with deed := { entries := t.filter fun e => e.2 != deedUnhomed, scrubPos := s.deed.scrubPos } }

/-- Window slices that lie in lost Loft slices read zeros (R489). -/
def State.zeroSlices (s : State) (gone : Nat → Bool) : State :=
  s.each ((List.range 18).filter gone) fun s n => s.loseBytes n 0x7C000000 0x4000000

/-! ### The main die goes down -/

/-- What ends with the main die, without records (R488): lists, requests, rings, streams, translations, Pantries. -/
def State.mainDown (s : State) : State :=
  let s := (s.loseSpaces ((List.range 16).map pantrySpace)).chainLost
  let s := { s with deed := { s.deed with held := [], zeroJobs := [] } }
  let ports := s.pw.ports.map fun e => (e.1, { e.2 with peerPc := 0 })
  let k := s.tick
  let tick : TickSt := { number := k.number, l2 := k.l2, gapNext := k.gapNext, vtSync := k.vtSync, vtBase := k.vtBase
                         bgStart := none, logSkipping := k.logSkipping }
  { s with
    pins := { s.pins with fdReady := false }
    wk := { nextId := s.wk.nextId }
    rg := {}
    tick := tick
    xlat := {}
    att := {}
    strm := {}
    gal := {}
    pw := { ports := ports, used := s.pw.used, out := s.pw.out, rtagNext := s.pw.rtagNext }
    fb := { s.fb with test := none, bondHold := [], stopWait := false }
    rst := { s.rst with tlr := [], cellarWait := false }
    pwr := { s.pwr with entry := .none, sleepTicket := none, idleSince := none } }
  |>.setFlag Reg.secStatusMemKeys false

/-- The main group's rails lose power: the collector loses the reports that it has not forwarded (01_house_plan.md R21;
19_fusebox.md R590). -/
def State.mainPowerOff (s : State) : State :=
  { s with pwr := { s.pwr with mainGood := false, coreSet := false, startAvs := none }, fb := { s.fb with collector := [] } }

/-- A start is pending. -/
def State.pendStart (s : State) (kind : Nat) (ordered loft : Bool) : State :=
  { s with rst := { s.rst with starting := true, startKind := kind, ordered := ordered, loftLost := s.rst.loftLost || loft } }

/-- An MDR has happened. -/
def State.mdrCause (s : State) (source : Nat) : State := (s.bump Reg.rstCauseMdrCnt).cause 4 source

/-- An MDR that no order prepared: a supply monitor, a lost clock (R488). `loft`: the Loft's contents are lost with it. -/
def State.hardMdr (s : State) (source : Nat) (loft : Bool) : State :=
  if s.mainUp then ((s.loseBuffers.mainDown).pendStart 4 false loft).mdrCause source
  else if s.rst.starting && loft then { s with rst := { s.rst with loftLost := true } }
  else s

/-! ### The repair ledger and the tile map (R25; 19_fusebox.md R610, R616 to R619) -/

/-- The tile map: P-tiles of T0 to T15, how many are present, spares left, fenced P-tiles that stay, and the P-tile whose
failure retired a tile. -/
structure TileMap where
  map : List Nat
  present : Nat
  spares : List Nat
  fenced : List Nat
  lost : Option Nat
  deriving DecidableEq, Repr

/-- The map as the device left the factory. With one tile repaired at the factory, 17 P-tiles are good and the manual does
not say which 16 of them are the active ones (01_house_plan.md R25): DESIGN CHOICE, assumption 25, the 16 lowest, so that
the highest is the spare. -/
def factoryMap (bad : List Nat) : TileMap :=
  let good := (List.range 18).filter fun p => !bad.contains p
  { map := good.take 16, present := 16, spares := good.drop 16, fenced := [], lost := none }

/-- A P-tile has failed. -/
def TileMap.fail (m : TileMap) (p : Nat) : TileMap :=
  if m.spares.contains p then { m with spares := m.spares.filter (· != p) }
  else match (m.map.take m.present).findIdx? fun q => q == p with
    | none => m
    | some t =>
      match m.spares with
      | q :: r => { m with map := lset m.map t q, spares := r }
      | [] =>
        if m.present = 16 then { m with map := lset m.map t (lget m.map 15 0), present := 15, lost := some p }
        else { m with fenced := m.fenced ++ [p] }

/-- The ledger entry that a failed lane row makes at a start, if it tells something new: a failing spare counts as the row
that it replaces, and a row that is replaced already fails through its spare (06_tile_arithmetic.md R224); a failure whose entry
waits to be applied, or in a tile that has already failed, tells nothing. -/
def State.rowEntry (s : State) (p b r : Nat) : Option (Nat × Nat × Nat) :=
  let e := (p, b, s.flash.rowOf p b r)
  if s.flash.tileBad.contains p || (s.flash.bayRows.drop s.flash.rowsApplied).contains e then none else some e

/-- Faulty bond lanes of a sub-channel. -/
def lanesOf (l : List (Nat × Nat)) (n k : Nat) : Nat := (l.filter fun e => e.1 == n && e.2 / 146 == k).length

/-- The ledger entry of a bond lane; a lane that no spare replaces is not in effect. -/
def bondRepair (e : Nat × Nat) (source : Nat) (replaced : Bool) : Repair :=
  { kind := 4, place := e.1, index := 144 * (e.2 / 146) + e.2 % 146, source := source, applied := replaced }

/-- Record what a self-test finds, beside what the ledger knows. Also: the failed lane rows that the full ledger does not
take. -/
def State.recordFinding (s : State) (extra : List (Nat × Nat × Nat)) (f : Finding) : State × List (Nat × Nat × Nat) :=
  match f with
  | .laneRow p b r =>
    match s.rowEntry p b r with
    | none => (s, extra)
    | some e =>
      if s.flag Reg.fbLedgerFull then (s, extra ++ [e])
      else (s.ledger (rowRepair e 1) fun x => { x with bayRows := x.bayRows ++ [e] }, extra)
  | .tile p =>
    (if s.flash.tileBad.contains p then s
      else s.ledger (s.tileRepair p 1) fun x => { x with tileBad := x.tileBad ++ [p.val] }, extra)
  | .bondLane n k l =>
    let e := (n.val, 146 * k.val + l.val)
    (if s.flash.bondBad.contains e then s
      else s.ledger (bondRepair e 1 (decide (lanesOf s.flash.bondBad n k < 2))) fun x => { x with bondBad := x.bondBad ++ [e] },
     extra)

/-- Failed lane rows of a bay. -/
def rowsOf (rows : List (Nat × Nat × Nat)) (p b : Nat) : Nat := (rows.filter fun r => r.1 == p && r.2.1 == b).length

/-- P-tiles in which a bay has more failed lane rows than spares, not yet in the ledger as failed. -/
def tilesFromRows (rows : List (Nat × Nat × Nat)) (bad : List Nat) : List Nat :=
  (List.range 18).filter fun p => !bad.contains p && (List.range 4).any fun b => 2 < rowsOf rows p b

/-- Show the tile map (R25, R227) and the wing tables of R166. -/
def State.showMap (s : State) (m : TileMap) (rows : List (Nat × Nat × Nat)) : State :=
  let mask := 2 ^ m.present - 1
  let s := s.each (List.range 16) fun s t =>
    let p := lget m.map t 0
    let here := t < m.present
    let s := (s.setReg (Reg.tlMapPtile.ix t) p).setFlag (Reg.tlMapPresent.ix t) here
    let s := s.setReg (Reg.tlMapBayFenced.ix t) (if here && m.fenced.contains p then 15 else 0)
    s.each (List.range 4) fun s b => s.setReg (Reg.bySpareSparesUsed.ix t |>.up (8 * b)) (min 2 (rowsOf rows p b))
  let s := (s.setReg Reg.wgCurrentPresent mask).setReg Reg.wgCurrentTiles m.present
  let s := (s.setReg Reg.styCfgIdTiles m.present).setReg Reg.styCfgIdSpares m.spares.length
  s.each (List.range 16) fun s w =>
    let s := (s.setReg (Reg.wgTableLoMaskW0.ix w) (if w = 0 then mask else 0)).setReg (Reg.wgTableLoMaskW1.ix w) 0
    (s.setReg (Reg.wgTableHiMaskW2.ix w) 0).setReg (Reg.wgTableHiMaskW3.ix w) 0

/-- UNIT of a bond-lane record (19_fusebox.md R605). -/
def bondUnit (n k l : Nat) : Nat := n + k <<< 5 + l <<< 8

/-- A slice's sub-channels after a start: two spares each; a third faulty lane stays in service, a fourth withdraws the
slice (19_fusebox.md R612, R614). -/
def State.showBond (s : State) (bonds : List (Nat × Nat)) (n : Nat) : State :=
  let c := fun k => lanesOf bonds n k
  let used := ((List.range 8).map fun k => min 2 (c k) <<< (2 * k)).foldl (· + ·) 0
  let s := s.setReg (Reg.fbLoftSparesUsed.ix n) used
  let s := s.setReg (Reg.fbLoftUnrepaired.ix n) (maskOf ((List.range 8).filter fun k => 2 < c k))
  let s := s.setFlag (Reg.fbLoftWithdrawn.ix n) ((List.range 8).any fun k => 3 < c k)
  let lane := fun k => ((bonds.filter fun e => e.1 == n && e.2 / 146 == k).getLast?.map fun e => e.2 % 146).getD 0
  let s := s.endCondition fcLoftLane fun r => r.unit.toNat % 32 == n && c (bitsAt r.unit.toNat 5 3) ≤ 2
  let s := s.endCondition fcLoftSlice fun r => r.unit.toNat % 32 == n && c (bitsAt r.unit.toNat 5 3) ≤ 3
  s.each (List.range 8) fun s k =>
    if c k = 3 then s.raise (mkReport fcLoftLane 1 (bondUnit n k (lane k)) 0 true)
    else if 3 < c k then s.raise (mkReport fcLoftSlice 2 (bondUnit n k (lane k)) 0 true)
    else s

/-- Apply the repair ledger and what this start's self-test has found: entries of lane rows and tiles take effect (R616). -/
def State.applyLedger (s : State) (found : List Finding) : State :=
  let (s, extra) := found.foldl (fun x f => x.1.recordFinding x.2 f) (s, [])
  let rows := s.flash.bayRows ++ extra
  let s := { s with flash := { s.flash with rowsApplied := s.flash.bayRows.length } }
  let bonds := s.flash.bondBad ++ found.filterMap fun f => match f with
    | .bondLane n k l => if s.flash.bondBad.contains (n.val, 146 * k.val + l.val) then none else some (n.val, 146 * k.val + l.val)
    | _ => none
  let more := found.filterMap fun f => match f with
    | .tile p => if s.flash.tileBad.contains p.val then none else some p.val
    | _ => none
  let s := s.each (tilesFromRows rows (s.flash.tileBad ++ more)) fun s p =>
    s.ledger (s.tileRepair p 1) fun x => { x with tileBad := x.tileBad ++ [p] }
  let s := { s with flash := { s.flash with ledger := s.flash.ledger.map ledgerApplied } }
  let bad := s.flash.tileBad ++ more ++ tilesFromRows rows (s.flash.tileBad ++ more)
  let m := bad.foldl TileMap.fail (factoryMap s.flash.factoryBad)
  let had := s.reg Reg.styCfgIdTiles
  let s := s.showMap m rows
  let s := { s with fb := { s.fb with tilesOut := m.fenced } }
  let s := s.endCondition fcTileFailed fun r => !m.fenced.contains (r.unit.toNat % 32)
  let s := match m.lost with
    | some p => if had = 16 then s.raise (mkReport fcTileLost 1 (tileUnit p 0 127)) else s
    | none => s
  let s := s.each m.fenced fun s p => s.raise (mkReport fcTileLost 2 (tileUnit p 0 127) 0 true)
  let s := s.each (List.range 18) fun s n => s.showBond bonds n
  (s.setReg Reg.fbLedgerPending 0).setReg Reg.fbLedgerEntries (min ledgerSize s.flash.findings)

/-- Window slices 0 to 15 (R28): the lowest-numbered slices whose bond lanes pass, then the others. The manual says neither
what passing means nor which slices serve when fewer than 16 pass. DESIGN CHOICE, assumption 25: a slice fails if this
start's self-test finds a lane of it faulty, even one that a spare repairs, or if a faulty lane of it is left without a
spare; lanes repaired at an earlier start pass; the slices that fail come after the others, the lowest-numbered first. -/
def State.assignWindow (s : State) (found : List Finding) : State :=
  let fails := fun n => found.any fun f => match f with
    | .bondLane k _ _ => k.val == n
    | _ => false
  let bad := fun n => fails n || s.reg (Reg.fbLoftUnrepaired.ix n) != 0
  let l := ((List.range 18).filter fun n => !bad n) ++ (List.range 18).filter bad
  { s with fd := { s.fd with slices := l.take 16 } }

/-! ### Starts of the companion die (R484, R485, R478) -/

/-- The Study begins anew: sessions, nonces and updates are gone (16_study.md R526). -/
def State.studyFresh (s : State) : State :=
  { s with sty := { tail := s.sty.tail, logSeq := s.sty.logSeq, scans := s.sty.scans, hbSeq := s.sty.hbSeq, hbLast := s.now,
                    portOut := s.sty.portOut, set_ := s.sty.set_ }
           rst := { s.rst with strBusy := false, afterPcr := false, afterMdr := false } }

/-- The blocks of the companion die (22_register_index.md R649). -/
def aonBlock (off : Nat) : Bool :=
  [0x0, 0x1, 0x2, 0x3, 0x4, 0x18, 0x19].contains (off / 0x1000)

/-- The Study and the Porch start from flash: at POR (1), WRM (2) and a wake from S3 (10). The Study, started afresh, reports
no synchronisation yet (R492: STY_MODE as WRM; 16_study.md R531). -/
def State.companionStart (s : State) (kind : Nat) : State :=
  let s := { s with tick := { s.tick with vtSync := false, vtError := 0 } }
  let s := s.studyFresh.settingsStart (kind != 10)
  let mute := s.flag Reg.porCtrlMute
  let timer := s.reg Reg.pwrWakeTimerSeconds
  let s := s.resetRegs (if kind = 1 then .por else .wrm) (if kind = 10 then aonBlock else fun _ => true)
  let s := if kind = 10 then (s.setFlag Reg.porCtrlMute mute).setReg Reg.pwrWakeTimerSeconds timer else s
  (s.runSet.showGens.porchStart).capsAgain

/-! ### The main die starts -/

/-- What the main die's memory holds after a start of a kind (R488 to R490, R474, R478). -/
def State.startMemory (s : State) (kind : Nat) : State :=
  let loft := (List.range 18)
  let cellar := [18, 19, 20, 21]
  let all := fun (s : State) => (((s.loseSpaces (loft ++ cellar)).unhomeAll).zeroWindow)
  let lost := if kind = 9 then s.pwr.loftLost else s.rst.loftLost
  if kind = 4 || kind = 9 then
    if lost then (all s).raise (mkReport fcLoftRetentionLost 1)
    else if kind = 4 then
      if s.rst.ordered then s.restoreDeed fun _ => false
      else (s.loseSpaces cellar).restoreDeed fun h => 18 ≤ h
    else
      let gone := fun n => n < 18 && !(s.reg Reg.pwrRetainSlices).testBit n && n != s.shadowSlice
      let s := (s.loseSpaces cellar).restoreDeed fun h => 18 ≤ h || gone h
      let s := s.endMemRecords (loft.filter gone)
      (s.each (loft.filter gone) fun s n => s.loseBytes n 0 0x7C000000).zeroSlices gone
  else all s

/-- The fields of the main die's registers, and of the set-up lock, after a start of a kind (R491 to R493). -/
def State.startRegs (s : State) (kind : Nat) : State :=
  if kind = 4 then s.resetRegs .mdr
  else if kind = 9 || kind = 10 then
    s.resetRegs .mdr fun o => !aonBlock o || o == Reg.rstLockLocked.off
  else s.reloadGen fun o => !aonBlock o

/-- A switch that a reset interrupted is completed (17_security.md R555). -/
def State.finishSwitch (s : State) : State :=
  match s.sec.tsr with
  | none => s
  | some j =>
    let s := if j.advanced then s else
      let e := s.epoch + 1
      (s.setReg Reg.deedStateEpoch e).setReg Reg.secLinkKeyEpoch e
    let s := { s with sec := { s.sec with tsr := none, retiredPorts := [] }, pw := { s.pw with used := [] }
                      fd := { s.fd with scrub := j.rows } }
    let s := (s.setFlag Reg.secStatusTsrByReset true).setFlag Reg.secStatusTsrBusy false
    s.setReg Reg.secStatusTsrPhase 0

/-- A Fusebox notice that stood while the main die was down (19_fusebox.md R597). -/
def State.noticeAgain (s : State) : State :=
  if s.fb.recs.any fun e => !e.2.acked && s.reg Reg.fbCtrlAttnLevel ≤ e.2.level then s.setReg Reg.rgAttnStatusFault 1 else s

/-- Fitted channels with a wrong capacity or rate code (08_memory_tiers.md R660). -/
def State.celNotes (s : State) : State :=
  s.each ((maskBits 4 (s.reg Reg.celCtrlFitted)).filter fun c => !s.celFitted c) fun s c => s.note fcCelConfig c

/-- The selected source is armed (02_the_tick.md R50, R56): with source 3, boundaries are in holdover until synchronisation
has been reported, which one note says. What SOURCE_STATE shows with sources 1 and 2 before their first boundary is open.
Whether source 3 armed while the Study already reports synchronisation starts in holdover, R56 does not say: DESIGN CHOICE,
assumption 26, it is locked at once and its first boundary is the next instant of R54. -/
def State.arm (s : State) : State :=
  let src := s.reg Reg.tkCtrlSource
  let (k, s) := s.fresh
  let wait := src = 3 && !s.tick.vtSync
  let st := if src = 0 then 0 else if src = 3 then (if wait then 2 else 0) else Config.freeNat k % 2
  let s := { s with tick := { s.tick with armedAt := some s.now, vtError := 0, sourceState := st } }
  if wait then s.note fcTickSource else s

/-- The tick after a start: the number stands; an enabled source is armed from the start on (02_the_tick.md R48 to R50).
What the record of the tick that the start interrupted shows, the manual leaves open (02_the_tick.md R51). DESIGN CHOICE,
assumption 26: VT_STAMP 0, PERIOD_MEAS and BG_US counted from the start, OVERRUN, CARRIED, EARLY and URG_LIMIT clear. -/
def State.tickStart (s : State) (gap : Bool) : State :=
  let s := { s with tick := { number := s.tick.number, l2 := s.tick.l2, lastBoundary := s.now,
                              gapNext := gap || s.tick.gapNext, vtSync := s.tick.vtSync, vtBase := s.tick.vtBase,
                              bgStart := some s.now, logSkipping := s.tick.logSkipping } }
  if s.flag Reg.tkCtrlEnable then s.arm else s

/-- The main die starts; `found` is what its self-test and lane training find. -/
def State.startMain (s : State) (found : List Finding) : State :=
  let kind := s.rst.startKind
  let count := match s.rst.mdr with
    | some j => j.countStart
    | none => true
  let after := s.rst.mdr.map fun j => (j.after, j.source)
  let ordered := s.rst.ordered
  -- the first boundary after S2 or S3 shows GAP, however the device leaves them (02_the_tick.md R49)
  let slept := s.pwr.state == .s2 || s.pwr.state == .s3
  let s := if kind = 10 then s.companionStart 10 else if kind = 4 then s.settingsStart count else s
  let s := ((s.startMemory kind).startRegs kind).galJudged
  let s := if kind = 4 then s.showGens.capsAgain.clockStates.swapShow else s
  let s := if s.genSlot.isNone then s.enterFloor 5 else s
  let s := s.applyLedger found
  let s := if kind ≤ 2 then s.assignWindow found else s
  let s := { s with
    fd := { s.fd with chans := Vector.replicate 4 {}, spill := [] }
    pins := { s.pins with fdReady := true }
    rst := { s.rst with starting := false, ordered := false, loftLost := false, mdr := none
                        cellarWait := !s.celChannels.isEmpty }
    pwr := { s.pwr with state := .s0, waking := none, loftLost := false, idleSince := some s.now } }
  let s := s.finishSwitch
  let s := s.setFlag Reg.secStatusMemKeys true
  let s := (s.startLevel (if 9 ≤ kind then s.pwr.sleepLevel else s.reg Reg.pwrCtrlStartLevel)).tickStart slept
  let (k, s) := s.fresh
  let s := s.setReg Reg.rstBootStartMs (Config.freeNat k % 26)
  let s := s.setReg Reg.rstBootPhase (if s.safeFloor then 7 else if s.rst.cellarWait then 6 else 0)
  let s := if 9 ≤ kind then s.cause kind 0 else s
  -- a stop that took effect during an ordered MDR holds after it (19_fusebox.md R603)
  let s := { s with rg := { s.rg with closed := s.hasStop } }
  let s := (s.setFlag Reg.fbStatusStopped s.hasStop).celNotes.noticeAgain
  let s := s.switchProfile false
  match after with
  | some (.pcr, src) => if ordered || kind = 4 then s.pcr src else s
  | _ => s

/-- The main die can start now; not while an L4 record is uncleared, but for an ordered MDR already under way (R600, R603). -/
def State.mayStart (s : State) : Bool :=
  s.rst.starting && s.pwr.aonGood && s.pwr.mainGood && s.pwr.loftGood && s.pwr.refMain && !s.rst.resetLow && !s.rst.mdrHeld
    && !s.pwr.tripped && (!s.hasStop || s.rst.ordered)

/-- The main die starts if it can: before any tile leaves reset, the voltage of START_LEVEL is written and its completion
waited for (14_power.md R450). -/
def State.tryStart (s : State) (found : List Finding) : State :=
  if s.mayStart && s.pwr.startAvs.isNone then
    ({ s with pwr := { s.pwr with startAvs := some found } }).setFlag Reg.pwrStatusAvsBusy true
  else s

/-- AVS_COMPLETE: the regulator reports that the voltage last written is reached (14_power.md R450, R462). -/
def State.avsDone (s : State) : State :=
  match s.pwr.startAvs with
  | some found =>
    let s := ({ s with pwr := { s.pwr with startAvs := none, coreSet := true } }).setFlag Reg.pwrStatusAvsBusy false
    if s.mayStart then s.startMain found else s
  | none => s.avsReached

/-- GROUP_GOOD (R449). -/
def State.groupUp (s : State) (g : Group) (found : List Finding) : State :=
  match g with
  | .main =>
    if s.pins.pwrEnMain then ({ s with pwr := { s.pwr with mainGood := true } }).tryStart found else s
  | .loft =>
    if s.pins.pwrEnLoft then ({ s with pwr := { s.pwr with loftGood := true } }).tryStart found else s

/-- MDR_GRACE_EXPIRY: an ordered MDR's records are written and its grace time has passed (R486). -/
def State.mdrGo (s : State) (found : List Finding) : State :=
  match s.rst.mdr with
  | none => s
  | some j =>
    if !s.mainUp || !s.quiet || !s.paid || s.now < j.t0 + ms (s.reg Reg.pwrCtrlGraceMs) then s
    else (((s.saveAll.mainDown).pendStart 4 true false).mdrCause j.source).tryStart found

/-! ### Loss of supplies, clocks and temperature limits -/

/-- The companion group is lost: everything but fuses and flash (R454). -/
def State.powerLost (s : State) : State :=
  { pending := s.pending, now := s.now, free := s.free, readData := s.readData, fuses := s.fuses, flash := s.flash
    regs := s.regs
    pins := { pwrEnMain := false, pwrEnLoft := false, fdReady := false, battWarnN := s.pins.battWarnN, wakeIn := s.pins.wakeIn,
              resetN := s.pins.resetN }
    pwr := { state := .s4, mainGood := false, loftGood := false, aonGood := false, refMain := s.pwr.refMain, refAon := s.pwr.refAon,
             coreSet := false, idleSince := none }
    rst := { resetLow := s.rst.resetLow }
    sty := { up := false, logSeq := s.sty.logSeq, portOut := s.sty.portOut }
    sec := { attHigh := s.sec.attHigh, idHigh := s.sec.idHigh, startHigh := s.sec.startHigh, certIndex := s.sec.certIndex }
    pw := { ports := s.pw.ports.map fun e => (e.1, { e.2 with peerPc := 0 }), out := s.pw.out } }

/-- SUPPLY_RESET_THRESHOLD (R454, R474). -/
def State.supplyReset (s : State) (rail : Nat) : State :=
  if !s.railOn rail then s
  else match railGroup rail with
    | 0 =>
      (s.hardMdr 1 false).mainPowerOff
    | 1 =>
      let asleep := s.pwr.state == .s2 && !s.mainUp
      let s := if asleep then { s with pwr := { s.pwr with loftLost := true } } else s.hardMdr 2 true
      { s with pwr := { s.pwr with loftGood := false } }
    | _ => s.powerLost

/-- REFCLK_MAIN is lost (R460): the main die is held in MDR. -/
def State.mainClockLost (s : State) : State :=
  if !s.pwr.aonGood || !s.pwr.refMain then s
  else
    let s := s.raiseAon (mkReport fcClockLost 2 0 0 true)
    let s := { s with pwr := { s.pwr with refMain := false } }
    let held := s.mainUp || s.rst.starting
    let s := s.hardMdr 4 false
    { s with rst := { s.rst with mdrHeld := held } }

/-- REFCLK_AON is lost (R460). -/
def State.aonClockLost (s : State) : State :=
  if !s.pwr.aonGood || !s.pwr.refAon then s
  else ({ s with pwr := { s.pwr with refAon := false } }).raiseAon (mkReport fcClockAon 1 0 0 true)

/-- CLOCK_RETURN (R460). -/
def State.clockBack (s : State) (main : Bool) (found : List Finding) : State :=
  if main then
    let s := s.endCondition fcClockLost fun _ => true
    ({ s with pwr := { s.pwr with refMain := true }, rst := { s.rst with mdrHeld := false } }).tryStart found
  else ({ s with pwr := { s.pwr with refAon := true } }).endCondition fcClockAon fun _ => true

/-- THERMAL_TRIP (R467). -/
def State.trip (s : State) (i : Nat) (t : Int) : State :=
  if !s.pwr.aonGood || s.pwr.state == .s3 || t < 130 then s
  else
    let s := (s.putTemp i t).raiseAon (mkReport fcThermalTrip 3 i 0 true)
    let s := (if s.mainUp then s.loseBuffers.mainDown else s).mainPowerOff
    let s := { s with pwr := { s.pwr with tripped := true, loftGood := false, waking := none, loftLost := true }
                      pins := { s.pins with pwrEnMain := false, pwrEnLoft := false, fdReady := false } }
    s.pendStart 4 false true

/-- TRIP_RESTART (R468). -/
def State.tripOver (s : State) : State :=
  if !s.pwr.tripped || s.hasStop || s.anyHot 105 || s.rst.resetLow then s
  else
    let s := { s with pwr := { s.pwr with tripped := false }, pins := { s.pins with pwrEnMain := true, pwrEnLoft := true } }
    (s.pendStart 4 false true).mdrCause 5

/-! ### POR and WRM (R484, R485) -/

/-- The Strongroom reserves a new block for each signing key: retention SRAM is empty (17_security.md R561). A block whose
record cannot be written and read back stays unreserved (R560). -/
def State.reserveBlocks (s : State) : State :=
  let a := s.sec.attHigh + 1
  let i := s.sec.idHigh + 1
  let s := { s with sec := { s.sec with attBlock := a, idBlock := i } }
  let s := if s.flash.recordOk then { s with sec := { s.sec with attHigh := a, idHigh := i } } else s
  let s := (s.setReg Reg.secAttIdxLoIndexLo (1024 * a)).setReg Reg.secAttIdxHiIndexHi (1024 * a >>> 32)
  let s := s.setReg Reg.secIdIdxIndex (1024 * i)
  ((s.bump Reg.secSkippedAtt).log 1 1 a).bump Reg.secSkippedId |>.log 1 1 i

/-- The link start count advances, and SEC_LINK_START shows it. A record that cannot be written and read back gives no new
count: no port trains until the next POR (17_security.md R549). -/
def State.advancePc (s : State) : State :=
  let pc := s.sec.startHigh + 1
  if s.flash.recordOk then
    ({ s with sec := { s.sec with startHigh := pc, startOk := true } }).setReg Reg.secLinkStartStart pc
  else ({ s with sec := { s.sec with startOk := false } }).noteAon fcPwConfig

/-- POR: the companion group becomes good and the whole device starts; time is counted from here. -/
def State.porNow (s : State) : State :=
  let dip := !s.pwr.aonGood && s.pwr.state == .s4
  let s := { s.powerLost with now := 0 }
  let s := { s with pwr := { s.pwr with aonGood := true, state := .s0 } }
  let s := (s.companionStart 1).advancePc.reserveBlocks
  let s := { s with pins := { s.pins with pwrEnMain := true, pwrEnLoft := true } }
  (s.pendStart 1 false false).cause 1 (if dip then 3 else 0)

/-- RESET_N goes low (R485): both dies are held in reset; every record is acknowledged (19_fusebox.md R598). -/
def State.resetLow (s : State) : State :=
  if !s.pwr.aonGood || s.rst.resetLow then s
  else
    let s := if s.mainUp then s.loseBuffers.mainDown else s
    let s := { s with pins := { s.pins with resetN := false, fdReady := false }
                      rst := { resetLow := true, mdrHeld := s.rst.mdrHeld }
                      pwr := { s.pwr with entry := .none, sleepTicket := none, waking := none, wakePending := none,
                                          startAvs := none } }
    let s := { s with fb := { s.fb with collector := [], direct := [], test := none } }
    ({ s.studyFresh with sty := { s.studyFresh.sty with up := false } }).ackAll.clearRecords

/-- RESET_N is released (R485): the start-up runs from its second row. -/
def State.resetBack (s : State) (found : List Finding) : State :=
  if !s.rst.resetLow then s
  else
    let s := { s with pins := { s.pins with resetN := true }, rst := { s.rst with resetLow := false } }
    let slept := s.pwr.state == .s2 || s.pwr.state == .s3
    let s := { s with pwr := { s.pwr with state := .s0, loftLost := false }
                      tick := { s.tick with gapNext := s.tick.gapNext || slept } }
    let s := (s.companionStart 2).cause 2 0
    let s := if s.pwr.tripped then s else { s with pins := { s.pins with pwrEnMain := true, pwrEnLoft := true } }
    (s.pendStart 2 false false).tryStart found

/-! ### Sleep (14_power.md R471 to R478) -/

/-- S3 is reached: the Porch and the Study have stopped, the Loft group is off (R473). -/
def State.toS3 (s : State) : State :=
  let s := { s with pwr := { s.pwr with state := .s3, entry := .none, loftGood := false }
                    pins := { s.pins with pwrEnLoft := false }
                    sty := { s.studyFresh.sty with up := false } }
  let s := { s with por := { s.por with ring := [], beams := [], partials := [], chain := none, feed := none } }
  match s.pwr.wakePending with
  | some (src, seq) => s.wakeNow src seq true
  | none => s

/-- The Porch's change of a sleep entry has been applied (R471, R473): the entry goes on or ends. -/
def State.entryGo (s : State) : State :=
  match s.pwr.entry with
  | .porch toS3 =>
    if !s.por.changes.isEmpty then s
    else if toS3 then s.toS3
    else
      let s := { s with pwr := { s.pwr with entry := .none } }
      match s.pwr.wakePending with
      | some (src, seq) => s.wakeNow src seq true
      | none => s
  | _ => s

/-- The main group goes off into S2; the Porch changes to its SLEEP profile, and for S3 ends capture. -/
def State.sleepDown (s : State) (toS3 : Bool) : State :=
  let s := s.saveAll.mainDown.mainPowerOff
  let s := { s with pwr := { s.pwr with state := .s2, entry := .porch toS3, sleptAt := s.now, loftLost := false }
                    pins := { s.pins with pwrEnMain := false } }
  let s := s.switchProfile true
  (if toS3 then s.requestChange .enterS3 else s).entryGo

/-- SLEEP_GRACE_EXPIRY (R471). -/
def State.sleepGo (s : State) : State :=
  match s.pwr.entry with
  | .grace toS3 => if s.now < s.pwr.irrevAt + ms (s.reg Reg.pwrCtrlGraceMs) then s else s.sleepDown toS3
  | _ => s

/-- S3 from S2, after S3_AFTER_MIN minutes or by a message (R475). -/
def State.s3FromS2 (s : State) : State :=
  if s.pwr.state != .s2 || s.pwr.entry != .none || s.pwr.waking.isSome then s
  else
    let s := { s with pwr := { s.pwr with entry := .porch true } }
    (s.requestChange .enterS3).entryGo

/-- A main die that only an uncleared L4 record kept from starting starts once it clears (R600). -/
def State.startLate (s : State) : State := s.tryStart []

end Sys2Proof.Machine
end

