-- ==== Sys2Proof/Machine/Tenant.lean ====
section
/-! DEFINITION. The tenant switch: the host-kept rows, the scrub-pending marks of the window, and the phases of the switch
(03_front_door.md R106 to R109; 17_security.md R546, R548, R550 to R556). -/

namespace Sys2Proof.Machine

/-! ### Intervals of row numbers -/

/-- Intervals with `[lo, hi)` taken out. -/
def cutOut (l : List (Nat × Nat)) (i : Nat × Nat) : List (Nat × Nat) :=
  l.flatMap fun j => [(j.1, min j.2 i.1), (max j.1 i.2, j.2)].filter fun k => k.1 < k.2

/-- Rows of a list of intervals. -/
def rowCount (l : List (Nat × Nat)) : Nat := l.foldl (fun a i => a + (i.2 - i.1)) 0

/-- The first `n` rows of a list of intervals. -/
def firstRows : List (Nat × Nat) → Nat → List (Nat × Nat)
  | [], _ => []
  | _, 0 => []
  | (a, b) :: r, n + 1 => if b - a ≤ n + 1 then (a, b) :: firstRows r (n + 1 - (b - a)) else [(a, a + n + 1)]

/-- Aperture and doorbell rows, which are never scrubbed (R106). -/
def unscrubbed : List (Nat × Nat) :=
  [(0, 256), (8192, 8192 + 256)] ++ (List.range 4).map fun c => (rowId c 15 0, rowId c 15 0 + 1)

/-! ### Host-kept rows (R108, R109) -/

/-- The rows that entry `k` of FD_KEPT names. -/
def State.keptEntry (s : State) (k : Nat) : Nat × Nat :=
  let first := s.reg (Reg.fdKeptFirstRow.ix k)
  let base := rowId (s.reg (Reg.fdKeptCh.ix k)) (s.reg (Reg.fdKeptBank.ix k)) 0
  (base + first, base + min 8192 (first + s.reg (Reg.fdKeptRows.ix k)))

/-- The entry runs past the last row of its bank. -/
def State.keptLong (s : State) (k : Nat) : Bool := 8192 < s.reg (Reg.fdKeptFirstRow.ix k) + s.reg (Reg.fdKeptRows.ix k)

/-- The rows that the entries name, in entry order, each row once. -/
def State.keptNamed (s : State) : List (Nat × Nat) :=
  (List.range 4).foldl (fun l k => l ++ (l ++ unscrubbed).foldl cutOut ([s.keptEntry k].filter fun i => i.1 < i.2)) []

/-- Rows that a switch marks scrub-pending. -/
def State.marked (s : State) : List (Nat × Nat) :=
  (firstRows s.keptNamed 2048 ++ unscrubbed).foldl cutOut [(0, 64 * 8192)]

/-- Mark the window (R106): write-backs of marked rows are discarded, their open buffers are zeroed, and FD_KEPT_LIMIT is
noted where the entries name too much. -/
def State.markWindow (s : State) : State :=
  let rows := s.marked
  let hit := fun id => rows.any fun i => i.1 ≤ id && id < i.2
  let s := s.each ((List.range 4).filter s.keptLong) fun s _ => s.note fcFdKeptLimit
  let s := if 2048 < rowCount s.keptNamed then s.note fcFdKeptLimit else s
  let keep := fun (w : WriteBack) => !hit (rowId w.ch w.bank w.row)
  let s := s.each (List.range 4) fun s ch =>
    let c := s.chan ch
    let opn := c.open_.map fun e => if hit (rowId ch e.1 e.2.row) then (e.1, { e.2 with data := [], dirty := 0 }) else e
    s.setChan ch { c with queue := c.queue.filter keep, open_ := opn }
  { s with fd := { s.fd with scrub := rows, spill := s.fd.spill.filter keep } }

/-- The background scrub clears every remaining mark (R107): the homes of those rows become zero. -/
def State.scrubWindow (s : State) : State :=
  let s := s.each s.fd.scrub fun s i =>
    s.each ((List.range 64).filter fun b => i.1 < (b + 1) * 8192 && b * 8192 < i.2) fun s b =>
      let lo := max i.1 (b * 8192)
      let hi := min i.2 ((b + 1) * 8192)
      { s with mem := tclear s.mem (s.rowKey (b / 16) (b % 16) (lo - b * 8192)) ((hi - lo) * 2048) }
  { s with fd := { s.fd with scrub := [] } }

/-! ### The switch (R550 to R554) -/

/-- A switch is admitted. -/
def State.tsrBegin (s : State) (t : Ticket) : State :=
  let s := { s with sec := { s.sec with tsr := some { ticket := t, t0 := s.now, rows := s.marked } } }
  let s := (s.setFlag Reg.secStatusTsrBusy true).setReg Reg.secStatusTsrPhase 1
  s.markWindow.stopAll stTenantStopped

/-- A TENANT_SWITCH descriptor: refused for a wrong EXPECT_EPOCH or a spent epoch (R550). -/
def State.tsrAsked (s : State) (t : Ticket) (expect : Nat) : State :=
  if expect ≠ s.epoch then s.complete t stTsrRefused
  else if s.epoch = 0xFFFF then s.complete t stEpochExhausted
  else s.tsrBegin t

/-- What the power removal loses (R553), and what the next tenant finds (R554). -/
def State.tsrPowerOff (s : State) : State :=
  let s := s.loseSpaces ((List.range 16).map pantrySpace)
  let s := (s.setReg Reg.mmuRootLoRootLo (s.fieldReset Reg.mmuRootLoRootLo)).setReg Reg.mmuRootHiRootHi
    (s.fieldReset Reg.mmuRootHiRootHi)
  let s := { s with wk := { s.wk with tiles := [], emissions := [], batches := [] }
                    xlat := {}
                    pw := { s.pw with cache := [], refused := [], asked := [] } }
  (s.outsOff.setFlag Reg.secStatusMemKeys false).setReg Reg.secStatusTsrPhase 4

/-- Every list, move and zeroing has ended: jobs are discarded, rings disabled, the epoch advances, and the SRAMs lose their
power. -/
def State.tsrAdvance (s : State) (j : TsrJob) : State :=
  let s := s.each ((List.range 16).filter fun i => s.jobState i != 0) fun s i => (s.breakJob i).jobClosed i
  let s := s.disableRings.discardSubmissions
  let s := { s with rg := { s.rg with owed := [] } }
  let e := s.epoch + 1
  let s := (s.setReg Reg.deedStateEpoch e).setReg Reg.secLinkKeyEpoch e
  let s := { s with sec := { s.sec with tsr := some { j with advanced := true }, retiredPorts := [] }
                    pw := { s.pw with used := [], early := [] } }
  -- DEED_RESULT is undefined until the next query (15_resets_and_retention.md R492)
  let (k, s) := s.fresh
  let (l, s) := s.fresh
  let s := (s.setReg Reg.deedResultLoEntryLo (Config.freeNat k)).setReg Reg.deedResultHiEntryHi (Config.freeNat l)
  s.tsrPowerOff.porchSwitch

/-- Moves and zeroings in flight, on this device and across the links. -/
def State.movesOver (s : State) : Bool :=
  s.deed.moves.isEmpty && s.deed.zeroJobs.isEmpty && s.pw.incoming.isEmpty && s.wk.places.all fun p => p.over

/-- The switch goes on as soon as what it waits for has ended. -/
def State.tsrGo (s : State) : State :=
  match s.sec.tsr with
  | some j => if j.advanced || !s.quiet then s else if s.movesOver then s.tsrAdvance j else s.setReg Reg.secStatusTsrPhase 2
  | none => s

/-- WINDOW_SCRUB: the scrub runs once the switch has restarted the SRAMs. -/
def State.windowScrub (s : State) : State :=
  if !s.mainUp then s
  else match s.sec.tsr with
    | some j =>
      if j.advanced then (s.scrubWindow.setFlag Reg.secStatusMemKeys true).setReg Reg.secStatusTsrPhase 6 else s
    | none => s.scrubWindow

/-- TENANT_SWITCH_COMPLETE: the record with the new epoch. -/
def State.tsrEnd (s : State) : State :=
  match s.sec.tsr with
  | none => s
  | some j =>
    if !s.mainUp || !j.advanced || !s.fd.scrub.isEmpty then s
    else
      let s := { s with sec := { s.sec with tsr := none }, rg := { s.rg with closed := false } }
      let s := (s.setFlag Reg.secStatusTsrBusy false).setReg Reg.secStatusTsrPhase 0
      let s := (s.setFlag Reg.secStatusTsrByReset false).setFlag Reg.secStatusMemKeys true
      (s.cause 7 15).complete j.ticket stOk (BitVec.ofNat 32 s.epoch)

end Sys2Proof.Machine
end

