-- ==== Sys2Proof/Machine/Edits.lean ====
section
/-! DEFINITION. Descriptors that edit tables: SEQUENCE (09_attention_and_kv.md R309 to R313), STREAM_AWAY and STREAM_HOME
(10_state_streams.md R351 to R355), and INVALIDATE (08_memory_tiers.md R290 to R293). -/

namespace Sys2Proof.Machine

/-! ### SEQUENCE -/

/-- A SET image keeps to R311 and R312. -/
def seqImageOk (x : Nat) : Bool :=
  let e := seqEntry x
  bitsAt x 2 2 == 0 && bitsAt x 14 2 == 0 && bitsAt x 22 2 == 0 && bitsAt x 181 11 == 0 && bitsAt x 240 16 == 0
    && kvFormats.contains e.kf && kvFormats.contains e.vf && bitsAt x 12 2 != 3
    && e.kv % 65536 == 0 && e.maxLen % 64 == 0 && 64 ≤ e.maxLen && e.maxLen ≤ 1048576
    && (!e.scales || (e.scale != 0 && e.scale % 64 == 0 && e.scale + e.layers * e.scaleSl ≤ 2 ^ 48))
    && (e.ring || e.length ≤ e.maxLen) && e.kv + e.size ≤ 2 ^ 48

/-- GEN grows by one. -/
def seqGen (old x : Nat) : Nat := putBits x 224 16 (bitsAt old 224 16 + 1)

/-- What an action makes of an entry; none: it is rejected (R312). -/
def seqAction (ops old image : Nat) : Option Nat :=
  let e := seqEntry old
  let value := bitsAt ops 112 32
  match bitsAt ops 16 3 with
  | 0 => if seqImageOk image then some (seqGen old image) else none
  | 1 => some (seqGen old (putBits old 0 1 0))
  | 2 => if e.valid && !e.ring && value ≤ e.length then some (seqGen old (putBits old 128 32 value)) else none
  | _ => if e.valid then some (seqGen old (putBits old 192 32 value)) else none

/-- Apply an edit: the status and DETAIL of its record. -/
def seqEdit (ops : Nat) : Acc (Byte × BitVec 32) := do
  let n := bitsAt ops 0 16
  let s ← get
  let old ← rdNat whoBridge (s.seqDva n) 32
  let image ← if bitsAt ops 16 3 = 0 then rdNat whoBridge (bitsAt ops 64 48) 32 else pure 0
  match seqAction ops old image with
  | none => return (stSeqRejected, BitVec.ofNat 32 n)
  | some x =>
    let _ ← wr whoBridge (s.seqDva n) (toBytes 32 x)
    return (stOk, 0)

/-- An ATTENTION step runs on the entry (R313). -/
def State.seqRuns (s : State) (n : Nat) : Bool := s.att.runs.any fun r => r.items.any fun i => i.seq == n

/-- Apply the waiting edits of an entry in admission order, as far as they can be; `fuel` bounds them. -/
def State.seqApply (s : State) (n : Nat) : Nat → State
  | 0 => s
  | fuel + 1 =>
    match s.wk.seqJobs.find? fun j => bitsAt j.2.toNat 0 16 == n with
    | none => s
    | some j =>
      if s.seqRuns n then s
      else
        let (s, r) := runAcc s (seqEdit j.2.toNat)
        let done := fun (st : Byte) (d : BitVec 32) =>
          (({ s with wk := { s.wk with seqJobs := s.wk.seqJobs.erase j } }).complete j.1 st d).seqApply n fuel
        match r with
        | .ok x => done x.1 x.2
        | .error (.status st d) => done st d
        | .error (.blocked _ _) => s

/-- Apply what can be applied on an entry. -/
def State.seqGo (s : State) (n : Nat) : State := s.seqApply n s.wk.seqJobs.length

/-! ### STREAM_AWAY and STREAM_HOME -/

/-- A SET image keeps to R340 and R353. -/
def streamImageOk (x : Nat) : Bool :=
  let e := streamEntry x
  bitsAt x 19 13 == 0 && bitsAt x 168 8 == 0 && bitsAt x 224 32 == 0 && 4 ≤ e.chunk && e.chunk ≤ 12
    && (e.mode == 0 || (e.nc == 0 && !e.bc)) && e.state != 0 && e.state % 64 == 0 && e.init % 64 == 0

/-- GEN grows by one. -/
def streamGen (old x : Nat) : Nat := putBits x 176 16 (bitsAt old 176 16 + 1)

/-- What a STREAM_AWAY makes of an entry (R351, R353). -/
def awayAction (ops old tick : Nat) : Option Nat :=
  let e := streamEntry old
  if !e.valid then none
  else if e.away then some (streamGen old old)
  else
    let x := putBits (putBits old 3 1 1) 192 32 tick
    some (streamGen old (if bitAt ops 16 then putBits x 0 1 0 else x))

/-- What a STREAM_HOME makes of an entry (R352, R353). -/
def homeAction (ops old image : Nat) : Option Nat :=
  let dva := bitsAt ops 64 48
  if dva % 64 ≠ 0 then none
  else if bitAt ops 16 then
    if streamImageOk image then some (streamGen old (putBits (putBits image 3 1 0) 192 32 (bitsAt old 192 32))) else none
  else if !(streamEntry old).valid then none
  else
    let x := putBits old 3 1 0
    some (streamGen old (if dva = 0 then x else putBits x 32 48 dva))

/-- Apply an edit (0: STREAM_AWAY; 1: STREAM_HOME). -/
def streamEdit (kind ops : Nat) : Acc (Byte × BitVec 32) := do
  let n := bitsAt ops 0 14
  let s ← get
  let old ← rdNat whoBridge (s.strmDva n) 32
  let image ← if kind = 1 && bitAt ops 16 then rdNat whoBridge (bitsAt ops 128 48) 32 else pure 0
  match if kind = 0 then awayAction ops old s.tick.number.toNat else homeAction ops old image with
  | none => return (stStreamRejected, 0)
  | some x =>
    let _ ← wr whoBridge (s.strmDva n) (toBytes 32 x)
    return (stOk, if kind = 0 then BitVec.ofNat 32 (streamEntry x).next else 0)

/-- Apply the waiting edits of a stream in admission order, as far as they can be. -/
def State.strmApply (s : State) (n : Nat) : Nat → State
  | 0 => s
  | fuel + 1 =>
    match s.wk.strmJobs.find? fun j => bitsAt j.2.2.toNat 0 14 == n with
    | none => s
    | some j =>
      if s.chunkRuns n then s
      else
        let (s, r) := runAcc s (streamEdit j.2.1 j.2.2.toNat)
        let done := fun (st : Byte) (d : BitVec 32) =>
          let s := ({ s with wk := { s.wk with strmJobs := s.wk.strmJobs.erase j } }).complete j.1 st d
          (if st == stOk then s.streamChanged n else s).strmApply n fuel
        match r with
        | .ok x => done x.1 x.2
        | .error (.status st d) => done st d
        | .error (.blocked _ _) => s

/-- Apply what can be applied on a stream. -/
def State.strmGo (s : State) (n : Nat) : State := s.strmApply n s.wk.strmJobs.length

/-! ### INVALIDATE -/

/-- A cached entry overlaps the range. -/
def XlatEntry.hit (x : XlatEntry) (j : InvalJob) : Bool :=
  let n := if x.block then 8192 else 1
  j.all_ || (x.page < j.lo + j.pages && j.lo < x.page + n)

/-- A DVA lies in the range. -/
def InvalJob.covers (j : InvalJob) (dva : Nat) : Bool :=
  j.all_ || (j.lo ≤ dva / 65536 && dva / 65536 < j.lo + j.pages)

/-- The share has an access in the range under way: its next work item is held there, or reads of it are outstanding. -/
def TileRun.accesses (r : TileRun) (j : InvalJob) : Bool :=
  (r.busy || r.spilled) && ((r.held.any fun h => j.covers h.1)
    || (0 < r.reads && r.pages.any fun p => j.covers (p.1 * 65536)))

/-- Shares that have an access in the range under way. -/
def State.accessing (s : State) (j : InvalJob) : List (Nat × Nat) :=
  s.wk.works.flatMap fun w => (w.tiles.filter fun r => r.accesses j).map fun r => (r.tile, w.id)

/-- An INVALIDATE is admitted: the entries drop from every cache. -/
def State.invalBegin (s : State) (t : Ticket) (ops : Nat) : State :=
  let j : InvalJob := { ticket := t, lo := bitsAt ops 0 48 / 65536, pages := bitsAt ops 48 32, all_ := bitAt ops 80 }
  let j := { j with waits := s.accessing j }
  let caches := s.xlat.caches.map fun e => (e.1, e.2.filter fun x => !x.hit j)
  { s with xlat := { s.xlat with caches := caches.filter fun e => !e.2.isEmpty }
           wk := { s.wk with invals := s.wk.invals ++ [j] } }

/-- No access that an older mapping translated is outstanding (R292): shares' reads, walks and held work items, reads of
discarded shares, writes held for a page, writes on their way to another device. -/
def State.invalClear (s : State) (j : InvalJob) : Bool :=
  let now := s.accessing j
  (j.waits.all fun x => !now.contains x)
    && !((List.range 16).any fun t => (s.tileSt t).orphans.any fun o => o.pages.any fun p => j.covers (p.1 * 65536))
    && !(s.deed.held.any fun h => j.covers h.dva) && !(s.pw.reqs.any fun q => q.write && j.covers q.dva)

/-- The oldest INVALIDATE completes once nothing in its range is outstanding. -/
def State.invalEnd (s : State) : State :=
  match s.wk.invals with
  | [] => s
  | j :: r => if s.invalClear j then ({ s with wk := { s.wk with invals := r } }).complete j.ticket stOk else s

end Sys2Proof.Machine
end

