-- ==== Sys2Proof/Machine/Fusebox.lean ====
section
/-! DEFINITION. Rotating tile tests and the repair of bond lanes in service (19_fusebox.md R606 to R614). -/

namespace Sys2Proof.Machine

/-! ### Rotating tests (R606 to R609) -/

/-- The P-tile is not retired: it holds a logical tile, or is a spare that has not failed. -/
def State.unretired (s : State) (p : Nat) : Bool :=
  (s.logicalOf p).isSome || !(s.flash.factoryBad.contains p || s.flash.tileBad.contains p)

/-- The first P-tile from `p` on, wrapping, that is not retired. -/
def State.testFrom (s : State) (p : Nat) : Option Nat :=
  ((List.range 18).map fun i => (p + i) % 18).find? s.unretired

/-- No background work stands in the way of a test of the P-tile: it is in no wing of BG_WT, or that wing has no admitted
Background work. -/
def State.testFree (s : State) (p : Nat) : Bool :=
  match s.logicalOf p with
  | none => true
  | some t => (List.range 4).all fun w =>
      !(s.bgWing w).contains t || !(s.wk.works.any fun x => x.cls == .background && x.wing == w)

/-- A test starts with the background phase, if its mode lets it. -/
def State.testBegin (s : State) : State :=
  let mode := s.reg Reg.fbCtrlTestMode
  match s.testFrom (s.reg Reg.fbTestNext) with
  | none => s
  | some p =>
    if mode = 0 || s.fb.test.isSome || !s.computeUp then s
    else if s.testFree p || (mode = 2 && s.reg Reg.fbCtrlForceTicks ≤ s.reg Reg.fbTestSince) then
      { s.setReg Reg.fbTestNext p with fb := { s.fb with test := some { ptile := p } } }
    else s

/-- A test is abandoned with no verdict (R608). -/
def State.testDrop (s : State) : State := { s with fb := { s.fb with test := none } }

/-- ROTATING_TEST_COMPLETE: the test is counted, the next tile and Pantry bank come in turn, and what it condemns is
fenced. -/
def State.testEnd (s : State) (v : Verdict) : State :=
  match s.fb.test with
  | none => s
  | some x =>
    let s := { s with fb := { s.fb with test := none, bank := (s.fb.bank + 1) % 48 } }
    let s := (s.bump Reg.fbTestDone).setReg Reg.fbTestSince 0
    let s := match v with
      | .pass => s
      | .laneRow b r => s.laneRowFailed x.ptile b r 2
      | .tile => s.tileFailed x.ptile 0 2
    s.setReg Reg.fbTestNext ((s.testFrom ((x.ptile + 1) % 18)).getD 0)

/-! ### Bond lanes (R612 to R614) -/

/-- Faulty lanes of a sub-channel, in the ledger or waiting for their replacement. -/
def State.badLanes (s : State) (n k : Nat) : Nat := lanesOf (s.flash.bondBad ++ s.fb.bondBad) n k

/-- BOND_LANE_FAULT: a lane becomes faulty in service. With a spare left it waits for the next background phase; the next
stays in service; one more withdraws the slice. -/
def State.laneFault (s : State) (n k l : Nat) : State :=
  let e := (n, 146 * k + l)
  if !s.mainUp || s.flash.bondBad.contains e || s.fb.bondBad.contains e then s
  else
    let c := s.badLanes n k
    if c < 2 then { s with fb := { s.fb with bondBad := s.fb.bondBad ++ [e] } }
    else
      let s := s.ledger (bondRepair e 4 false) fun f => { f with bondBad := f.bondBad ++ [e] }
      let s := s.setReg (Reg.fbLoftUnrepaired.ix n) (s.reg (Reg.fbLoftUnrepaired.ix n) ||| 1 <<< k)
      if c = 2 then s.raise (mkReport fcLoftLane 1 (bondUnit n k l) 0 true)
      else (s.setFlag (Reg.fbLoftWithdrawn.ix n) true).raise (mkReport fcLoftSlice 2 (bondUnit n k l) 0 true)

/-- A faulty lane is replaced by a spare of its sub-channel: writes to its slice are held while it is switched. -/
def State.replaceLane (s : State) (e : Nat × Nat) : State :=
  let (n, k, l) := (e.1, e.2 / 146, e.2 % 146)
  let used := bitsAt (s.reg (Reg.fbLoftSparesUsed.ix n)) (2 * k) 2
  let s := s.setReg (Reg.fbLoftSparesUsed.ix n) (putBits (s.reg (Reg.fbLoftSparesUsed.ix n)) (2 * k) 2 (min 2 (used + 1)))
  let s := s.ledger (bondRepair e 4 true) fun f => { f with bondBad := f.bondBad ++ [e] }
  { s with fb := { s.fb with bondHold := sins s.fb.bondHold n } }.note fcLoftLane (bondUnit n k l)

/-- Lanes that wait are replaced at the start of a background phase. -/
def State.replaceLanes (s : State) : State :=
  let l := s.fb.bondBad.filter fun e => !s.flash.bondBad.contains e
  ({ s with fb := { s.fb with bondBad := [] } }).each l State.replaceLane

/-- The hold of R613 ends 20 µs after the background phase began, or with it. -/
def State.holdOver (s : State) : State :=
  if s.fb.bondHold.isEmpty then s
  else match s.tick.bgStart with
    | some t => if s.now < t + us 20 then s else { s with fb := { s.fb with bondHold := [] } }
    | none => { s with fb := { s.fb with bondHold := [] } }

end Sys2Proof.Machine
end

