-- ==== Sys2Proof/Machine/Tick.lean ====
section
/-! DEFINITION. The tick: its sources, what a boundary does, budgets, the background phase, the tick table and the settling
of a settings trial (02_the_tick.md R41 to R75; 15_resets_and_retention.md R498). -/

namespace Sys2Proof.Machine

/-! ### The tick table (R57 to R61) -/

/-- The current entry of the tick table; none: no table is loaded. -/
def State.tickEntry (s : State) : Option Nat :=
  if s.tick.table.isEmpty then none else some (lget s.tick.table (s.reg Reg.tkStatusCursor) 0).toNat

/-- Overrun policy of a wing. -/
def State.policyOf (s : State) (w : Nat) : Nat :=
  match s.tickEntry with
  | some e => bitsAt e (8 + 2 * w) 2
  | none => 0

/-- Budget of a wing in units of 16 µs; 0: to the next boundary. -/
def State.budgetOf (s : State) (w : Nat) : Nat :=
  match s.tickEntry with
  | some e => bitsAt e (32 + 16 * w) 16
  | none => 0

/-- An entry that R60 accepts. -/
def tickEntryOk (e : Nat) : Bool :=
  bitsAt e 16 16 == 0 && bitsAt e 128 128 == 0 && (List.range 4).all fun w => bitsAt e (8 + 2 * w) 2 != 3

/-- The tick-table switches that are due take place (R58 to R60): true if a new table is in force. R58 lets the device read
the table at any time in tick M − 1: DESIGN CHOICE, assumption 26, all of it is read at the boundary that begins tick M. -/
def State.tableSwitch (s : State) : State × Bool :=
  let due := s.tick.switches.filter fun j => j.target.toNat ≤ s.tick.number.toNat
  let s := { s with tick := { s.tick with switches := s.tick.switches.filter fun j => s.tick.number.toNat < j.target.toNat } }
  due.foldl (fun (x : State × Bool) j =>
    match runAcc x.1 (rd whoBridge j.dva.toNat (32 * j.len)) with
    | (s, .ok bs) =>
      let es := (List.range j.len).map fun i => BitVec.ofNat 256 (ofBytes ((bs.drop (32 * i)).take 32))
      if es.all fun e => tickEntryOk e.toNat then
        let s := { s with tick := { s.tick with table := es } }
        (((s.setReg Reg.tkStatusTableLen j.len).setReg Reg.tkStatusCursor 0).complete j.ticket stOk, true)
      else (s.complete j.ticket stTableRejected, x.2)
    | (s, .error (.status st d)) => (s.complete j.ticket st d, x.2)
    | (s, .error (.blocked _ _)) =>
      -- the table is read again, for the switch at the next boundary
      let j' := { j with target := s.tick.number + 1 }
      ({ s with tick := { s.tick with switches := s.tick.switches ++ [j'] } }, x.2)) (s, false)

/-- The next entry becomes current, with the wing tables that it names. -/
def State.nextEntry (s : State) : State :=
  let (s, new) := s.tableSwitch
  let len := s.tick.table.length
  let s := if new || len = 0 then s else s.setReg Reg.tkStatusCursor ((s.reg Reg.tkStatusCursor + 1) % len)
  let e := s.tickEntry.getD 0
  (s.setReg Reg.wgCurrentTickWt (bitsAt e 0 4)).setReg Reg.wgCurrentBgWt (bitsAt e 4 4)

/-! ### Budgets and overruns (R68 to R71) -/

/-- Unfinished Tick work of a wing whose tick has begun. -/
def State.dueOn (s : State) (w : Nat) : List Work :=
  s.wk.works.filter fun x => s.due x && x.wing == w && x.ending.isNone

/-- Tick work carried from an earlier tick. -/
def State.fromBefore (s : State) (x : Work) : Bool := x.target.toNat < s.tick.number.toNat

/-- End lists with a status. -/
def State.endAll (s : State) (l : List Work) (status : Byte) : State :=
  s.each l fun s x => s.mapWork x.id fun w => w.end_ status

/-- The budget of a wing expires. -/
def State.expire (s : State) (w : Nat) : State :=
  if s.tick.expired.getLsbD w then s
  else
    let s := { s with tick := { s.tick with expired := s.tick.expired ||| 1#4 <<< w } }
    let l := s.dueOn w
    if l.isEmpty then s
    else
      let s := { s with tick := { s.tick with overrun := s.tick.overrun ||| 1#4 <<< w } }
      let s := s.releaseWhere fun b => b.cls == .tick && b.wing == w
      let old := l.filter s.fromBefore
      if !old.isEmpty then
        let s := s.endAll old stDroppedAfterCarry
        let s := s.endAll (l.filter fun x => !s.fromBefore x) stTickSkipped
        s.raise (mkReport fcTickOverrun 1)
      else match s.policyOf w with
        | 1 => s.note fcTickOverrun
        | 2 => (s.endAll l stOverrunDropped).raise (mkReport fcTickOverrun 1)
        | _ => (s.endAll l stOverrunDropped).note fcTickOverrun

/-- BUDGET_EXPIRY of a wing within the tick. -/
def State.budgetOver (s : State) (w : Nat) : State :=
  let b := s.budgetOf w
  if !s.mainUp || b = 0 || s.now < s.tick.lastBoundary + us (16 * b) then s else s.expire w

/-- URGENT_LIMIT_EXPIRY (R71). The limit counts from admission: DESIGN CHOICE, assumption 26, an admitted list that still
waits at its limit ends in the same way as one that runs. -/
def State.urgentOver (s : State) : State :=
  let lim := s.reg Reg.tkUrgLimitLimitUs
  if lim = 0 then s
  else
    let l := s.wk.works.filter fun x => x.cls == .urgent && x.ending.isNone && x.admTime + us lim ≤ s.now
    s.each l fun s x =>
      let s := (s.mapWork x.id fun w => w.end_ stUrgentLimit)
      let s := { s with tick := { s.tick with urgLimit := true } }
      if s.reg Reg.tkUrgLimitUrgPolicy = 0 then s.note fcUrgentLimit else s.raise (mkReport fcUrgentLimit 1)

/-! ### The background phase (R63, R72) -/

/-- Every wing has completed or dropped its Tick work of this tick. Work that goes on past its budget under the carry policy
is carried only at the boundary: until then the phase waits for it (02_the_tick.md, the example after R72, step 4). -/
def State.tickDone (s : State) : Bool :=
  s.wk.works.all fun x => !s.due x || x.ending.isSome

/-- BACKGROUND_PHASE_START: bond lanes are replaced and a rotating test may start with the phase. -/
def State.backgroundStart (s : State) : State :=
  if !s.computeUp || s.tick.bgStart.isSome || !s.tickDone then s
  else ({ s with tick := { s.tick with bgStart := some s.now } }).replaceLanes.testBegin

/-- The background phase of the ending tick had zero length. -/
def State.bgZero (s : State) : Bool := s.tick.bgStart.all fun t => s.now ≤ t

/-- Ticks without a background phase are counted (R72). -/
def State.countStarved (s : State) : State :=
  if !s.bgZero then { s with tick := { s.tick with starved := 0 } }
  else
    let n := s.tick.starved + 1
    let lim := s.reg Reg.tkCtrlBgStarve
    if lim ≠ 0 && lim ≤ n then ({ s with tick := { s.tick with starved := 0 } }).note fcBgStarved
    else { s with tick := { s.tick with starved := n } }

/-! ### Tick records (R51, R52) -/

/-- The record of the tick that ends now, NUMBER apart. -/
def State.tickRecord (s : State) : Nat :=
  let k := s.tick
  let bg := match k.bgStart with
    | some t => (s.now - t) / 1000
    | none => 0
  let tag := match s.tickEntry with
    | some e => bitsAt e 96 32
    | none => 0
  k.number.toNat + k.vtStamp.toNat <<< 64 + (min ((s.now - k.lastBoundary) / 1000) (2 ^ 20 - 1)) <<< 128
    + (s.reg Reg.tkStatusCursor) <<< 148 + (k.sourceState % 4) <<< 156 + (b2n k.gap) <<< 158 + (b2n k.early) <<< 159
    + k.overrun.toNat <<< 160 + k.carried.toNat <<< 164 + (b2n k.urgLimit) <<< 168 + (b2n s.bgZero) <<< 169 + tag <<< 192
    + (min bg (2 ^ 32 - 1)) <<< 224

/-- Write it: all of it but NUMBER, then NUMBER. -/
def writeTickRecord (dva bits : Nat) : Acc Unit := do
  let _ ← wr whoBridge (dva + 8) ((toBytes 32 bits).drop 8)
  let _ ← wr whoBridge dva (toBytes 8 bits)
  return ()

/-- The record is written, or skipped; the first skipped record after a record that was written raises a note. -/
def State.logTick (s : State) : State :=
  let dva := s.reg Reg.tkLogBaseLoLogLo <<< 11 + s.reg Reg.tkLogBaseHiLogHi <<< 32 + 32 * (s.tick.number.toNat % 64)
  match runAcc s (writeTickRecord dva s.tickRecord) with
  | (s, .ok _) => { s with tick := { s.tick with logSkipping := false } }
  | (s, .error _) =>
    let was := s.tick.logSkipping
    let s := { s with tick := { s.tick with logSkipping := true } }
    if was then s else s.note fcTickLog

/-! ### Settings trials (15_resets_and_retention.md R498, R499; R53) -/

/-- The tick that ends now is clean. -/
def State.cleanTick (s : State) : Bool :=
  let k := s.tick
  k.sourceState == 0 && k.overrun == 0 && k.carried == 0 && !k.urgLimit && !s.bgZero && !k.l2

/-- A boundary of a trial. -/
def State.countTrial (s : State) : State :=
  if !s.inTrial then s
  else
    let clean := if s.cleanTick then s.reg Reg.rstGenClean + 1 else 0
    let left := s.reg Reg.rstTrialTicksLeft - 1
    let s := (s.setReg Reg.rstGenClean clean).setReg Reg.rstTrialTicksLeft left
    let all := (s.currentGen.map fun g => g.ticks).getD 0
    let s := if (all - left) % 1024 = 0 then { s with flash := { s.flash with ticksLeft := left } } else s
    if 64 ≤ clean then s.trialSettles.showGens
    else if left = 0 then s.trialFails.showGens.orderMdr 10 .pcr
    else s

/-! ### The boundary (R46 to R51, R75) -/

/-- A WING_TABLE takes effect. -/
def State.putWings (s : State) (j : Ticket × BitVec 256) : State :=
  let x := j.2.toNat
  let n := bitsAt x 0 4
  let s := (s.setReg (Reg.wgTableLoMaskW0.ix n) (bitsAt x 16 16)).setReg (Reg.wgTableLoMaskW1.ix n) (bitsAt x 32 16)
  let s := (s.setReg (Reg.wgTableHiMaskW2.ix n) (bitsAt x 48 16)).setReg (Reg.wgTableHiMaskW3.ix n) (bitsAt x 64 16)
  s.complete j.1 stOk

/-- A software-requested performance level takes effect (14_power.md R465). -/
def State.putLevel (s : State) (j : Ticket × BitVec 256) : State :=
  let s := { s with pwr := { s.pwr with requested := bitsAt j.2.toNat 0 3 } }
  s.relevel.complete j.1 stOk

/-- Background lists stop at their quantum, open batches of Tick and Background lists are released, a test is abandoned. -/
def State.stopBackground (s : State) : State :=
  let s := s.releaseWhere fun b => b.cls != .urgent
  let s := s.mapWorks fun w =>
    if w.cls == .background && (w.phase == .running || w.phase == .preempted) then { w.askStop with phase := .stopped } else w
  s.testDrop

/-- Tick work that the new layout does not allow: carried work whose wing has changed (R69), and lists whose wing is absent
(R62). -/
def State.dropMisfits (s : State) (old : List (List Nat)) : State :=
  let s := s.each (List.range 4) fun s w =>
    if s.tickWing w == lget old w [] then s else s.endAll ((s.dueOn w).filter s.fromBefore) stOverrunDropped
  s.each (List.range 4) fun s w =>
    if (s.tickWing w).isEmpty then s.endAll ((s.dueOn w).filter fun x => !s.fromBefore x) stNoSuchWing else s

/-- The tile waits for the named token of its next step of a Background list. -/
def State.waitsToken (s : State) (w : Work) (r : TileRun) : Bool :=
  w.cls == .background && w.open_ && w.phase != .waiting && !r.busy && !r.spilled && r.next < w.bound
    && match (runAcc s (readStep w r.tile r.next)).2 with
      | .ok (d, _) => hWaitEn d && !(s.tileSt r.tile).tokens.contains (hWaitToken d)
      | .error _ => false

/-- A boundary counts against waits for tokens (R175), and clears tokens 0 to 511 (R174). -/
def State.boundaryTokens (s : State) : State :=
  let s := s.mapWorks fun w => { w with tiles := w.tiles.map fun r => if s.waitsToken w r then { r with waited := r.waited + 1 } else r }
  s.each (s.wk.tiles.map fun e => e.1) fun s t =>
    let ts := s.tileSt t
    s.setTileSt t { ts with tokens := ts.tokens.filter fun k => 512 ≤ k }

/-- Tiles whose TLR is at least 100 µs old are back in service (15_resets_and_retention.md R481). -/
def State.tilesBack (s : State) : State :=
  { s with rst := { s.rst with tlr := s.rst.tlr.filter fun x => s.now < x.2 + us 100 } }

/-- Vehicle time now; 0 if not synchronised. -/
def State.vtNow (s : State) : BitVec 64 := if s.tick.vtSync then BitVec.ofInt 64 ((s.now : Int) + s.tick.vtBase) else 0

/-- A substitute boundary raises its note, and a run of them the fault (R45); any other ends the run. -/
def State.countSubstitute (s : State) (sub : Bool) : State :=
  if !sub then { s with tick := { s.tick with substRun := 0, substFault := false } }
  else
    let n := s.tick.substRun + 1
    let lim := s.reg Reg.tkCtrlSubLimit
    let s := ({ s with tick := { s.tick with substRun := n } }).note fcTickSource
    if s.tick.substFault || lim = 0 || n < lim then s
    else ({ s with tick := { s.tick with substFault := true } }).raise (mkReport fcTickSource 1)

/-- SOURCE_STATE from a boundary on. -/
def State.sourceAfter (s : State) (sub : Bool) : Nat :=
  match s.reg Reg.tkCtrlSource with
  | 0 => 0
  | 3 => if s.tick.vtSync then 0 else 2
  | _ => b2n sub

/-- The Tick wing has the same tiles in the next tick, so that its work may be carried (R69). -/
def State.wingStays (s : State) (w : Nat) : Bool :=
  let n := ({ s with tick := { s.tick with number := s.tick.number + 1 } }).nextEntry
  (n.each s.wk.wingJobs State.putWings).tickWing w == s.tickWing w

/-- The tick ends: budgets to the boundary expire, the record is written, the ticks are counted. -/
def State.endTick (s : State) : State :=
  let s := s.each (List.range 4) State.expire
  let carried := maskOf ((List.range 4).filter fun w => !(s.dueOn w).isEmpty && s.wingStays w)
  let s := { s with tick := { s.tick with carried := BitVec.ofNat 4 carried } }
  s.logTick.countTrial.countStarved

/-- A boundary occurs. -/
def State.boundary (s : State) (sub : Bool := false) : State :=
  let s := s.endTick
  let wings := (List.range 4).map s.tickWing
  let s := { s with tick := { s.tick with
    number := s.tick.number + 1, lastBoundary := s.now, armedAt := none, early := false, gap := s.tick.gapNext, gapNext := false,
    overrun := 0, carried := 0, expired := 0, urgLimit := false, bgStart := none, l2 := false, vtStamp := s.vtNow,
    sourceState := s.sourceAfter sub } }
  let s := s.countSubstitute sub
  let s := s.nextEntry
  let (wingJobs, perfJobs) := (s.wk.wingJobs, s.wk.perfJobs)
  let s := { s with wk := { s.wk with wingJobs := [], perfJobs := [] } }
  let s := (s.each wingJobs State.putWings).each perfJobs State.putLevel
  let s := (s.stopBackground.dropMisfits wings).boundaryTokens
  (s.countHolds.tilesBack).bump Reg.fbTestSince

/-! ### Sources (R41 to R45, R50, R54 to R56) -/

/-- Boundaries can occur: the tick is enabled, the main die runs in S0 or S1. -/
def State.ticking (s : State) : Bool :=
  s.computeUp && s.flag Reg.tkCtrlEnable && (s.pwr.state == .s0 || s.pwr.state == .s1)

/-- The instant that the next boundary is counted from: the arming, or the last boundary. -/
def State.tickBase (s : State) : Nat := s.tick.armedAt.getD s.tick.lastBoundary

/-- The nominal period in nanoseconds. -/
def State.period (s : State) : Nat := us (s.reg Reg.tkPeriodPeriodUs)

/-- p × (1 ± w), with w in steps of 2 %. -/
def State.periodLow (s : State) : Nat := s.period * (100 - 2 * s.reg Reg.tkCtrlTolerance) / 100

/-- p × (1 + w). -/
def State.periodHigh (s : State) : Nat := s.period * (100 + 2 * s.reg Reg.tkCtrlTolerance) / 100

/-- TIMER_BOUNDARY. -/
def State.timerTick (s : State) : State :=
  if s.ticking && s.reg Reg.tkCtrlSource == 0 && s.tickBase + s.period ≤ s.now then s.boundary else s

/-- The edge is one of the selected source. -/
def State.edgeCounts (s : State) (e : EdgeSrc) : Bool :=
  match e with
  | .frame i => s.reg Reg.tkCtrlSource == 1 && s.reg Reg.tkCtrlGalStream == i.val
  | .pin rising width => s.reg Reg.tkCtrlSource == 2 && rising == !s.flag Reg.tkCtrlPinEdge && 100 ≤ width

/-- TICK_SOURCE_EDGE. -/
def State.sourceEdge (s : State) (e : EdgeSrc) : State :=
  if !s.ticking || !s.edgeCounts e then s
  else if s.tick.armedAt.isSome || s.tick.lastBoundary + s.periodLow ≤ s.now then s.boundary
  else ({ s with tick := { s.tick with early := true } }).note fcTickSource

/-- SUBSTITUTE_BOUNDARY. -/
def State.substituteTick (s : State) : State :=
  let src := s.reg Reg.tkCtrlSource
  if s.ticking && (src == 1 || src == 2) && s.tickBase + s.periodHigh ≤ s.now then s.boundary true else s

/-- A correction is limited to 1 % of the period. -/
def State.slewStep (s : State) : Int :=
  let lim : Int := s.period / 100
  if lim < s.tick.vtError then lim else if s.tick.vtError < -lim then -lim else s.tick.vtError

/-- Distance of a vehicle time from the nearest instant of R54, in nanoseconds: positive before it. -/
def State.toInstant (s : State) (vt : Int) : Int :=
  let p : Int := max 1 s.period
  let x := (vt - us (s.reg Reg.tkVtPhasePhaseUs)) % p
  if 2 * x ≤ p then -x else p - x

/-- VEHICLE_TIME_BOUNDARY: every boundary of source 3. In holdover they follow the period; while a phase error is removed,
the corrected period; else the instants of R54. -/
def State.vehicleTick (s : State) : State :=
  if !s.ticking || s.reg Reg.tkCtrlSource ≠ 3 then s
  else if !s.tick.vtSync then
    if s.tickBase + s.period ≤ s.now then s.boundary else s
  else if s.tick.vtError ≠ 0 then
    if (s.tickBase : Int) + s.period + s.slewStep ≤ s.now then
      let step := s.slewStep
      ({ s with tick := { s.tick with vtError := s.tick.vtError - step } }).boundary
    else s
  else
    let d := s.toInstant ((s.now : Int) + s.tick.vtBase)
    let fresh := s.tick.armedAt.isSome || s.tick.lastBoundary + s.period / 2 ≤ s.now
    if fresh && -2000 ≤ d && d ≤ 2000 then s.boundary else s

/-- Synchronisation is reported: the boundaries are to be moved onto the instants of R54. -/
def State.synced (s : State) (vt : Nat) : State :=
  let s := { s with tick := { s.tick with vtSync := true, vtBase := (vt : Int) - s.now } }
  if s.reg Reg.tkCtrlSource = 3 && s.flag Reg.tkCtrlEnable then
    let next : Int := (s.tickBase : Int) + s.period + s.tick.vtBase
    { s with tick := { s.tick with vtError := s.toInstant next, sourceState := 0 } }
  else s

/-- Synchronisation is lost (R55). -/
def State.unsynced (s : State) : State :=
  if !s.tick.vtSync then s
  else
    let s := { s with tick := { s.tick with vtSync := false, vtError := 0 } }
    if s.reg Reg.tkCtrlSource = 3 && s.flag Reg.tkCtrlEnable && s.mainUp then
      ({ s with tick := { s.tick with sourceState := 2 } }).note fcTickSource
    else s

/-- TK_CTRL has been written; `old` is what it held (R50). -/
def State.tickWritten (s : State) (old : Nat) : State :=
  let new := (s.word Reg.tkCtrlEnable.off).toNat
  if !bitAt new 0 then { s with tick := { s.tick with armedAt := none, sourceState := 3 } }
  else if !bitAt old 0 || bitsAt old 1 8 != bitsAt new 1 8 then s.arm
  else s

end Sys2Proof.Machine
end

