-- ==== Sys2Proof/Machine/Flow.lean ====
section
/-! DEFINITION. Admission of a descriptor by its kind, the entry into a sleep state, doze, and what follows at once from any
change (02_the_tick.md R58 to R67; 04_rings_and_doorbells.md R118 to R125, R137 to R141; 05_steps_and_wings.md R165;
14_power.md R464 to R472). -/

namespace Sys2Proof.Machine

/-! ### Admission -/

/-- Target tick of a descriptor: all ones means the next tick. -/
def targetOf (d : Nat) (next : BitVec 64) : BitVec 64 :=
  if dTarget d = BitVec.allOnes 64 then next else dTarget d

/-- A STEP_LIST is admitted in its class (R62 to R67). -/
def State.admitList (s : State) (t : Ticket) (d : Nat) : State :=
  let dva := BitVec.ofNat 48 (bitsAt d 192 48)
  let count := bitsAt d 256 16
  let w : Work := { id := 0, cls := .tick, wing := dWing d, src := .ring t, dva := dva, count := count,
                    target := targetOf d (s.tick.number + 1), admTime := s.now }
  match dCls d with
  | 0 => if w.target.toNat ≤ s.tick.number.toNat then s.complete t stTickPassed else s.addWork w
  | 1 => s.addWork { w with cls := .background, target := 0 }
  | _ =>
    if (s.tickWing (dWing d)).isEmpty then s.complete t stNoSuchWing
    else s.addUrgent (dWing d) (.ring t) dva count

/-- A TICK_CONTROL waits for its switch: not before a full tick of reading (R58, R59). -/
def State.admitTable (s : State) (t : Ticket) (d : Nat) : State :=
  let first := s.tick.number + 2
  let want := targetOf d first
  let j : SwitchJob := { ticket := t, dva := BitVec.ofNat 48 (bitsAt d 192 48), len := bitsAt d 240 9,
                         target := if want.toNat < first.toNat then first else want }
  { s with tick := { s.tick with switches := s.tick.switches ++ [j] } }

/-- A WING_TABLE is rejected, or waits for the next boundary (05_steps_and_wings.md R165). -/
def State.admitWings (s : State) (t : Ticket) (d : Nat) : State :=
  let m := fun w => bitsAt d (208 + 16 * w) 16
  let clash := (List.range 4).any fun i => (List.range 4).any fun j => i < j && m i &&& m j != 0
  let any_ := m 0 ||| m 1 ||| m 2 ||| m 3
  if clash || any_ = 0 || any_ &&& s.reg Reg.wgCurrentPresent != any_ then s.complete t stWingRejected
  else { s with wk := { s.wk with wingJobs := s.wk.wingJobs ++ [(t, dOps d)] } }

/-- An ARM_URGENT (R122, R123): its ticket's reservation is the arming's. -/
def State.admitArm (s : State) (t : Ticket) (d : Nat) : State :=
  let ev := bitsAt d 272 16
  if 16 ≤ s.rg.armings.length || (s.arming? ev).isSome then s.complete t stArmRejected
  else
    let a : Arming := { event := ev, wing := dWing d, dva := BitVec.ofNat 48 (bitsAt d 192 48), count := bitsAt d 256 16,
                        rearm := bitAt d 288, ticket := t, reserved := true, run := none, disarm := none }
    { s with rg := { s.rg with armings := s.rg.armings ++ [a] } }

/-- A DISARM (R122, R125): the arming ends, after the run in progress if there is one. -/
def State.admitDisarm (s : State) (t : Ticket) (d : Nat) : State :=
  let ev := bitsAt d 272 16
  match s.arming? ev with
  | none => s.complete t stNotArmed
  | some a =>
    if a.disarm.isSome then s.complete t stNotArmed
    else if a.run.isSome then s.mapArming ev fun a => { a with disarm := some t }
    else ((if a.reserved then s.release a.ticket.cq else s).dropArming ev).complete t stOk

/-- A PLACE joins the migration engine's requests (08_memory_tiers.md R272, R277). -/
def State.admitPlace (s : State) (t : Ticket) (d : Nat) : State :=
  s.addPlace { id := 0, ticket := some t, work := none, step := 0, base := BitVec.ofNat 48 (bitsAt d 192 48),
               count := bitsAt d 256 32, pos := 0, stride := 1, cls := bitsAt d 288 3, arg := bitsAt d 296 5,
               mode := bitsAt d 304 2, force := bitAt d 306 }

/-- A sleep entry begins (R471): admission closes, work is stopped, descriptors not yet admitted are discarded. -/
def State.sleepBegin (s : State) (t : Ticket) (toS3 : Bool) (level : Nat) : State :=
  let s := { s with pwr := { s.pwr with entry := .stopping toS3, sleepTicket := some t, sleepLevel := level } }
  (s.stopAll stSleepStopped).discardSubmissions

/-- A PERF_REQUEST. -/
def State.admitPerf (s : State) (t : Ticket) (d : Nat) : State :=
  match bitsAt d 196 2 with
  | 0 => { s with wk := { s.wk with perfJobs := s.wk.perfJobs ++ [(t, dOps d)] } }
  | k => s.sleepBegin t (k == 3) (bitsAt d 192 3)

/-- A descriptor whose record is reserved does what its kind says. -/
def State.perform (s : State) (t : Ticket) (d : Nat) : State :=
  match dOp d with
  | 0x01 => s.admitList t d
  | 0x02 => s.admitTable t d
  | 0x03 => s.admitWings t d
  | 0x04 => ({ s with wk := { s.wk with strmJobs := s.wk.strmJobs ++ [(t, 0, dOps d)] } }).strmGo (bitsAt d 192 14)
  | 0x05 => ({ s with wk := { s.wk with strmJobs := s.wk.strmJobs ++ [(t, 1, dOps d)] } }).strmGo (bitsAt d 192 14)
  | 0x06 => s.invalBegin t (dOps d).toNat
  | 0x07 => s.admitPlace t d
  | 0x08 => s.complete t stOk
  | 0x09 => s.admitArm t d
  | 0x0A => s.admitDisarm t d
  | 0x0B => ({ s with wk := { s.wk with seqJobs := s.wk.seqJobs ++ [(t, dOps d)] } }).seqGo (bitsAt d 192 16)
  | 0x0C => s.tsrAsked t (bitsAt d 192 16)
  | 0x0D => s.admitPerf t d
  | _ => s.complete t stBadDescriptor

/-- The accepted descriptor of a ring is taken: run, or completed as malformed or timed out (R118, R136). -/
def State.admitOne (s : State) (n : Nat) : State :=
  match (s.sqSt n).accepted with
  | none => s
  | some b =>
    let d := b.toNat
    let t := s.ticketOf n d
    let bad := s.descBad d
    let out := (s.sqSt n).fenceOut
    let s := s.takeDesc n d
    if bad then s.complete t stBadDescriptor
    else if out then s.complete t stFenceTimeout
    else s.perform t d

/-- Admit the descriptor of ring `n` if it is the one that the engine serves next and `p` picks it. -/
def State.admitIf (s : State) (n : Nat) (p : Nat → Bool) : State :=
  match s.nextRing, (s.sqSt n).accepted with
  | some k, some d => if k = n && p d.toNat then s.admitOne n else s
  | _, _ => s

/-- Admit the descriptor that the engine serves next (R137 to R139). -/
def State.admitNext (s : State) : State :=
  match s.nextRing with
  | some n => s.admitOne n
  | none => s

/-- The descriptor is of a kind. -/
def isOp (op d : Nat) : Bool := dOp d == op

/-- The descriptor is a SEQUENCE with an action. -/
def isSeq (action d : Nat) : Bool := dOp d == 0x0B && bitsAt d 208 3 == action

/-- The descriptor is a PERF_REQUEST with a STATE. -/
def isPerf (state d : Nat) : Bool := dOp d == 0x0D && bitsAt d 196 2 == state

/-! ### Sleep and doze -/

/-- Every record of a sleep entry is written: it becomes irrevocable (R471). -/
def State.sleepSettles (s : State) : State :=
  match s.pwr.entry with
  | .stopping toS3 =>
    if !s.quiet || !s.paid then s
    else
      let t := s.pwr.sleepTicket
      let s := { s with pwr := { s.pwr with entry := .grace toS3, sleepTicket := none, irrevAt := s.now } }
      match t with
      | some t => s.complete t stOk
      | none => s
  | _ => s

/-- Work runs (R470): not a list, an order or a switch that only waits for its boundary or phase. A rotating test keeps the
device in S0 (19_fusebox.md R607). -/
def State.working (s : State) : Bool :=
  (s.wk.works.any fun w => w.phase != .waiting && w.phase != .stopped || w.busy) || !s.wk.places.isEmpty || !s.wk.invals.isEmpty
    || !s.wk.seqJobs.isEmpty || !s.wk.strmJobs.isEmpty || s.sec.tsr.isSome || s.pwr.entry != .none || s.fb.test.isSome

/-- Idle time is counted from the last work; work ends a doze. -/
def State.idleGo (s : State) : State :=
  if !s.mainUp then s
  else if s.working then s.activity
  else if s.pwr.idleSince.isNone then { s with pwr := { s.pwr with idleSince := some s.now } }
  else s

/-- DOZE_ENTRY (R470). -/
def State.doze (s : State) : State :=
  match s.pwr.idleSince with
  | none => s
  | some t =>
    if s.mainUp && s.pwr.state == .s0 && s.flag Reg.pwrCtrlDozeEn && t + us (s.reg Reg.pwrCtrlDozeUs) ≤ s.now then
      { s with pwr := { s.pwr with state := .s1 } }
    else s

/-! ### What follows from any change -/

/-- Everything that happens at once: records clear, stops and starts take effect, lists are scheduled, requests, rings and
links go on, and the flows under way take their next phase. -/
def State.onward (s : State) : State :=
  let s := s.clearGo.startLate.stopLate
  let s := s.galGo.unpark.schedule.stepsGo.placeGo.dropMigrates
  let s := s.pwGo.tsrGo.sleepSettles.stopLate
  let s := s.payOwed.errFlush.ringWaits.holdOver.entryGo
  s.idleGo

end Sys2Proof.Machine
end

