-- ==== Sys2Proof/Machine/ModeRegs.lean ====
section
/-! DEFINITION. The mode registers of a Front Door channel and what they select (03_front_door.md R76 to R78, R96). -/

namespace Sys2Proof.Machine

/-- What a mode register holds after RESET_n: MR3 selects 16-bank mode (R77; assumption 21). -/
def mrDefault (mr : Nat) : Nat := if mr = 3 then 0x10 else 0

/-- Mode registers held once for each frequency set point (PRESUMED from JESD209-5C, assumption 21). -/
def mrPerPoint (mr : Nat) : Bool := [1, 2, 3, 10, 11, 12, 14, 15, 17, 18, 19, 20, 30].contains mr

/-- Where a mode register is kept for a frequency set point. -/
def mrKey (fsp mr : Nat) : Nat := if mrPerPoint mr then 256 * fsp + mr else mr

/-- A mode register for a frequency set point. -/
def FdChan.mrAt (c : FdChan) (fsp mr : Nat) : Nat := (tget c.mr (mrKey fsp mr) (BitVec.ofNat 8 (mrDefault mr))).toNat

/-- The frequency set point that MRW and MRR address, and the one in use: MR16 (PRESUMED, assumption 21). -/
def FdChan.fspWrite (c : FdChan) : Nat := bitsAt (c.mrAt 0 16) 0 2

/-- The frequency set point in use. -/
def FdChan.fspUse (c : FdChan) : Nat := bitsAt (c.mrAt 0 16) 2 2

/-- The channel is in bank-group mode (R77): MR3 of the set point in use. -/
def FdChan.bankGroups (c : FdChan) : Bool := bitsAt (c.mrAt c.fspUse 3) 3 2 == 0

/-- The channel runs at a data rate with the organisation of the other range (R77). -/
def FdChan.misfit (c : FdChan) : Bool := c.rate != 0 && c.bankGroups != decide (3200 < c.rate)

/-- Mode registers that the table of R96 lists and that software may write. -/
def mrWritable (mr : Nat) : Bool :=
  [1, 2, 3, 10, 11, 12, 13, 14, 15, 16, 17, 18, 19, 20, 21, 22, 25, 26, 28, 30, 31, 32, 33, 34, 37].contains mr

/-- Fields of a mode register whose value may select an unsupported option: first bit, width and the values that do (R78,
R96; the places are PRESUMED from JESD209-5C, assumption 21). -/
def mrRefused (mr : Nat) : List (Nat × Nat × List Nat) :=
  match mr with
  | 3 => [(3, 2, [1, 3])]
  | 16 => [(0, 2, [3]), (2, 2, [3])]
  | 18 => [(7, 1, [1])]
  | 19 => [(0, 2, [1, 2, 3]), (2, 2, [1, 2, 3])]
  | _ => []

/-- What a write leaves in a mode register: a field that would take an unsupported option keeps its value. -/
def mrMerge (mr old v : Nat) : Nat :=
  (mrRefused mr).foldl (fun x f => if f.2.2.contains (bitsAt v f.1 f.2.1) then putBits x f.1 f.2.1 (bitsAt old f.1 f.2.1) else x) v

/-- MRW (R96, R78): the value is stored and in force, or unsupported fields of it stand and a note is raised. -/
def State.mrWrite (s : State) (ch mr v : Nat) : State :=
  if !mrWritable mr then s
  else
    let c := s.chan ch
    let old := c.mrAt c.fspWrite mr
    let new := mrMerge mr old v
    let s := s.setChan ch { c with mr := tput (BitVec.ofNat 8 (mrDefault mr)) c.mr (mrKey c.fspWrite mr) (BitVec.ofNat 8 new) }
    if new = v then s else s.note fcFdUnsupported ch

/-- Link ECC of writes is enabled: MR22 bits 5:4 are 1 (the place is PRESUMED from JESD209-5C, assumption 21). -/
def FdChan.writeEcc (c : FdChan) : Bool := bitsAt (c.mrAt 0 22) 4 2 == 1

/-- The run time that MR37 programs for the WCK-to-DQ oscillator, in nanoseconds at the channel's data rate; none: it runs
until an MPC stops it (the codes are PRESUMED from JESD209-5C, assumption 21). -/
def FdChan.oscRun (c : FdChan) : Option Nat :=
  let v := c.mrAt 0 37
  if v = 0 then none
  else
    let clocks := if v < 64 then 16 * v else 2048 * 2 ^ (v / 64 - 1)
    some ((8000 * clocks + c.rate - 1) / c.rate)

/-- The read-only mode registers that describe the device (R96): MR0 and the low bits of MR4, whose codes only JESD209-5C
gives, are constants of the device; MR4's update flag (bit 7) is clear; MR8 says x16 and 2 Gb (bits 7:2 zero) beside a type
code; MR27 says that refresh management is not required (0). The places are PRESUMED from JESD209-5C, assumption 21. -/
def mrFixed (mr : Nat) : Byte :=
  match mr with
  | 4 => Config.mrConst 4 &&& 0x7F
  | 8 => Config.mrConst 8 &&& 0x03
  | 27 => 0
  | n => Config.mrConst n

/-- What MRR returns (R96): 0 for a mode register that is not listed. -/
def State.mrRead (s : State) (ch mr : Nat) : Byte :=
  let c := s.chan ch
  if [0, 4, 8, 27].contains mr then mrFixed mr
  else if mr = 5 then BitVec.ofNat 8 (s.reg Reg.fdCtrlManufId)
  else if mr = 6 then 0xB1
  else if mr = 35 then c.oscCount.extractLsb' 0 8
  else if mr = 36 then c.oscCount.extractLsb' 8 8
  else if mrWritable mr then BitVec.ofNat 8 (c.mrAt c.fspWrite mr)
  else 0

end Sys2Proof.Machine
end

