-- ==== Sys2Proof/Machine/RegWrite.lean ====
section
/-! DEFINITION. What the host reads from a set-up register and what its writes do: access codes, the set-up lock, values that
the device shows as it stands, and the effects of particular registers (00_scope.md R13, R14; 22_register_index.md R649 to
R655 and the register tables of the chapters). -/

namespace Sys2Proof.Machine

/-! ### Which registers are there (R650) -/

/-- The logical tile that indexes the register at an offset, if one does. -/
def tileOfReg (off : Nat) : Option Nat :=
  if 0xA040 ≤ off && off < 0xA080 then some ((off - 0xA040) / 4)
  else if 0xB000 ≤ off && off < 0xB040 then some ((off - 0xB000) / 4)
  else if 0xC000 ≤ off && off < 0xC040 then some ((off - 0xC000) / 4)
  else if 0xF000 ≤ off && off < 0xF040 then some ((off - 0xF000) / 4)
  else none

/-- The register reads as zero and ignores writes on this device. -/
def State.regAbsent (s : State) (off : Nat) : Bool :=
  (match tileOfReg off with
    | some t => !s.present t
    | none => false) || (off / 0x1000 == 0x15 && !s.fuses.links)

/-- The aperture is open to the host: the main die is up and FD_READY is high (03_front_door.md R100, R104). -/
def State.regOpen (s : State) : Bool := s.mainUp && s.pins.fdReady

/-! ### Reading -/

/-- Pages that are SCRUB_PENDING. -/
def State.scrubPages (s : State) : List Nat :=
  (s.deed.entries.filter fun e => match s.pageView e.1 with
    | .scrub _ _ => true
    | _ => false).map fun e => e.1

/-- Some page is SCRUB_PENDING, whether the scrubber can reach its home now or not (08_memory_tiers.md R284). -/
def State.scrubLeft (s : State) : Bool :=
  s.deed.entries.any fun e =>
    let x := e.2.toNat
    dHome x < 22 && (dState x == 3 || (dState x == 1 && dEpoch x != s.epoch)) && !s.deedCorrupt x

/-- Table walks in progress: those at which a work item is held. -/
def State.walks (s : State) : Nat :=
  total (s.wk.works.map fun w => (w.tiles.filter fun r => r.held.any fun h => h.2).length)

/-- Mask of the wings `w` with `p w`. -/
def wingBits (p : Nat → Bool) : Nat := maskOf ((List.range 4).filter p)

/-- A slice or channel's free frames, summed. -/
def State.freeSum (s : State) (homes : List Nat) : Nat := homes.foldl (fun a h => a + s.freeFrames h) 0

/-- Highest LEVEL of an uncleared record. -/
def State.highest (s : State) : Nat := s.fb.recs.foldl (fun a e => max a e.2.level) 0

/-- Fields of the always-on blocks that show what the device holds elsewhere. -/
def State.liveAon (s : State) (off : Nat) : List (Field × Nat) :=
  if off = 0x4 then [(Reg.styCfgIdLinks, b2n s.fuses.links)]
  else if off = 0x8 then [(Reg.stySerialLoSerialLo, s.fuses.serial.toNat)]
  else if off = 0xC then [(Reg.stySerialHiSerialHi, s.fuses.serial.toNat >>> 32)]
  else if off = 0x10 then [(Reg.styModeOwnerSlots, s.fuses.slots.length), (Reg.styModeGptpSync, b2n s.tick.vtSync)]
  else if off = 0x28 then [(Reg.styRollbackCount, s.fuses.rollback)]
  else if off = 0x2C then
    match s.sty.update with
    | some u => [(Reg.styUpdateKind, u.kind), (Reg.styUpdatePhase, u.phase), (Reg.styUpdateSession, u.session)]
    | none => []
  else if 0x40 ≤ off && off < 0x60 then [(Reg.styIdkeyDigest.ix ((off - 0x40) / 4), s.fuses.idKey.toNat >>> (8 * (off - 0x40)))]
  else if off = 0x1000 then [(Reg.secStatusPairRoot, b2n (s.fuses.pairRoot != 0))]
  else if off = 0x2004 then
    [(Reg.fbStatusOpen, s.fb.recs.length), (Reg.fbStatusHighest, s.highest), (Reg.fbStatusFault, b2n s.faultLow),
     (Reg.fbStatusStop, b2n s.stopLow)]
  else if 0x2100 ≤ off && off < 0x2900 then
    match tfind s.fb.recs ((off - 0x2100) / 32) with
    | some r => [({ Reg.fbRecWord with off := off, dims := [] }, r.bits >>> (8 * (off % 32)))]
    | none => []
  else if off = 0x4004 then [(Reg.pwrStatusState, if s.pwr.entry == .none then min 2 s.pwr.state.code else 2)]
  else if off = 0x18010 then
    [(Reg.porStatusProfile, b2n s.por.sleepProf), (Reg.porStatusChangeWait, b2n (!s.por.changes.isEmpty)),
     (Reg.porStatusSettling, b2n (s.por.settle_ != 0))]
  else if off = 0x18014 then [(Reg.porSampleLoSampleLo, s.por.sample.toNat)]
  else if off = 0x18018 then [(Reg.porSampleHiSampleHi, s.por.sampleHi.toNat)]
  else if off = 0x19004 then [(Reg.keyStatusPartial, maskOf (s.por.partials.map fun p => p.1))]
  else []

/-- Fields of the main die's blocks that show what the device holds elsewhere. -/
def State.liveMain (s : State) (off : Nat) : List (Field × Nat) :=
  if off = 0x5008 then
    let c := fun (p : FdChan → Bool) => wingBits fun i => p (s.chan i)
    [(Reg.fdStatusHostAway, c fun x => x.away || x.deep), (Reg.fdStatusBgMode, c FdChan.bankGroups),
     (Reg.fdStatusSpillRows, min 4095 s.fd.spill.length), (Reg.fdStatusScrubBusy, b2n (!s.fd.scrub.isEmpty))]
  else if off = 0x6020 then [(Reg.rgAttnStatusPin, s.attnPins.toNat)]
  else if 0x6100 ≤ off && off < 0x6300 && off % 8 = 4 then
    [(Reg.rgSqCfgHead.ix ((off - 0x6104) / 8), (s.sqSt ((off - 0x6104) / 8)).head.toNat)]
  else if off = 0x7018 then [(Reg.tkNumberLoNumberLo, s.tick.number.toNat)]
  else if off = 0x7020 then
    [(Reg.tkStatusSourceState, s.tick.sourceState), (Reg.tkStatusBgPhase, b2n s.tick.bgStart.isSome)]
  else if off = 0x8020 then
    let any_ := fun (w : Nat) (p : Work → Bool) => s.wk.works.any fun x => x.wing == w && p x
    [(Reg.spStatusBusy, wingBits fun w => any_ w Work.busy),
     (Reg.spStatusBatchOpen, wingBits fun w => s.wk.batches.any fun b => b.wing == w && !b.released),
     (Reg.spStatusBgStopped, wingBits fun w => any_ w fun x =>
       x.on.any fun t => (s.tileSt t).bgCtx.any fun c => c.work == x.id),
     (Reg.spStatusPreempted, wingBits fun w => any_ w fun x =>
       x.phase == .preempted && x.tiles.any fun r => r.busy || r.spilled)]
  else if off = 0x10000 then [(Reg.deedFreeLoftFree, s.freeSum (List.range 18))]
  else if off = 0x10004 then [(Reg.deedFreeCelFree, s.freeSum (s.celChannels.map (· + 18)))]
  else if off = 0x10008 then
    [(Reg.deedStateMigInflight, s.deed.moves.length), (Reg.deedStateScrubBusy, b2n s.scrubLeft)]
  else if off = 0x11008 then [(Reg.mmuStatusInvalBusy, b2n (!s.wk.invals.isEmpty)), (Reg.mmuStatusWalks, s.walks)]
  else if off = 0x1200C then [(Reg.attStatusEditWait, b2n (s.wk.seqJobs.any fun j => s.seqRuns (bitsAt j.2.toNat 0 16)))]
  else if off = 0x1300C then
    [(Reg.strmStatusHeld, s.strm.shares.foldl (fun a x => a + x.held.length) 0),
     (Reg.strmStatusEditWait, b2n (s.wk.strmJobs.any fun j => s.chunkRuns (bitsAt j.2.2.toNat 0 14)))]
  else []

/-- The word that a read of a set-up register returns. -/
def State.regValue (s : State) (off : Nat) : Nat :=
  if s.regAbsent off then 0
  else (s.liveAon off ++ s.liveMain off).foldl (fun x f => putBits x f.1.lo f.1.width f.2) (s.word off).toNat

/-- What a read of a set-up register does beside: the two latches (02_the_tick.md R73; 13_porch.md R444). -/
def State.regLatch (s : State) (off : Nat) : State :=
  if off = 0x7018 then s.setReg Reg.tkNumberHiNumberHi (s.tick.number.toNat >>> 32)
  else if off = 0x18014 then { s with por := { s.por with sampleHi := s.por.sample.extractLsb' 32 32 } }
  else s

/-! ### Counts that a write clears -/

/-- Clear fields. -/
def State.zeroRegs (s : State) (l : List Field) : State := s.each l fun s f => s.setReg f 0

/-- CLR_CNT of FD_CTRL. -/
def State.fdClear (s : State) : State :=
  s.zeroRegs (Reg.fdLinkErrCorr.all ++ Reg.fdLinkErrUncorr.all ++ [Reg.fdViolCount, Reg.fdViolChMask])

/-- CLR_CNT of LOFT_CTRL. -/
def State.loftClear (s : State) : State := s.zeroRegs (Reg.loftSliceCorr.all ++ [Reg.loftUncorrCount])

/-- CLR_CNT of PAN_CTRL. -/
def State.panClear (s : State) : State :=
  s.zeroRegs (Reg.celErrCorr.all ++ Reg.celErrUncorr.all ++ Reg.panErrCorr.all ++ Reg.panErrUncorr.all)

/-- CLR_CNT of GAL_CLR: every Gallery count (12_gallery.md R381, R383, R386, R410). -/
def State.galClear (s : State) : State :=
  let s := s.zeroRegs (Reg.galPortStatusHdrErrCsi.all ++ Reg.galPortStatusCrcErrCsi.all
    ++ [Reg.galStatusOverflow, Reg.galStatusWriteErr] ++ Reg.galFrameFrame.all)
  s.each (List.range 12) fun s p => s.setGalPort p { s.galPort p with unsupported := 0 }

/-! ### Orders given by registers -/

/-- An STR (15_resets_and_retention.md R483, R492): the Study begins anew and answers nothing until it has restarted. -/
def State.str (s : State) (source : Nat) : State :=
  let s := s.studyFresh
  let s := { s with sty := { s.sty with up := false }, rst := { s.rst with strBusy := true }
                    pwr := { s.pwr with sensDiff := [] } }
  let s := s.reloadGen fun o => inBlock 0 o && o != Reg.rstLockLocked.off
  let s := s.zeroRegs (Reg.styTempTemp.all ++ Reg.styTempValid.all ++ Reg.styRailMv.all ++ Reg.styRailCurrent.all
    ++ [Reg.stySyncOffsetNs])
  s.unsynced.cause 3 source

/-- A write to RST_REQ (15_resets_and_retention.md R500, R502). -/
def State.resetRequest (s : State) (v : Nat) : State :=
  let kind := bitsAt v 0 4
  if bitsAt v 8 8 ≠ 0x5A then s.noteAon fcRstReq
  else if kind = 1 then s.orderMdr 7
  else if kind = 2 then if s.present (bitsAt v 4 4) then s.tlr (bitsAt v 4 4) 7 else s.noteAon fcRstReq
  else if kind = 3 then s.str 7
  else if kind = 4 then s.pcr 7
  else if kind = 5 then (s.revert).getD (s.noteAon fcRstReq)
  else s

/-- A write to RST_LOCK (22_register_index.md R653). -/
def State.lockWrite (s : State) (v : Nat) : State :=
  if bitAt v 1 && bitsAt v 8 8 == 0x4C then s.setReg Reg.rstLockLocked 1 else s

/-- A write to FB_ACK (19_fusebox.md R598). -/
def State.ackWrite (s : State) (v : Nat) : State :=
  if bitsAt v 8 8 ≠ 0xA5 then s
  else if bitAt v 6 then s.ackAll
  else match tfind s.fb.recs (bitsAt v 0 6) with
    | some r => s.setRec (bitsAt v 0 6) { r with acked := true }
    | none => s

/-- A write to DEED_QUERY (08_memory_tiers.md R305). -/
def State.deedAsk (s : State) (v : Nat) : State :=
  let e := s.deedOf (bitsAt v 0 22)
  (s.setReg Reg.deedResultLoEntryLo e).setReg Reg.deedResultHiEntryHi (e >>> 32)

/-- A ring's BASE was written while the ring was enabled, with another value: it stands (04_rings_and_doorbells.md R117). -/
def State.baseWritten (s : State) (n old : Nat) (on : Bool) (f : Field) : State :=
  if on && s.reg f != bitsAt old f.lo f.width then (s.setReg f (bitsAt old f.lo f.width)).note fcRgConfig n else s

/-- RG_SQ_CFGn was written and held `old` (R116, R117). -/
def State.sqWritten (s : State) (n old : Nat) : State :=
  let was := bitAt old 5
  let s := s.baseWritten n old was (Reg.rgSqCfgLog2Entries.ix n)
  if !was && s.sqOn n then s.enableSq n else s

/-- RG_CQ_CFGn was written and held `old` (R116, R117, R148). -/
def State.cqWritten (s : State) (n old : Nat) : State :=
  let was := bitAt old 7
  let s := s.baseWritten n old was (Reg.rgCqCfgLog2Entries.ix n)
  if !was && s.cqOn n then s.enableCq n else if was && !s.cqOn n then s.disableCq n else s

/-- RG_STATUS_ROW was written (R146): an excluded row is refused. -/
def State.rowWritten (s : State) : State :=
  if s.flag Reg.rgStatusRowValid && winExcluded (s.reg Reg.rgStatusRowRowOff <<< 11) then
    (s.setFlag Reg.rgStatusRowValid false).note fcRgConfig
  else s

/-- A ring register was written. -/
def State.ringWritten (s : State) (off old : Nat) : State :=
  if off = 0x6000 then if s.safeFloor then s.setWord off (BitVec.ofNat 32 old) else s
  else if off = 0x6004 then s.rowWritten
  else if 0x6100 ≤ off && off < 0x6300 then
    let n := (off - 0x6100) / 8
    if off % 8 = 4 then s.sqWritten n old else s.baseWritten n old (s.sqOn n) (Reg.rgSqBaseBase.ix n)
  else if 0x6300 ≤ off && off < 0x6500 then
    let n := (off - 0x6300) / 8
    if off % 8 = 4 then s.cqWritten n old else s.baseWritten n old (s.cqOn n) (Reg.rgCqBaseBase.ix n)
  else s

/-- PW_CTRL was written: ports that it enables train, ports that it disables are off (18_party_wall.md R573). -/
def State.portsWritten (s : State) (old : Nat) : State :=
  s.each (List.range 4) fun s p =>
    let on := (s.reg Reg.pwCtrlPortEn).testBit p
    if on == old.testBit p then s
    else if on then s.setReg (Reg.pwPortState.ix p) 1
    else (s.losePort p).setReg (Reg.pwPortState.ix p) 0

/-- A party-wall register was written with `v`. -/
def State.linkWritten (s : State) (off old v : Nat) : State :=
  if off = 0x15000 then s.portsWritten old
  else if 0x15100 ≤ off && off < 0x15200 && off % 16 = 0 then
    let j := (off - 0x15100) / 16
    let s := if bitAt v 20 then s.openJob j else s
    if bitAt v 21 then s.closeJob j true else s
  else s

/-- A Gallery register was written and held `old`. -/
def State.galWritten (s : State) (off old v : Nat) : State :=
  if off < 0x16070 then
    let p := (off - 0x16000) / 8
    if off % 8 = 0 then s.portWritten p old else s.wireClear p
  else if off = 0x16084 then if bitAt v 0 then s.galClear else s
  else if 0x16100 ≤ off && off < 0x16280 && off % 16 = 0 then s.inWritten ((off - 0x16100) / 16) (bitAt old 0)
  else if 0x16C00 ≤ off && off < 0x17200 && off % 32 = 0 then s.outWritten ((off - 0x16C00) / 32) (bitAt old 0)
  else s

/-- POR_CTRL was written and held `old` (13_porch.md R423, R427, R438). -/
def State.porCtrlWritten (s : State) (old : Nat) : State :=
  let mute := s.flag Reg.porCtrlMute
  let s := (s.setFlag Reg.porCtrlMute (bitAt old 1)).muteTo mute
  let s := if bitAt old 11 && !s.flag Reg.porCtrlChainEn then s.chainOff else s
  let rate := s.reg Reg.porCtrlRate
  (if rate = bitsAt old 3 3 then s else s.requestChange (.rate rate)).beamCheck

/-- A Porch register was written and held `old`. -/
def State.porWritten (s : State) (off old : Nat) : State :=
  if off = 0x18000 then s.porCtrlWritten old
  else if off = 0x18004 || off = 0x18008 then
    let sleep := off == 0x18008
    if s.por.sleepProf == sleep && s.profileDiffers sleep then s.applyProfile sleep else s
  else if off = 0x1800C then
    let m := s.reg Reg.porRingMaskRingMask
    if m = bitsAt old 0 16 then s else s.requestChange (.ringMask (BitVec.ofNat 16 m))
  else if 0x18020 ≤ off && off < 0x18060 then s.swapShow
  else s


/-- What a write of `v` to the register at an offset does beyond its fields; the register held `old`. -/
def State.regWrote (s : State) (off old v : Nat) : State :=
  match off / 0x1000 with
  | 0x2 => if off = 0x2008 then s.ackWrite v else s
  | 0x3 => if off = 0x3004 then s.resetRequest v else if off = 0x3018 then s.lockWrite v else s
  | 0x5 => if off = 0x5000 && bitAt v 8 then s.fdClear else s
  | 0x6 => s.ringWritten off old
  | 0x7 => if off = 0x7000 then s.tickWritten old else s
  | 0xC => if off = 0xC040 && bitAt v 0 then s.zeroRegs Reg.veNanCntCount.all else s
  | 0xD => if off = 0xD04C && bitAt v 0 then s.loftClear else s
  | 0xF => if off = 0xF040 && bitAt v 0 then s.panClear else s
  | 0x10 => if off = 0x10010 then s.deedAsk v else s
  | 0x14 => if off = 0x14004 && bitAt v 0 then s.zeroRegs [Reg.visBoxErrCount, Reg.visBoxErrSteps] else s
  | 0x15 => s.linkWritten off old v
  | 0x16 | 0x17 => s.galWritten off old v
  | 0x18 => s.porWritten off old
  | 0x19 => if off = 0x19000 then s.keyRateCheck (s.reg Reg.porCtrlRate) else s
  | _ => s

/-! ### Writing -/

/-- A register word after a write by the access codes of its fields (00_scope.md R13), the lock apart. -/
def writtenWord (off old v : Nat) : Nat :=
  normalise off ((Reg.fieldsAt off).foldl (fun x f => match f.acc with
    | .rw | .rwl => putBits x f.lo f.width (bitsAt v f.lo f.width)
    | .w1c => putBits x f.lo f.width (bitsAt old f.lo f.width &&& (2 ^ f.width - 1 - bitsAt v f.lo f.width))
    | _ => x) old)

/-- RWL fields of the register that a write would change. -/
def lockedChanges (off old new : Nat) : List Field :=
  (Reg.fieldsAt off).filter fun f => f.acc == .rwl && bitsAt old f.lo f.width != bitsAt new f.lo f.width

/-- The fields of a register take a write; the set-up lock holds RWL fields (22_register_index.md R653 to R655). -/
def State.putWritten (s : State) (off v : Nat) : State :=
  let old := (s.word off).toNat
  let new := writtenWord off old v
  let held := if s.flag Reg.rstLockLocked then lockedChanges off old new else []
  let s := s.setWord off (BitVec.ofNat 32 (held.foldl (fun x f => putBits x f.lo f.width (bitsAt old f.lo f.width)) new))
  if held.isEmpty then s else s.bump Reg.rstLockIgnored

/-- No register lies at the offset on this device: it reads as zero and ignores writes (22_register_index.md R650). -/
def State.noReg (s : State) (off : Nat) : Bool := s.regAbsent off || (Reg.fieldsAt off).isEmpty

/-- A host write of a whole register. -/
def State.regWrite (s : State) (off v : Nat) : State :=
  if s.noReg off then s
  else (s.putWritten off v).regWrote off (s.word off).toNat v

/-- A register-write command: it reaches the aperture only while that is open. -/
def State.hostWrite (s : State) (off : Nat) (v : Word) : State := if s.regOpen then s.regWrite off v.toNat else s

/-- A register-read command: the word returned, and what the read does. -/
def State.hostRead (s : State) (off : Nat) : State :=
  if s.regOpen then { s.regLatch off with readData := BitVec.ofNat 32 (s.regValue off) } else s

end Sys2Proof.Machine
end

