-- ==== Sys2Proof/Machine/FrontDoor.lean ====
section
/-! DEFINITION. The commands of a Front Door channel: which of them act, the minimums that are checked, bursts to window rows,
to the register aperture and to doorbell rows, write-backs and the spill area (03_front_door.md R76 to R105, R112, R113). -/

namespace Sys2Proof.Machine

/-! ### Violations (R90, R98) -/

/-- A violation on a channel is counted. -/
def State.violate (s : State) (ch : Nat) (n : Nat := 1) : State :=
  if n = 0 then s
  else (s.bump Reg.fdViolCount n).setReg Reg.fdViolChMask (s.reg Reg.fdViolChMask ||| 1 <<< ch)

/-- Undefined bytes: as many free values. -/
def State.freeBytes (s : State) (n : Nat) : List Byte × State :=
  let (k, s) := s.fresh
  ((List.range n).map fun i => Config.freeByte (k * 4096 + i), s)

/-- Less than `min_` nanoseconds have passed since `t`. -/
def State.early (s : State) (t : Option Nat) (min_ : Nat) : Bool := t.any fun x => s.now < x + min_

/-- Whether a command keeps to the timing set: it does; it breaks a minimum or rule that the Front Door checks; or it
breaks another minimum of JESD209-5C, which has the same effect on data but is not counted (R90). -/
inductive Fit where
  | fits | caught | missed
  deriving DecidableEq, Repr

/-- A checked violation stands before one that is not checked. -/
def Fit.with_ (f : Fit) (bad : Bool) : Fit := if bad then .caught else f

/-- The kinds of command between which JESD209-5C sets minimums. -/
inductive FdKind where
  | act | read | write | masked | pre | preAll | ref | refAll | rfm | sre | srx | pde | pdx | deepIn | deepOut | mrw | mrr
  | cas | wff | rff | rdc | mpc
  deriving DecidableEq, Repr

/-- Number of a kind. -/
def FdKind.code (k : FdKind) : Nat :=
  match k with
  | .act => 0 | .read => 1 | .write => 2 | .masked => 3 | .pre => 4 | .preAll => 5 | .ref => 6 | .refAll => 7 | .rfm => 8
  | .sre => 9 | .srx => 10 | .pde => 11 | .pdx => 12 | .deepIn => 13 | .deepOut => 14 | .mrw => 15 | .mrr => 16 | .cas => 17
  | .wff => 18 | .rff => 19 | .rdc => 20 | .mpc => 21

/-- A command of kind `k` on a bank (16: on none, or on all) comes earlier after another command of the channel than
JESD209-5C allows, by a minimum that R98's table does not list; the manual does not give those (R90, R98). -/
def FdChan.tooSoon (c : FdChan) (k : FdKind) (bank now : Nat) : Bool :=
  c.recent.any fun e => now < e.2 + Config.jedecMin (e.1 / 32) k.code (e.1 % 32) bank c.rate

/-- How a command meets its channel: it is ignored, or it acts, with R90's undefined data where it does not fit. -/
inductive Met where
  | ignored (s : State)
  | acts (s : State) (fit : Fit)

/-- A command that R105 and the power states of the channel let through or not: `away` in self-refresh, `pd` in power-down
(assumption 22). On a channel whose organisation does not fit its data rate every command is a violation, an ignored one
too (R77). -/
def State.meet (s : State) (ch : Nat) (k : FdKind) (bank : Nat) (away pd : Bool) : Met :=
  let c := s.chan ch
  if !s.regOpen then .ignored s
  else
    let s := if c.misfit then s.violate ch else s
    if c.deep || (c.away && !away) then .ignored (s.violate ch)
    else if c.powerDown && !pd then .ignored s
    else .acts s (if c.misfit then .caught else if c.tooSoon k bank s.now then .missed else .fits)

/-- The channel remembers when it took a command of a kind on a bank. -/
def State.tookCommand (s : State) (ch : Nat) (k : FdKind) (bank : Nat) : State :=
  let c := s.chan ch
  s.setChan ch { c with recent := tset c.recent (32 * k.code + bank) s.now }

/-- A command with an effect on a channel. -/
def State.command (s : State) (ch : Nat) (k : FdKind) (bank : Nat) (away pd : Bool) (f : State → Fit → State) : State :=
  match s.meet ch k bank away pd with
  | .ignored s => s
  | .acts s fit => (f s fit).tookCommand ch k bank

/-- A command without an effect: it is allowed in every state of the channel, and keeps no other command waiting. -/
def State.noCommand (s : State) (ch : Nat) : State := if s.regOpen && (s.chan ch).misfit then s.violate ch else s

/-! ### Opening and closing rows (R81, R84) -/

/-- The mark that the buffer of an aperture or doorbell row carries of the ACT that opened it: a checked violation spoils
every burst to it, another one as R90 gives. -/
def Fit.mark (f : Fit) : BitVec 64 :=
  match f with
  | .fits => 0
  | .caught => BitVec.allOnes 64
  | .missed => 1

/-- What that mark says. -/
def RowBuf.fit (b : RowBuf) : Fit := if b.dirty = 0 then .fits else if b.dirty = 1 then .missed else .caught

/-- The fetch of a row counts and reports the uncorrectable units that it meets (08_memory_tiers.md R299). -/
def State.rowReport (s : State) (ch bank row : Nat) : State :=
  s.reportKeys (((List.range 32).filter fun u => s.sectorFails ch bank row (2 * u) || s.sectorFails ch bank row (2 * u + 1)).map
    fun u => s.rowKey ch bank row + 64 * u)

/-- The buffer of a row that is opened: its current contents, or undefined ones. -/
def State.fillRow (s : State) (ch bank row : Nat) (fit : Fit) : RowBuf × State :=
  if isAperture ch bank row || isDoorbell bank row then
    ({ row := row, data := [], dirty := fit.mark }, s)
  else if fit ≠ .fits then
    let (bs, s) := s.freeBytes 2048
    ({ row := row, data := mwrite [] 0 bs, dirty := BitVec.allOnes 64 }, s)
  else
    let data := (List.range 64).foldl (fun m sec => mwrite m (32 * sec) (s.sectorNow ch bank row sec)) []
    ({ row := row, data := data, dirty := 0 }, s.rowReport ch bank row)

/-- ACT: the minimums it violates are counted, an open row is closed first, and the row is fetched. Two points that the
manual leaves open, DESIGN CHOICE, assumption 27: the implied close of an open row (R79) is not held to tRAS and tWR, so its
dirty sectors stay defined; and a channel has completed initialisation (INIT_DONE, R112) at its first accepted ACT. -/
def State.activate (s : State) (ch bank row : Nat) (fit : Fit) : State :=
  let c := s.chan ch
  let wasOpen := (tfind c.open_ bank).isSome
  let n := b2n ((tfind c.lastPre bank).any fun t => s.now < t) + b2n (s.early c.acts.head? 5) + b2n (s.early c.acts[3]? 20)
  let s := s.violate ch (n + b2n wasOpen)
  let s := s.closeBank ch bank
  let special := isAperture ch bank row || isDoorbell bank row
  let (buf, s) := s.fillRow ch bank row (fit.with_ (n != 0 || wasOpen))
  let buf := if wasOpen && n = 0 && fit = .fits && !special then { buf with dirty := 0 } else buf
  let c := s.chan ch
  let s := s.setChan ch { c with open_ := tset c.open_ bank buf, lastAct := tset c.lastAct bank s.now
                                 acts := (s.now :: c.acts).take 4, lastWr := tdel c.lastWr bank }
  s.setReg Reg.fdStatusInitDone (s.reg Reg.fdStatusInitDone ||| 1 <<< ch)

/-- PRE of one bank, after which the bank's next ACT must wait `trp`: a row closed too early is undefined. How often a PREab
that breaks tRAS or tWR on several banks counts, R90 does not say: DESIGN CHOICE, assumption 27, once for each bank and
minimum. -/
def State.precharge (s : State) (ch bank trp : Nat) (fit : Fit) : State :=
  let c := s.chan ch
  let c' := { c with lastPre := tset c.lastPre bank (s.now + trp) }
  match tfind c.open_ bank with
  | none => s.setChan ch c'
  | some b =>
    let n := b2n (s.early (tfind c.lastAct bank) 42) + b2n (s.early (tfind c.lastWr bank) 40)
    let s := s.violate ch n
    if fit ≠ .fits || n != 0 then
      let (bs, s) := s.freeBytes 2048
      let b := { b with data := mwrite [] 0 bs, dirty := BitVec.allOnes 64 }
      (s.setChan ch { c' with open_ := tset c'.open_ bank b }).closeBank ch bank
    else (s.setChan ch c').closeBank ch bank

/-! ### Bursts -/

/-- Data of a read burst. -/
def State.putDq (s : State) (ch : Nat) (bs : List Byte) : State := s.setChan ch { s.chan ch with dq := bs }

/-- Aperture offset of a byte of an aperture row (R92). -/
def apertureOff (bank row byte : Nat) : Nat := bank * 0x80000 + row * 2048 + byte

/-- A read burst of aperture registers: the words are sampled together, then the reads' side effects happen (R93). -/
def State.readAperture (s : State) (ch off n : Nat) : State :=
  let words := (List.range (n / 4)).map fun i => off + 4 * i
  let bs := words.flatMap fun o => toBytes 4 (s.regValue o)
  (s.each words fun s o => s.regLatch o).putDq ch bs

/-- Bytes of a write burst: each with its offset in the row, masked ones as none. -/
abbrev Burst := List (Option Byte)

/-- A write burst to registers, in ascending order: a register takes a whole word (R93); where no register lies nothing
happens (22_register_index.md R650). -/
def State.writeAperture (s : State) (off : Nat) (burst : Burst) : State :=
  s.each (List.range (burst.length / 4)) fun s i =>
    let w := (burst.drop (4 * i)).take 4
    let bs := w.filterMap id
    if bs.length = 4 then s.regWrite (off + 4 * i) (ofBytes bs)
    else if bs.isEmpty || s.noReg (off + 4 * i) then s
    else s.note fcFdPartial

/-- A write burst to registers that an unchecked violation spoils: each register that it addresses may take an undefined
value or none (R90). -/
def State.spoilAperture (s : State) (off n : Nat) : State :=
  s.each (List.range (n / 4)) fun s i =>
    let (k, s) := s.fresh
    if Config.freeBool k then s.regWrite (off + 4 * i) ((Config.freeWord k).toNat % 2 ^ 32) else s

/-- The same for a doorbell row. -/
def State.spoilDoorbells (s : State) (ch n : Nat) : State :=
  s.each (List.range (n / 8)) fun s _ =>
    let (k, s) := s.fresh
    if Config.freeBool k then s.doorbell ch (Config.freeWord k) else s

/-- A write burst to a doorbell row: each whole word passes to the ring logic (R94; 04_rings_and_doorbells.md R126). -/
def State.writeDoorbells (s : State) (ch : Nat) (burst : Burst) : State :=
  s.each (List.range (burst.length / 8)) fun s i =>
    let bs := ((burst.drop (8 * i)).take 8).filterMap id
    if bs.length = 8 then s.doorbell ch (BitVec.ofNat 64 (ofBytes bs)) else s

/-- The effect of a burst's own fit and of the ACT that opened an aperture or doorbell row. -/
def Fit.over (f : Fit) (b : RowBuf) : Fit :=
  match f, b.fit with
  | .caught, _ => .caught
  | _, .caught => .caught
  | .fits, g => g
  | .missed, _ => .missed

/-- A read burst of `n` bytes from byte `at_` of the open row (R79, R82). Undefined data of an aperture row come without the
read's side effects where the violation is a checked one, and with or without them where it is not (R90 does not say). -/
def State.readBurst (s : State) (ch bank at_ n : Nat) (fit : Fit) : State :=
  let c := s.chan ch
  let late := s.early (tfind c.lastAct bank) 36
  let s := s.violate ch (b2n late)
  let fit := fit.with_ late
  let undefined := fun (s : State) => let (bs, s) := s.freeBytes n; s.putDq ch bs
  match tfind c.open_ bank with
  | none => undefined s
  | some b =>
    if isAperture ch bank b.row then
      match fit.over b with
      | .fits => s.readAperture ch (apertureOff bank b.row at_) n
      | .caught => undefined s
      | .missed =>
        let (k, s) := s.fresh
        undefined (if Config.freeBool k then s.readAperture ch (apertureOff bank b.row at_) n else s)
    else if isDoorbell bank b.row then
      if fit.over b ≠ .fits then undefined s else s.putDq ch (List.replicate n 0)
    else if fit ≠ .fits then undefined s
    else s.putDq ch (mread b.data at_ n)

/-- Lay the written bytes of a burst over a row. -/
def layBurst (m : Mem) (at_ : Nat) (burst : Burst) : Mem :=
  (burst.zipIdx).foldl (fun m x => match x.1 with
    | some b => tput 0 m (at_ + x.2) b
    | none => m) m

/-- Sectors in which a burst writes a byte. -/
def burstSectors (at_ : Nat) (burst : Burst) : List Nat :=
  (List.range (burst.length / 32)).filterMap fun i =>
    if ((burst.drop (32 * i)).take 32).any fun b => b.isSome then some (at_ / 32 + i) else none

/-- The open row of a bank takes a write burst: the sectors it touches are dirty. -/
def State.layRow (s : State) (ch bank : Nat) (b : RowBuf) (at_ : Nat) (burst : Burst) : State :=
  let c := s.chan ch
  let dirty := (burstSectors at_ burst).foldl (fun d i => d ||| 1#64 <<< i) b.dirty
  s.setChan ch { c with open_ := tset c.open_ bank { b with data := layBurst b.data at_ burst, dirty := dirty } }

/-- A write burst from byte `at_` of the open row (R79, R82, R93, R94, R113). Link ECC reports nothing unless MR22 enables it
(R96). Two points that the manual leaves open, DESIGN CHOICE, assumption 27: a write inside tRCD is both a write that R83
keeps and a violation of R90, and its bytes are undefined; tWR (R98) runs from the WR command's own instant. -/
def State.writeBurst (s : State) (ch bank at_ : Nat) (burst : Burst) (ecc : LinkEcc) (fit : Fit) : State :=
  let c := s.chan ch
  let late := s.early (tfind c.lastAct bank) 36
  let s := s.violate ch (b2n late)
  let fit := fit.with_ late
  let ecc := if c.writeEcc then ecc else .ok
  match tfind c.open_ bank with
  | none => s
  | some b =>
    let s := s.setChan ch { s.chan ch with lastWr := tset c.lastWr bank s.now }
    if ecc = .uncorrectable then (s.bump (Reg.fdLinkErrUncorr.ix ch)).note fcFdLink ch
    else
      let s := if ecc = .corrected then s.bump (Reg.fdLinkErrCorr.ix ch) else s
      if isAperture ch bank b.row then
        match fit.over b with
        | .fits => s.writeAperture (apertureOff bank b.row at_) burst
        | .caught => s
        | .missed => s.spoilAperture (apertureOff bank b.row at_) burst.length
      else if isDoorbell bank b.row then
        match fit.over b with
        | .fits => s.writeDoorbells ch burst
        | .caught => s
        | .missed => s.spoilDoorbells ch burst.length
      else if fit ≠ .fits then
        let (bs, s) := s.freeBytes burst.length
        s.layRow ch bank b at_ (bs.map some)
      else s.layRow ch bank b at_ burst

/-- A burst in which every byte is written. -/
def wholeBurst (n : Nat) (data : Nat) : Burst := (toBytes n data).map some

/-- A masked burst: bytes whose mask bit is 1 stay. -/
def maskedBurst (n data mask : Nat) : Burst :=
  ((toBytes n data).zipIdx).map fun x => if mask.testBit x.2 then none else some x.1

/-! ### Host away and the other states (R105) -/

/-- Self-refresh or deep sleep is entered. -/
def State.goAway (s : State) (ch : Nat) (deep : Bool) : State :=
  let c := s.chan ch
  s.setChan ch { c with away := c.away || !deep, deep := deep, wck := false }

/-- Self-refresh ends. -/
def State.comeBack (s : State) (ch : Nat) : State := s.setChan ch { s.chan ch with away := false }

/-- Deep sleep ends; it is taken as SRX is. -/
def State.deepExit (s : State) (ch : Nat) : State :=
  if !s.regOpen then s
  else
    let s := if (s.chan ch).misfit then s.violate ch else s
    let s := if (s.chan ch).deep then s.setChan ch { s.chan ch with deep := false, away := false } else s
    s.tookCommand ch .deepOut 16

/-- A training procedure leaves results that software cannot see. -/
def State.trains (s : State) (ch : Nat) : State :=
  let (k, s) := s.fresh
  s.setChan ch { s.chan ch with trained := Config.freeWord k }

/-- CAS (R79): WCK synchronisation starts or stops; the rate is the one the host operates the channel at. -/
def State.cas (s : State) (ch : Nat) (op : CasOp) : State :=
  let c := s.chan ch
  match op with
  | .sync r => s.setChan ch { c with wck := true, rate := r }
  | .fs => s.setChan ch { c with wck := true }
  | .off => s.setChan ch { c with wck := false }

/-- A WCK-to-DQ oscillator whose run time is programmed has stopped by itself at its end: its count, that of the delay
monitor, is free (R96). -/
def State.oscSettle (s : State) (ch : Nat) : State :=
  let c := s.chan ch
  match c.oscStart, c.oscRun with
  | some t, some n =>
    if s.now < t + n then s
    else
      let (k, s) := s.fresh
      s.setChan ch { c with oscStart := none, oscCount := (Config.freeWord k).extractLsb' 0 16 }
  | _, _ => s

/-- MPC (R79, R96): ZQ has no visible effect, the oscillator starts, or stops with its count. -/
def State.mpc (s : State) (ch : Nat) (op : MpcOp) : State :=
  let c := s.chan ch
  match op with
  | .oscStart => s.setChan ch { c with oscStart := some s.now }
  | .oscStop n =>
    let s := s.oscSettle ch
    let c := s.chan ch
    if c.oscStart.isSome then s.setChan ch { c with oscStart := none, oscCount := n } else s
  | .zqStart | .zqLatch | .other => s

/-- Depth of the write-training FIFO (PRESUMED from JESD209-5C, assumption 21). -/
def fifoDepth : Nat := 8

/-- WFF (R99); the data of a burst that does not fit are undefined (R90). -/
def State.fifoWrite (s : State) (ch : Nat) (x : BitVec 256) (fit : Fit) : State :=
  let (bs, s) := if fit = .fits then (toBytes 32 x.toNat, s) else s.freeBytes 32
  let x := BitVec.ofNat 256 (ofBytes bs)
  let c := s.chan ch
  let f := c.fifo ++ [x]
  (s.setChan ch { c with fifo := f.drop (f.length - fifoDepth) }).trains ch

/-- RFF (R99): the entries come out in the order they went in, round and round; an empty FIFO gives undefined data. -/
def State.fifoRead (s : State) (ch : Nat) (fit : Fit) : State :=
  let c := s.chan ch
  let undefined := fun (s : State) => let (bs, s) := s.freeBytes 32; s.putDq ch bs
  match c.fifo with
  | [] => undefined s
  | x :: r =>
    let s := s.setChan ch { c with fifo := r ++ [x] }
    (if fit = .fits then s.putDq ch (toBytes 32 x.toNat) else undefined s).trains ch

/-- RDC (R99): each lane gives its byte's pattern, inverted where its mask bit says so: MR33 and MR34 hold the patterns of
the two byte lanes, MR31 and MR32 their masks (PRESUMED from JESD209-5C, assumption 21). -/
def State.calibration (s : State) (ch : Nat) : List Byte :=
  let c := s.chan ch
  let mr := fun n => c.mrAt c.fspWrite n
  let lane := fun (pat mask i : Nat) => BitVec.ofNat 8 (if pat.testBit (i % 8) then 255 - mask else mask)
  (List.range 16).flatMap fun i => [lane (mr 33) (mr 31) i, lane (mr 34) (mr 32) i]

/-- RDC returns its patterns. -/
def State.readCalibration (s : State) (ch : Nat) (fit : Fit) : State :=
  if fit ≠ .fits then let (bs, s) := s.freeBytes 32; s.putDq ch bs
  else (s.putDq ch (s.calibration ch)).trains ch

/-- MRR returns its value; undefined where the organisation does not fit the data rate. -/
def State.mrAnswer (s : State) (ch mr : Nat) (fit : Fit) : State :=
  let s := s.oscSettle ch
  let (k, s) := s.fresh
  s.setChan ch { s.chan ch with mrData := if fit = .fits then s.mrRead ch mr else Config.freeByte k }

/-- A doorbell word on a channel that takes commands (04_rings_and_doorbells.md R126). -/
def State.bell (s : State) (ch : Nat) (w : BitVec 64) : State := if s.doorOpen ch then s.doorbell ch w else s

/-- LPDDR RESET_n falls (R102): dirty sectors go to the write-back queue, mode registers and training are gone; an FDR. -/
def State.fdr (s : State) (ch : Nat) : State :=
  if !s.regOpen then s
  else
    let s := s.each (List.range 16) fun s b => s.closeBank ch b
    let s := s.setChan ch { queue := (s.chan ch).queue }
    let s := s.setReg Reg.fdStatusInitDone (s.reg Reg.fdStatusInitDone &&& (15 - 1 <<< ch))
    s.cause 6 14 ch

/-! ### Write-backs and the spill area (R84, R85) -/

/-- Sectors of an older pending write-back that a newer one has written home. -/
def WriteBack.without (w n : WriteBack) : WriteBack :=
  if w.ch == n.ch && w.bank == n.bank && w.row == n.row && w.seq < n.seq then { w with dirty := w.dirty &&& ~~~n.dirty } else w

/-- A write-back reaches its row's home; older pending copies of its sectors no longer count. -/
def State.land (s : State) (w : WriteBack) : State :=
  let s := s.applyWriteBack w
  let s := s.setChan w.ch { s.chan w.ch with queue := (s.chan w.ch).queue.map fun x => x.without w }
  { s with fd := { s.fd with spill := s.fd.spill.map fun x => x.without w } }

/-- The head row of a queue is written back, if its slice can take it. -/
def State.writeBackHead (s : State) (ch : Nat) : State :=
  match (s.chan ch).queue with
  | [] => s
  | w :: r =>
    if !s.mainUp || !s.sliceOpen w.ch w.bank then s
    else (s.setChan ch { s.chan ch with queue := r }).land w

/-- The head row has waited 2 µs: its sectors go to the spill area. -/
def State.spillHead (s : State) (ch : Nat) : State :=
  match (s.chan ch).queue with
  | [] => s
  | w :: r =>
    if !s.mainUp || s.now < w.queuedAt + us 2 then s
    else
      let s := s.setChan ch { s.chan ch with queue := r }
      { s with fd := { s.fd with spill := s.fd.spill ++ [w] } }

/-- The oldest row of the spill area whose slice can take it is merged back. -/
def State.mergeSpill (s : State) : State :=
  match s.fd.spill.find? fun w => s.sliceOpen w.ch w.bank with
  | none => s
  | some w =>
    if !s.mainUp then s
    else ({ s with fd := { s.fd with spill := s.fd.spill.filter fun x => x != w } }).land w

end Sys2Proof.Machine
end

