-- ==== Sys2Proof/Machine/DoorCommands.lean ====
section
/-! DEFINITION. The commands of the Front Door's channels (03_front_door.md). -/

namespace Sys2Proof.Machine

/-- ACT (03_front_door.md R81): An ACT command opens a row and fills the bank's row buffer from pending write-backs,
spill or the window slice. -/
def execAct (t : Nat) (ch : Fin 4) (bank : Fin 16) (row : Fin 8192) (s : State) : Host.Outcome State Fault Refusal :=
  finish ((s.at_ t).command ch .act bank false false fun s fit => s.activate ch bank row fit).onward

/-- RD16 (03_front_door.md R79): RD16 returns 32 bytes from the row buffer at the programmed read latency. -/
def execRd16 (t : Nat) (ch : Fin 4) (bank : Fin 16) (col : Fin 64) (s : State) : Host.Outcome State Fault Refusal :=
  finish ((s.at_ t).command ch .read bank false false fun s fit => s.readBurst ch bank (32 * col.val) 32 fit).onward

/-- RD32 (03_front_door.md R79): RD32 returns 64 bytes from the row buffer at the programmed read latency. -/
def execRd32 (t : Nat) (ch : Fin 4) (bank : Fin 16) (col : Fin 32) (s : State) : Host.Outcome State Fault Refusal :=
  finish ((s.at_ t).command ch .read bank false false fun s fit => s.readBurst ch bank (64 * col.val) 64 fit).onward

/-- WR16 (03_front_door.md R82): WR16 writes 32 bytes into the row buffer and sets the dirty bits of the sectors it
touches. -/
def execWr16 (t : Nat) (ch : Fin 4) (bank : Fin 16) (col : Fin 64) (data : BitVec 256) (ecc : LinkEcc)
    (s : State) : Host.Outcome State Fault Refusal :=
  finish ((s.at_ t).command ch .write bank false false fun s fit => s.writeBurst ch bank (32 * col.val) (wholeBurst 32 data.toNat) ecc fit).onward

/-- WR32 (03_front_door.md R82): WR32 writes 64 bytes into the row buffer and sets the dirty bits of the sectors it
touches. -/
def execWr32 (t : Nat) (ch : Fin 4) (bank : Fin 16) (col : Fin 32) (data : BitVec 512) (ecc : LinkEcc)
    (s : State) : Host.Outcome State Fault Refusal :=
  finish ((s.at_ t).command ch .write bank false false fun s fit => s.writeBurst ch bank (64 * col.val) (wholeBurst 64 data.toNat) ecc fit).onward

/-- MWR (03_front_door.md R79): A masked write updates the row buffer and leaves the masked bytes unchanged. -/
def execMwr (t : Nat) (ch : Fin 4) (bank : Fin 16) (col : Fin 64) (data : BitVec 256) (mask : BitVec 32)
    (ecc : LinkEcc) (s : State) : Host.Outcome State Fault Refusal :=
  finish ((s.at_ t).command ch .masked bank false false fun s fit => s.writeBurst ch bank (32 * col.val) (maskedBurst 32 data.toNat mask.toNat) ecc fit).onward

/-- PREPB (03_front_door.md R84): PREpb closes one bank and moves its dirty sectors into the channel's write-back queue.
-/
def execPrepb (t : Nat) (ch : Fin 4) (bank : Fin 16) (s : State) : Host.Outcome State Fault Refusal :=
  finish ((s.at_ t).command ch .pre bank false false fun s fit => s.precharge ch bank 30 fit).onward

/-- PREAB (03_front_door.md R84): PREab closes every bank and moves their dirty sectors into the write-back queue. -/
def execPreab (t : Nat) (ch : Fin 4) (s : State) : Host.Outcome State Fault Refusal :=
  finish ((s.at_ t).command ch .preAll 16 false false fun s fit => s.each (List.range 16) fun s b => s.precharge ch b 33 fit).onward

/-- REFPB (03_front_door.md R79): A per-bank refresh is accepted with its timing and has no other effect. -/
def execRefpb (t : Nat) (ch : Fin 4) (bank : Fin 16) (s : State) : Host.Outcome State Fault Refusal :=
  finish ((s.at_ t).command ch .ref bank false false fun s _ => s).onward

/-- REFAB (03_front_door.md R79): An all-bank refresh is accepted with its timing and has no other effect. -/
def execRefab (t : Nat) (ch : Fin 4) (s : State) : Host.Outcome State Fault Refusal :=
  finish ((s.at_ t).command ch .refAll 16 false false fun s _ => s).onward

/-- RFM (03_front_door.md R79): An RFM command is ignored. -/
def execRfm (t : Nat) (ch : Fin 4) (s : State) : Host.Outcome State Fault Refusal :=
  finish ((s.at_ t).command ch .rfm 16 false false fun s _ => s).onward

/-- SRE (03_front_door.md R105): Self-refresh entry sets the channel's HOST_AWAY bit and gates its interface clocks. -/
def execSre (t : Nat) (ch : Fin 4) (s : State) : Host.Outcome State Fault Refusal :=
  finish ((s.at_ t).command ch .sre 16 false false fun s _ => s.goAway ch false).onward

/-- SRX (03_front_door.md R105): Self-refresh exit clears HOST_AWAY, and the channel accepts commands after the exit
time. -/
def execSrx (t : Nat) (ch : Fin 4) (s : State) : Host.Outcome State Fault Refusal :=
  finish ((s.at_ t).command ch .srx 16 true false fun s _ => s.comeBack ch).onward

/-- PDE (03_front_door.md R79): Power-down entry; open rows stay open. -/
def execPde (t : Nat) (ch : Fin 4) (s : State) : Host.Outcome State Fault Refusal :=
  finish ((s.at_ t).command ch .pde 16 true false fun s _ => s.setChan ch { s.chan ch with powerDown := true }).onward

/-- PDX (03_front_door.md R79): Power-down exit. -/
def execPdx (t : Nat) (ch : Fin 4) (s : State) : Host.Outcome State Fault Refusal :=
  finish ((s.at_ t).command ch .pdx 16 true true fun s _ => s.setChan ch { s.chan ch with powerDown := false }).onward

/-- DEEP_SLEEP_ENTRY (03_front_door.md R105): Deep-sleep entry is taken as host away, as SRE is. -/
def execDeepSleepEntry (t : Nat) (ch : Fin 4) (s : State) : Host.Outcome State Fault Refusal :=
  finish ((s.at_ t).command ch .deepIn 16 false false fun s _ => s.goAway ch true).onward

/-- DEEP_SLEEP_EXIT (03_front_door.md R105): Deep-sleep exit ends host away, as SRX does. -/
def execDeepSleepExit (t : Nat) (ch : Fin 4) (s : State) : Host.Outcome State Fault Refusal :=
  finish ((s.at_ t).deepExit ch).onward

/-- MRW (03_front_door.md R96): A mode-register write stores and applies the value, or keeps the previous value for an
unsupported option and raises an FD_UNSUPPORTED note. -/
def execMrw (t : Nat) (ch : Fin 4) (mr : Fin 64) (v : Byte) (s : State) : Host.Outcome State Fault Refusal :=
  finish ((s.at_ t).command ch .mrw 16 true false fun s _ => s.mrWrite ch mr v.toNat).onward

/-- MRR (03_front_door.md R96): A mode-register read returns the value that the SH16 defines for that register. -/
def execMrr (t : Nat) (ch : Fin 4) (mr : Fin 64) (s : State) : Host.Outcome State Fault Refusal :=
  finish ((s.at_ t).command ch .mrr 16 true false fun s fit => s.mrAnswer ch mr fit).onward

/-- CAS (03_front_door.md R79): A CAS command starts or stops WCK synchronisation. -/
def execCas (t : Nat) (ch : Fin 4) (op : CasOp) (s : State) : Host.Outcome State Fault Refusal :=
  guarded (Instr.cas t ch op).wellFormed ((s.at_ t).command ch .cas 16 true false fun s _ => s.cas ch op).onward

/-- WFF (03_front_door.md R99): A training FIFO write. -/
def execWff (t : Nat) (ch : Fin 4) (data : BitVec 256) (s : State) : Host.Outcome State Fault Refusal :=
  finish ((s.at_ t).command ch .wff 16 true false fun s fit => s.fifoWrite ch data fit).onward

/-- RFF (03_front_door.md R99): A training FIFO read. -/
def execRff (t : Nat) (ch : Fin 4) (s : State) : Host.Outcome State Fault Refusal :=
  finish ((s.at_ t).command ch .rff 16 true false fun s fit => s.fifoRead ch fit).onward

/-- RDC (03_front_door.md R99): Read DQ calibration returns the patterns of MR31 to MR34. -/
def execRdc (t : Nat) (ch : Fin 4) (s : State) : Host.Outcome State Fault Refusal :=
  finish ((s.at_ t).command ch .rdc 16 true false fun s fit => s.readCalibration ch fit).onward

/-- MPC (03_front_door.md R79): An MPC command starts or latches ZQ, or starts or stops the oscillator; other operations
are ignored. -/
def execMpc (t : Nat) (ch : Fin 4) (op : MpcOp) (s : State) : Host.Outcome State Fault Refusal :=
  finish ((s.at_ t).command ch .mpc 16 true false fun s _ => s.mpc ch op).onward

/-- NOP (03_front_door.md R79): NOP has no effect. -/
def execNop (t : Nat) (ch : Fin 4) (s : State) : Host.Outcome State Fault Refusal :=
  finish ((s.at_ t).noCommand ch).onward

/-- DES (03_front_door.md R79): DES has no effect. -/
def execDes (t : Nat) (ch : Fin 4) (s : State) : Host.Outcome State Fault Refusal :=
  finish ((s.at_ t).noCommand ch).onward

/-- WRITEBACK_START (03_front_door.md R84): The write-back queue starts writing its head row back to its window slice.
-/
def execWritebackStart (t : Nat) (ch : Fin 4) (s : State) : Host.Outcome State Fault Refusal :=
  finish ((s.at_ t).writeBackHead ch).onward

/-- WRITEBACK_TIMEOUT (03_front_door.md R85): A write-back cannot reach its window slice within 2 µs, so its dirty
sectors go to the spill area. -/
def execWritebackTimeout (t : Nat) (ch : Fin 4) (s : State) : Host.Outcome State Fault Refusal :=
  finish ((s.at_ t).spillHead ch).onward

/-- SPILL_MERGE (03_front_door.md R85): A row held in the spill area is merged back into its window slice. -/
def execSpillMerge (t : Nat) (s : State) : Host.Outcome State Fault Refusal := finish (s.at_ t).mergeSpill.onward

/-- LPDDR_RESET (03_front_door.md R102): The host's RESET_n falls on a channel, causing an FDR that writes back open
buffers and resets the mode registers and training. -/
def execLpddrReset (t : Nat) (ch : Fin 4) (s : State) : Host.Outcome State Fault Refusal :=
  finish ((s.at_ t).fdr ch).onward

/-- WINDOW_SCRUB (03_front_door.md R107): The background window scrub clears the remaining scrub-pending marks after a
tenant switch. -/
def execWindowScrub (t : Nat) (s : State) : Host.Outcome State Fault Refusal := finish (s.at_ t).windowScrub.onward

/-- FD_CLR_CNT (03_front_door.md R112): Writing 1 to FD_CTRL.CLR_CNT clears FD_LINK_ERR0 to FD_LINK_ERR3 and FD_VIOL. -/
def execFdClrCnt (t : Nat) (v : Word) (s : State) : Host.Outcome State Fault Refusal :=
  finish ((s.at_ t).hostWrite 0x5000 v).onward

end Sys2Proof.Machine
end

