-- ==== Sys2Proof/Machine/Upkeep.lean ====
section
/-! DEFINITION. What the device does by itself between the host's commands: the Cellar's refresh polls and training, page
moves, zeroing and the background scrubber (08_memory_tiers.md), batch deadlines (05_steps_and_wings.md R189), wake inputs
and timers (14_power.md R475, R477), the end of an STR (15_resets_and_retention.md R483), link replays, and the classifier's
reports and conditions (19_fusebox.md). -/

namespace Sys2Proof.Machine

/-! ### Cellar -/

/-- CELLAR_MR4_POLL (R261, R263): a fitted channel takes the refresh rate its devices report; a change to above 4x raises
CEL_HOT. -/
def State.cellarPoll (s : State) (ch code : Nat) : State :=
  if !s.mainUp || !s.sty.up || !s.celFitted ch then s
  else
    let old := s.reg Reg.celStatusRefmult
    let s := s.setReg Reg.celStatusRefmult (putBits old (2 * ch) 2 code)
    if code = 3 && bitsAt old (2 * ch) 2 ≠ 3 then s.note fcCelHot ch else s

/-- CELLAR_TRAINING_COMPLETE (15_resets_and_retention.md R484, R486): accesses held for Cellar pages go on. -/
def State.cellarTrained (s : State) : State :=
  if !s.mainUp || !s.rst.cellarWait then s
  else
    let s := s.setReg Reg.celStatusTrained (maskOf s.celChannels)
    let s := { s with rst := { s.rst with cellarWait := false } }
    let s := s.setReg Reg.rstBootPhase (if s.safeFloor then 7 else 0)
    s.each ((s.deed.held.map fun h => h.page).foldl sins []) fun s page =>
      match s.pageView page with
      | .held => s
      | _ => s.applyHeld page

/-! ### Moves and zeroing -/

/-- A page's frame in a home takes the bytes of another frame, as ciphertext is carried (R278). -/
def State.copyFrame (s : State) (home frame home' frame' : Nat) : State :=
  let src := spaceKey home (frame * 65536)
  let dst := spaceKey home' (frame' * 65536)
  let s := s.clearBad home' (s.badIn home' (frame' * 65536) 65536)
  let moved := s.mem.filter fun e => src ≤ e.1 && e.1 < src + 65536
  { s with mem := moved.foldl (fun m e => tput 0 m (dst + (e.1 - src)) e.2) (tclear s.mem dst 65536) }

/-- A frame is zeroed; every unit of it is written. -/
def State.zeroFrame (s : State) (home frame : Nat) : State :=
  let s := s.clearBad home (s.badIn home (frame * 65536) 65536)
  { s with mem := tclear s.mem (spaceKey home (frame * 65536)) 65536 }

/-- PAGE_MOVE_COMPLETE (R278, R281): the entry takes its new place and the held accesses go on, or, after an uncorrectable
source read, the page stays where it was; mode 3 then zeroes a page that is SCRUB_PENDING. `bad` is a unit that the source
read finds uncorrectable. -/
def State.moveEnds (s : State) (page : Nat) (bad : Option (Fin 1024)) : State :=
  match s.deed.moves.find? fun m => m.page == page && !m.remote with
  | none => s
  | some m =>
    let e := m.entry.toNat
    let off := dFrame e * 65536
    -- an entry that has failed meanwhile stays FAILED (R302)
    if dState (s.deedOf page) ≠ 2 then s.moveBack m fun p => p.failAt m.idx
    else
    let s := match bad with
      | some u => s.markBad (dHome e) (off + 64 * u.val)
      | none => s
    let l := s.badIn (dHome e) off 65536
    if !l.isEmpty then (s.reportBad (dHome e) l).moveBack m fun p => p.failAt m.idx
    else
      let s := s.copyFrame (dHome e) (dFrame e) m.home m.frame
      let st := if dState e = 3 then 3 else 1
      let now := s.deedOf page
      let s := s.setDeed page (mkDeed m.home st (dClass now) (dArg now) (dEpoch e) m.frame)
      let s := s.dropMove page
      match m.zero, m.job with
      | true, some id =>
        let s := s.setDeed page (putBits (s.deedOf page) 5 3 4)
        { s with deed := { s.deed with zeroJobs := s.deed.zeroJobs ++ [(page, id, m.idx)] } }
      | _, _ => (s.applyHeld page).placeStep m.job

/-- A page in ZEROING is zero and RESIDENT under the current epoch (R283). -/
def State.zeroPage (s : State) (page : Nat) : State :=
  let e := s.deedOf page
  let s := s.zeroFrame (dHome e) (dFrame e)
  s.setDeed page (mkDeed (dHome e) 1 (dClass e) (dArg e) s.epoch (dFrame e))

/-- ZEROING_COMPLETE (R283): the writes that waited are applied, and a mode 3 request goes on. -/
def State.zeroEnds (s : State) (page : Nat) : State :=
  if !s.mainUp || dState (s.deedOf page) ≠ 4 then s
  else
    let jobs := s.deed.zeroJobs.filter fun z => z.1 == page
    let s := { s.zeroPage page with deed := { (s.zeroPage page).deed with
      zeroJobs := s.deed.zeroJobs.filter fun z => z.1 != page } }
    (s.applyHeld page).each jobs fun s z => s.placeStep (some z.2.1)

/-- SCRUB_PAGE (R284): the next SCRUB_PENDING page in ascending UPA order, from the page last zeroed on, enters ZEROING;
ZEROING_COMPLETE ends it. `bad` is a unit that the scrubber finds uncorrectable (R299); zeroing replaces it. -/
def State.scrubNext (s : State) (bad : Option (Fin 1024)) : State :=
  if !s.mainUp then s
  else
    let l := s.scrubPages
    match (l.find? fun p => s.deed.scrubPos.all fun q => q < p).or l.head? with
    | none => s
    | some page =>
      let e := s.deedOf page
      let off := dFrame e * 65536
      let s := match bad with
        | some u => s.markBad (dHome e) (off + 64 * u.val)
        | none => s
      let s := (s.reportBad (dHome e) (s.badIn (dHome e) off 65536)).setDeed page (putBits e 5 3 4)
      { s with deed := { s.deed with scrubPos := some page } }

/-! ### Batches -/

/-- BATCH_DEADLINE (R189). -/
def State.batchLate (s : State) (wing : Nat) : State :=
  s.releaseWhere fun b => b.wing == wing && b.since + us (s.reg (Reg.spBatchDeadlineUs.ix wing)) ≤ s.now

/-! ### Wakes (R475, R477) -/

/-- WAKE_IN has been high for 10 ms. -/
def State.wakeRise (s : State) : State :=
  if s.pins.wakeIn then s
  else
    let s := { s with pins := { s.pins with wakeIn := true } }
    if !s.pwr.aonGood then s else ((s.setFlag Reg.pwrStatusWakeIn true).log 4 1).wakeBy 2

/-- WAKE_IN is low again. -/
def State.wakeFall (s : State) : State :=
  if !s.pins.wakeIn then s
  else
    let s := { s with pins := { s.pins with wakeIn := false } }
    if !s.pwr.aonGood then s else (s.setFlag Reg.pwrStatusWakeIn false).log 4 0

/-- A rising edge on MGMT_WAKE. -/
def State.mgmtWake (s : State) : State := if s.pwr.aonGood then s.wakeBy 3 else s

/-- The state is S2 or S3, at least `n` seconds since it was entered; 0 disables. -/
def State.asleepFor (s : State) (n : Nat) : Bool :=
  n != 0 && (s.pwr.state == .s2 || s.pwr.state == .s3) && s.pwr.sleptAt + ms (1000 * n) ≤ s.now

/-- The wake timer expires. -/
def State.wakeTimer (s : State) : State :=
  if s.pwr.aonGood && s.asleepFor (s.reg Reg.pwrWakeTimerSeconds) then s.wakeBy 5 else s

/-- S3_AFTER_MIN minutes in S2. -/
def State.s3Late (s : State) : State :=
  if s.pwr.state == .s2 && s.asleepFor (60 * s.reg Reg.pwrRetainS3AfterMin) then s.s3FromS2 else s

/-! ### The Study's restart (R483; 16_study.md R535) -/

/-- STUDY_RESTART_COMPLETE: the Study answers again; a PCR or an MDR that an activation ordered follows. -/
def State.strEnds (s : State) : State :=
  if !s.rst.strBusy then s
  else
    let pcr := s.rst.afterPcr
    let mdr := s.rst.afterMdr
    let s := { s with sty := { s.sty with up := true }
                      rst := { s.rst with strBusy := false, afterPcr := false, afterMdr := false } }
    let s := if pcr then s.pcr 11 else s
    if mdr then s.orderMdr 11 else s

/-! ### Links -/

/-- PACKET_NAK (18_party_wall.md R575). -/
def State.replay (s : State) (p : Nat) : State :=
  if s.linksUp && s.portUp p then s.bump (Reg.pwPortReplays.ix p) else s

/-- PEER_LOST (18_party_wall.md R588): a peer that was reached, or that a job still counts on, is lost. -/
def State.peerGone (s : State) (pos : Nat) : State :=
  if s.linksUp && pos != s.reg Reg.pwIdPos && (s.reaches pos || !(s.jobsWith pos).isEmpty) then s.losePeer pos else s

/-- A packet of the type that its command names; any other packet is another command's. -/
def State.typed (s : State) (p : Packet) (type : Nat) (f : State → State) : State := if p.type = type then f s else s

/-! ### Watchdogs and MUTE -/

/-- PORCH_WATCHDOG (15_resets_and_retention.md R481). -/
def State.watchdogPcr (s : State) : State :=
  if s.pwr.aonGood && !s.rst.resetLow && s.pwr.state != .s3 then s.pcr 13 else s

/-- STUDY_WATCHDOG (16_study.md R504). -/
def State.watchdogStr (s : State) : State := if s.sty.up then s.str 12 else s

/-- MUTE_WRITE (13_porch.md R423): POR_CTRL is written as it reads, with MUTE as given. -/
def State.muteWritten (s : State) (m : Bool) : State :=
  s.hostWrite Reg.porCtrlMute.off (BitVec.ofNat 32 (putBits (s.regValue Reg.porCtrlMute.off) Reg.porCtrlMute.lo 1 (b2n m)))

/-! ### The classifier (19_fusebox.md R590 to R594, R602) -/

/-- Take one report of a list out of it. -/
def takeReport (l : List Report) (r : Report) : List Report :=
  match l with
  | [] => []
  | x :: rest => if x = r then rest else x :: takeReport rest r

/-- The class is one that the companion die's blocks raise (22_register_index.md R649): Porch, Keyhole, supplies, clocks,
temperature, Study, and the classifier's own. -/
def aonClass (c : Byte) : Bool := (0x38 ≤ c.toNat && c.toNat < 0x50) || c = fcFbOverflow

/-- FAULT_REPORT: a report reaches the classifier, from the collector's queue or the companion die's where it waits
there; a record that reaches L4 sets off the stop. While the main die is unpowered it raises and forwards nothing (R590). A
report that no queue holds is one that this command itself brings: it is raised now. -/
def State.report (s : State) (r : Report) : State :=
  if !s.pwr.aonGood || (!s.pwr.mainGood && !aonClass r.cls && !s.fb.direct.contains r) then s
  else
    let s := if s.fb.direct.contains r then { s with fb := { s.fb with direct := takeReport s.fb.direct r } }
      else if s.fb.collector.contains r then { s with fb := { s.fb with collector := takeReport s.fb.collector r } }
      else s.markL2 (1 ≤ r.level.val)
    let stops := fun (s : State) => (s.fb.recs.filter fun e => e.2.level == 3).length
    let had := stops s
    let s := s.classify r
    if had < stops s then s.stopNow else s

/-- FAULT_CONDITION_END (R594). -/
def State.conditionEnds (s : State) (cls : Byte) (unit : BitVec 16) (detail : BitVec 64) : State :=
  let s := s.endCondition cls fun r => r.unit == unit && r.detail == detail
  if cls = fcSupplyWarn then s.railReturned unit.toNat else s

end Sys2Proof.Machine
end

