-- ==== Sys2Proof/Machine/FuseboxCommands.lean ====
section
/-! DEFINITION. The commands of the Fusebox: reports, acknowledgements, tests and repair (19_fusebox.md). -/

namespace Sys2Proof.Machine

/-- FAULT_REPORT (19_fusebox.md R593): A fault report reaches the classifier and is merged, escalated or recorded,
driving pins and attention. -/
def execFaultReport (t : Nat) (r : Report) (s : State) : Host.Outcome State Fault Refusal :=
  finish ((s.at_ t).report r).onward

/-- FAULT_CONDITION_END (19_fusebox.md R594): The condition of an ACTIVE record ends and ACTIVE becomes 0. -/
def execFaultConditionEnd (t : Nat) (cls : Byte) (unit : BitVec 16) (detail : BitVec 64)
    (s : State) : Host.Outcome State Fault Refusal :=
  finish ((s.at_ t).conditionEnds cls unit detail).onward

/-- FB_ACK_SLOT (19_fusebox.md R598): Writing FB_ACK with KEY 0xA5 and a SLOT acknowledges that record. -/
def execFbAckSlot (t : Nat) (v : Word) (s : State) : Host.Outcome State Fault Refusal :=
  finish ((s.at_ t).hostWrite 0x2008 v).onward

/-- FB_ACK_ALL (19_fusebox.md R598): Writing FB_ACK with KEY 0xA5 and ALL set acknowledges every record. -/
def execFbAckAll (t : Nat) (v : Word) (s : State) : Host.Outcome State Fault Refusal :=
  finish ((s.at_ t).hostWrite 0x2008 v).onward

/-- ROTATING_TEST_COMPLETE (19_fusebox.md R607): A rotating tile test ends with a verdict, and a condemned unit is
fenced and recorded. -/
def execRotatingTestComplete (t : Nat) (verdict : Verdict) (s : State) : Host.Outcome State Fault Refusal :=
  finish ((s.at_ t).testEnd verdict).onward

/-- BOND_LANE_FAULT (19_fusebox.md R612): A Loft bond lane takes part in 16 corrected symbols within 1 ms and becomes
faulty. -/
def execBondLaneFault (t : Nat) (slice : Fin 18) (sub : Fin 8) (lane : Fin 146)
    (s : State) : Host.Outcome State Fault Refusal :=
  finish ((s.at_ t).laneFault slice sub lane).onward

end Sys2Proof.Machine
end

