-- ==== Sys2Proof/Machine/GalleryCommands.lean ====
section
/-! DEFINITION. The commands of the Gallery's streams and ports (12_gallery.md). -/

namespace Sys2Proof.Machine

/-- GAL_CLR_CNT (12_gallery.md R410): Writing 1 to GAL_CLR.CLR_CNT clears every Gallery count. -/
def execGalClrCnt (t : Nat) (v : Word) (s : State) : Host.Outcome State Fault Refusal :=
  finish ((s.at_ t).hostWrite 0x16084 v).onward

/-- FRAME_START (12_gallery.md R386): A frame start arrives on an input stream; FRAME advances and the frame-start event
is raised. -/
def execFrameStart (t : Nat) (src : CamSrc) (s : State) : Host.Outcome State Fault Refusal :=
  finish ((s.at_ t).frameStarts src).onward

/-- CSI_LINE (12_gallery.md R387): A line arrives and is measured against EXP_W, cut or completed under LINE_POLICY, and
processed. -/
def execCsiLine (t : Nat) (src : CamSrc) (kind : LineKind) (px : List Nat)
    (s : State) : Host.Outcome State Fault Refusal :=
  guarded (Instr.csiLine t src kind px).wellFormed ((s.at_ t).lineArrives src kind px).onward

/-- EMBEDDED_DATA_PACKET (12_gallery.md R399): An embedded-data packet is written as one row by each KIND 1 output
stream of its source. -/
def execEmbeddedDataPacket (t : Nat) (hdr : CsiHeader) (payload : CsiPayload)
    (s : State) : Host.Outcome State Fault Refusal :=
  guarded (Instr.embeddedDataPacket t hdr payload).wellFormed ((s.at_ t).embeddedArrives hdr payload).onward

/-- FRAME_END (12_gallery.md R388): A frame ends at its frame end or at the next frame start, and is padded or dropped
as needed, then delivered. -/
def execFrameEnd (t : Nat) (src : CamSrc) (s : State) : Host.Outcome State Fault Refusal :=
  finish ((s.at_ t).frameEnds src).onward

/-- FRAME_TIMEOUT (12_gallery.md R388): 2 × PERIOD_US after its start, a frame ends without a frame end. -/
def execFrameTimeout (t : Nat) (stream : Fin 24) (s : State) : Host.Outcome State Fault Refusal :=
  finish ((s.at_ t).frameTimesOut stream).onward

/-- FRAME_LATE (12_gallery.md R389): No frame start has arrived by the late bound, so the late event and a GAL_LATE note
are raised. -/
def execFrameLate (t : Nat) (stream : Fin 24) (s : State) : Host.Outcome State Fault Refusal :=
  finish ((s.at_ t).frameIsLate stream).onward

/-- LANE_POLARITY_INVERT (12_gallery.md R406): A CSI lane's HS sync byte arrives inverted, and the lane is inverted from
then on. -/
def execLanePolarityInvert (t : Nat) (port : Fin 12) (lane : Fin 4) (s : State) : Host.Outcome State Fault Refusal :=
  finish ((s.at_ t).laneInverts port lane).onward

/-- LANE_ORDER_FAULT (12_gallery.md R407): Two headers fail under LANE_MAP but pass under another order, so ORDER_FAULT
is set and packets are discarded. -/
def execLaneOrderFault (t : Nat) (port : Fin 12) (order : BitVec 8) (s : State) : Host.Outcome State Fault Refusal :=
  finish ((s.at_ t).laneOrder port order).onward

/-- LANE_FAULT (12_gallery.md R408): A data lane misses HS sync on two successive packets, so LANE_FAULT is set and a
GAL_WIRE fault is raised. -/
def execLaneFault (t : Nat) (port : Fin 12) (lane : Fin 4) (s : State) : Host.Outcome State Fault Refusal :=
  finish ((s.at_ t).laneFaults port lane).onward

/-- NO_CLOCK (12_gallery.md R408): An enabled port receives no clock for 10 µs, so NO_CLOCK is set and a GAL_WIRE fault
is raised. -/
def execNoClock (t : Nat) (port : Fin 12) (s : State) : Host.Outcome State Fault Refusal :=
  finish ((s.at_ t).clockGone port).onward

/-- GAL_STREAM_WRITE (12_gallery.md R404): A write to a stream's registers takes effect at the next frame start;
clearing ENABLE drops the frame at once; an enable may be refused. -/
def execGalStreamWrite (t : Nat) (w : Fin 2048) (v : Word) (s : State) : Host.Outcome State Fault Refusal :=
  finish ((s.at_ t).hostWrite (0x16000 + 4 * w.val) v).onward

end Sys2Proof.Machine
end

