-- ==== Sys2Proof/Machine/LinkCommands.lean ====
section
/-! DEFINITION. The commands of the party-wall links and their packets (18_party_wall.md). -/

namespace Sys2Proof.Machine

/-- PORT_TRAINING (18_party_wall.md R573): A party-wall port trains through polarity, lane order, lane test, width and
pairing. -/
def execPortTraining (t : Nat) (port : Fin 4) (r : Training) (s : State) : Host.Outcome State Fault Refusal :=
  finish ((s.at_ t).train port r).onward

/-- LINK_LANE_FAULT (18_party_wall.md R574): A link lane exceeds 32 errors in 1 ms; the port retrains without it and
replays unacknowledged packets. -/
def execLinkLaneFault (t : Nat) (port : Fin 4) (lane : Fin 9) (s : State) : Host.Outcome State Fault Refusal :=
  finish ((s.at_ t).linkLane port lane).onward

/-- PACKET_NAK (18_party_wall.md R575): A packet that failed its CRC is replayed from the sender's replay buffer. -/
def execPacketNak (t : Nat) (port : Fin 4) (s : State) : Host.Outcome State Fault Refusal :=
  finish ((s.at_ t).replay port).onward

/-- JOB_OPEN_WRITE (18_party_wall.md R576): Writing OPEN to PW_JOBj sends JOB_OPEN packets to every other member. -/
def execJobOpenWrite (t : Nat) (j : Fin 16) (v : Word) (s : State) : Host.Outcome State Fault Refusal :=
  finish ((s.at_ t).hostWrite (0x15100 + 16 * j.val) v).onward

/-- JOB_CLOSE_WRITE (18_party_wall.md R577): Writing CLOSE sends JOB_CLOSE packets, waits for outstanding requests and
closes the job. -/
def execJobCloseWrite (t : Nat) (j : Fin 16) (v : Word) (s : State) : Host.Outcome State Fault Refusal :=
  finish ((s.at_ t).hostWrite (0x15100 + 16 * j.val) v).onward

/-- JOB_OPEN_TIMEOUT (18_party_wall.md R577): A peer is not open within 10 ms, so the job becomes BROKEN. -/
def execJobOpenTimeout (t : Nat) (j : Fin 16) (s : State) : Host.Outcome State Fault Refusal :=
  finish ((s.at_ t).openLate j).onward

/-- JOB_OPEN (18_party_wall.md R576): A received JOB_OPEN packet opens the peer once its fields match and its tag
verifies. -/
def execJobOpen (t : Nat) (port : Fin 4) (p : Packet) (tagOk : Bool) (members : BitVec 4) (base : BitVec 22)
    (pages : BitVec 23) (s : State) : Host.Outcome State Fault Refusal :=
  guarded (Instr.jobOpen t port p tagOk members base pages).wellFormed ((s.at_ t).typed p 1 fun s => s.jobOpenArrives port p tagOk members base pages).onward

/-- JOB_CLOSE (18_party_wall.md R577): A received JOB_CLOSE packet from a member closes the job. -/
def execJobClose (t : Nat) (port : Fin 4) (p : Packet) (tagOk : Bool) (s : State) : Host.Outcome State Fault Refusal :=
  guarded (Instr.jobClose t port p tagOk).wellFormed ((s.at_ t).typed p 10 fun s => s.onPkt port p tagOk fun s j => s.closeJob j false).onward

/-- READ_REQ (18_party_wall.md R581): A received READ_REQ is served against the home's Deed entry or answered with
REDIRECT. -/
def execReadReq (t : Nat) (port : Fin 4) (p : Packet) (tagOk : Bool) (s : State) : Host.Outcome State Fault Refusal :=
  guarded (Instr.readReq t port p tagOk).wellFormed ((s.at_ t).typed p 2 fun s => s.onPkt port p tagOk fun s j => s.serve j p false).onward

/-- READ_RSP (18_party_wall.md R581): A received READ_RSP completes a remote read with its status. -/
def execReadRsp (t : Nat) (port : Fin 4) (p : Packet) (tagOk : Bool) (s : State) : Host.Outcome State Fault Refusal :=
  guarded (Instr.readRsp t port p tagOk).wellFormed ((s.at_ t).typed p 3 fun s => s.onPkt port p tagOk fun s _ => s.readAnswered p).onward

/-- WRITE_REQ (18_party_wall.md R581): A received WRITE_REQ is applied at the home or answered with REDIRECT. -/
def execWriteReq (t : Nat) (port : Fin 4) (p : Packet) (tagOk : Bool) (s : State) : Host.Outcome State Fault Refusal :=
  guarded (Instr.writeReq t port p tagOk).wellFormed ((s.at_ t).typed p 4 fun s => s.onPkt port p tagOk fun s j => s.serve j p true).onward

/-- WRITE_ACK (18_party_wall.md R581): A received WRITE_ACK completes a remote write with its status. -/
def execWriteAck (t : Nat) (port : Fin 4) (p : Packet) (tagOk : Bool) (s : State) : Host.Outcome State Fault Refusal :=
  guarded (Instr.writeAck t port p tagOk).wellFormed ((s.at_ t).typed p 5 fun s => s.onPkt port p tagOk fun s _ => s.writeAnswered p).onward

/-- MOVE_DATA (18_party_wall.md R586): A received MOVE_DATA packet carries part of a page moving to this device. -/
def execMoveData (t : Nat) (port : Fin 4) (p : Packet) (tagOk : Bool) (s : State) : Host.Outcome State Fault Refusal :=
  guarded (Instr.moveData t port p tagOk).wellFormed ((s.at_ t).typed p 6 fun s => s.onPkt port p tagOk fun s j => s.moveDataArrives j p).onward

/-- MOVE_COMMIT (18_party_wall.md R586): A received MOVE_COMMIT makes the source name the destination, free its frame
and send MOVE_DONE. -/
def execMoveCommit (t : Nat) (port : Fin 4) (p : Packet) (tagOk : Bool)
    (s : State) : Host.Outcome State Fault Refusal :=
  guarded (Instr.moveCommit t port p tagOk).wellFormed ((s.at_ t).typed p 7 fun s => s.onPkt port p tagOk fun s j => s.moveCommitArrives j p).onward

/-- MOVE_DONE (18_party_wall.md R586): A received MOVE_DONE ends a move into this device. -/
def execMoveDone (t : Nat) (port : Fin 4) (p : Packet) (tagOk : Bool) (s : State) : Host.Outcome State Fault Refusal :=
  guarded (Instr.moveDone t port p tagOk).wellFormed ((s.at_ t).typed p 8 fun s => s.onPkt port p tagOk fun s _ => s.moveDoneArrives p).onward

/-- REDIRECT (18_party_wall.md R582): A received REDIRECT updates the requester's entry and resends the request. -/
def execRedirect (t : Nat) (port : Fin 4) (p : Packet) (tagOk : Bool) (s : State) : Host.Outcome State Fault Refusal :=
  guarded (Instr.redirect t port p tagOk).wellFormed ((s.at_ t).typed p 9 fun s => s.onPkt port p tagOk fun s _ => s.redirected p).onward

/-- REDIRECT_BACKOFF (18_party_wall.md R582): After three redirects the requester waits 5 µs and starts again from its
own entry. -/
def execRedirectBackoff (t : Nat) (rtag : BitVec 16) (s : State) : Host.Outcome State Fault Refusal :=
  finish ((s.at_ t).backoffOver rtag).onward

/-- PORT_DOWN (18_party_wall.md R588): A party-wall port goes down while another reaches the peer, raising PW_PORT_DOWN.
-/
def execPortDown (t : Nat) (port : Fin 4) (s : State) : Host.Outcome State Fault Refusal :=
  finish ((s.at_ t).losePort port).onward

/-- PEER_LOST (18_party_wall.md R588): No port reaches a peer; its jobs break and remote requests and moves fail with
LINK_FAILED. -/
def execPeerLost (t : Nat) (pos : Fin 4) (s : State) : Host.Outcome State Fault Refusal :=
  finish ((s.at_ t).peerGone pos).onward

end Sys2Proof.Machine
end

