-- ==== Sys2Proof/Machine/MemoryCommands.lean ====
section
/-! DEFINITION. The commands of the memory tiers and the Deed table (08_memory_tiers.md). -/

namespace Sys2Proof.Machine

/-- LOFT_BAND_CHANGE (08_memory_tiers.md R258): A slice sensor crosses a band threshold and the slice's refresh band
changes. -/
def execLoftBandChange (t : Nat) (slice : Fin 18) (t0 t1 : BitVec 16) (s : State) : Host.Outcome State Fault Refusal :=
  finish ((s.at_ t).loftBand slice t0.toInt t1.toInt).onward

/-- CELLAR_MR4_POLL (08_memory_tiers.md R261): Every 16 ms each Cellar device's MR4 is read and its refresh rate set. -/
def execCellarMr4Poll (t : Nat) (ch : Fin 4) (code : Fin 4) (s : State) : Host.Outcome State Fault Refusal :=
  finish ((s.at_ t).cellarPoll ch code).onward

/-- CELLAR_TRAINING_COMPLETE (15_resets_and_retention.md R486): Cellar channels finish retraining after an MDR, and held
accesses to Cellar pages are released. -/
def execCellarTrainingComplete (t : Nat) (s : State) : Host.Outcome State Fault Refusal :=
  finish (s.at_ t).cellarTrained.onward

/-- PAGE_MOVE_COMPLETE (08_memory_tiers.md R278): A page move ends: the Deed entry takes its new home, held accesses are
released and the old frame is freed. -/
def execPageMoveComplete (t : Nat) (page : BitVec 22) (bad : Option (Fin 1024))
    (s : State) : Host.Outcome State Fault Refusal :=
  finish ((s.at_ t).moveEnds page.toNat bad).onward

/-- ZEROING_COMPLETE (08_memory_tiers.md R283): A page's zeroing ends, any pending write is applied, and the page
becomes RESIDENT. -/
def execZeroingComplete (t : Nat) (page : BitVec 22) (s : State) : Host.Outcome State Fault Refusal :=
  finish ((s.at_ t).zeroEnds page.toNat).onward

/-- SCRUB_PAGE (08_memory_tiers.md R284): The background scrubber zeroes the next SCRUB_PENDING page in UPA order. -/
def execScrubPage (t : Nat) (bad : Option (Fin 1024)) (s : State) : Host.Outcome State Fault Refusal :=
  finish ((s.at_ t).scrubNext bad).onward

/-- MMU_ROOT_WRITE (08_memory_tiers.md R295): A write to MMU_ROOT_LO or MMU_ROOT_HI sets the root for walks begun
afterwards. -/
def execMmuRootWrite (t : Nat) (hi : Bool) (v : Word) (s : State) : Host.Outcome State Fault Refusal :=
  finish ((s.at_ t).hostWrite (if hi then 0x11004 else 0x11000) v).onward

/-- DEED_QUERY (08_memory_tiers.md R305): Writing a UPA page number to DEED_QUERY loads its Deed entry into DEED_RESULT.
-/
def execDeedQuery (t : Nat) (v : Word) (s : State) : Host.Outcome State Fault Refusal :=
  finish ((s.at_ t).hostWrite 0x10010 v).onward

/-- LOFT_CLR_CNT (08_memory_tiers.md R304): Writing 1 to LOFT_CTRL.CLR_CNT clears every Loft error count. -/
def execLoftClrCnt (t : Nat) (v : Word) (s : State) : Host.Outcome State Fault Refusal :=
  finish ((s.at_ t).hostWrite 0xD04C v).onward

/-- PAN_CLR_CNT (08_memory_tiers.md R304): Writing 1 to PAN_CTRL.CLR_CNT clears every Cellar and Pantry error count. -/
def execPanClrCnt (t : Nat) (v : Word) (s : State) : Host.Outcome State Fault Refusal :=
  finish ((s.at_ t).hostWrite 0xF040 v).onward

end Sys2Proof.Machine
end

