-- ==== Sys2Proof/Machine/PorchCommands.lean ====
section
/-! DEFINITION. The commands of the Porch and the Keyhole (13_porch.md). -/

namespace Sys2Proof.Machine

/-- PORCH_SAMPLE (13_porch.md R425): An output sample is produced on every channel, written to the pre-roll ring and the
beam, and POR_SAMPLE advances. -/
def execPorchSample (t : Nat) (bits : List (BitVec 8 × BitVec 8)) (s : State) : Host.Outcome State Fault Refusal :=
  finish ((s.at_ t).sampleOn bits).onward

/-- SETTLING_END (13_porch.md R430): The 32 zero samples after a decimator reset end, and the end of settling is logged.
-/
def execSettlingEnd (t : Nat) (s : State) : Host.Outcome State Fault Refusal := finish (s.at_ t).settled.onward

/-- MIC_CHECK_WINDOW (13_porch.md R419): A window of 4,096 PDM clocks ends and each clocked channel's state is judged.
-/
def execMicCheckWindow (t : Nat) (obs : List MicObs) (s : State) : Host.Outcome State Fault Refusal :=
  guarded (Instr.micCheckWindow t obs).wellFormed ((s.at_ t).micWindow obs).onward

/-- SWAP_TEST_WINDOW (13_porch.md R421): A 1 s correlation window ends and the lags of each wire's channels are
measured. -/
def execSwapTestWindow (t : Nat) (level : Nat) (lags : List Int) (s : State) : Host.Outcome State Fault Refusal :=
  guarded (Instr.swapTestWindow t level lags).wellFormed ((s.at_ t).swapWindow level lags).onward

/-- MUTE_WRITE (13_porch.md R423): A write to MUTE zeroes or restores every aligned signal from the next sample. -/
def execMuteWrite (t : Nat) (m : Bool) (s : State) : Host.Outcome State Fault Refusal :=
  finish ((s.at_ t).muteWritten m).onward

/-- POR_CTRL_WRITE (13_porch.md R427): A write to the Porch control registers requests a Porch change or changes chain
and capture settings. -/
def execPorCtrlWrite (t : Nat) (w : Fin 1024) (v : Word) (s : State) : Host.Outcome State Fault Refusal :=
  finish ((s.at_ t).hostWrite (0x18000 + 4 * w.val) v).onward

/-- POR_SAMPLE_LO_READ (13_porch.md R444): A read of POR_SAMPLE_LO returns bits [31:0] and latches SAMPLE_HI. -/
def execPorSampleLoRead (t : Nat) (s : State) : Host.Outcome State Fault Refusal :=
  finish ((s.at_ t).hostRead 0x18014).onward

/-- KEY_CTRL_WRITE (13_porch.md R418): A write to KEY_CTRL enables Keyhole scoring, and is refused at 8 or 24 kHz. -/
def execKeyCtrlWrite (t : Nat) (w : Fin 1024) (v : Word) (s : State) : Host.Outcome State Fault Refusal :=
  finish ((s.at_ t).hostWrite (0x19000 + 4 * w.val) v).onward

/-- KEYHOLE_FRAME (13_porch.md R432): Every 10 ms the Keyhole scores each enabled phrase, starting or ending partial
matches. -/
def execKeyholeFrame (t : Nat) (scores : List KeyScore) (s : State) : Host.Outcome State Fault Refusal :=
  guarded (Instr.keyholeFrame t scores).wellFormed ((s.at_ t).keyFrame scores).onward

/-- PARTIAL_MATCH_TIMEOUT (13_porch.md R432): A partial match ends without a match 2.5 s after its start. -/
def execPartialMatchTimeout (t : Nat) (phrase : Fin 8) (s : State) : Host.Outcome State Fault Refusal :=
  finish ((s.at_ t).partialLate phrase).onward

/-- PORCH_CHANGE_DEADLINE (13_porch.md R429): A change has waited 2.5 s; the frame is scored, any partial match is
discarded, and the changes are applied. -/
def execPorchChangeDeadline (t : Nat) (scores : List KeyScore) (s : State) : Host.Outcome State Fault Refusal :=
  guarded (Instr.porchChangeDeadline t scores).wellFormed ((s.at_ t).changeLate scores).onward

/-- CHAIN_STAGE_START (13_porch.md R436): Once the main die is in S0 with rings enabled, a wake-chain stage's list is
posted. -/
def execChainStageStart (t : Nat) (s : State) : Host.Outcome State Fault Refusal := finish (s.at_ t).chainStart.onward

/-- CHAIN_STAGE_COMPLETE (13_porch.md R437): A stage's list completes and its decision word ends, advances or repeats
the chain. -/
def execChainStageComplete (t : Nat) (s : State) : Host.Outcome State Fault Refusal := finish (s.at_ t).chainDone.onward

/-- CHAIN_STAGE_TIMEOUT (13_porch.md R437): A stage has not completed TIMEOUT_MS after its first posting, and the chain
ends with END 4. -/
def execChainStageTimeout (t : Nat) (s : State) : Host.Outcome State Fault Refusal := finish (s.at_ t).chainLate.onward

/-- FEED_RECORD (13_porch.md R441): At least every 10 ms the feed record is written after the frames it counts. -/
def execFeedRecord (t : Nat) (s : State) : Host.Outcome State Fault Refusal := finish (s.at_ t).feedRecord.onward

/-- PORCH_WATCHDOG (15_resets_and_retention.md R481): The Porch watchdog expires and causes a PCR. -/
def execPorchWatchdog (t : Nat) (s : State) : Host.Outcome State Fault Refusal := finish (s.at_ t).watchdogPcr.onward

end Sys2Proof.Machine
end

