-- ==== Sys2Proof/Machine/PowerCommands.lean ====
section
/-! DEFINITION. The commands of power, clocks, temperature, sleep and resets (14_power.md, 15_resets_and_retention.md).
-/

namespace Sys2Proof.Machine

/-- SUPPLY_WARNING (14_power.md R452): A rail crosses its warning threshold; a SUPPLY_WARN note is raised and the supply
cap of P3 applies. -/
def execSupplyWarning (t : Nat) (rail : Fin 11) (s : State) : Host.Outcome State Fault Refusal :=
  finish ((s.at_ t).supplyWarn rail).onward

/-- SUPPLY_RESET_THRESHOLD (14_power.md R454): A rail crosses its reset threshold, causing an MDR or POR by group. -/
def execSupplyResetThreshold (t : Nat) (rail : Fin 11) (s : State) : Host.Outcome State Fault Refusal :=
  finish ((s.at_ t).supplyReset rail).onward

/-- SUPPLY_HIGH (14_power.md R451): A rail stays above +6 %, raising an L2 SUPPLY_HIGH fault. -/
def execSupplyHigh (t : Nat) (rail : Fin 11) (s : State) : Host.Outcome State Fault Refusal :=
  finish ((s.at_ t).supplyHigh rail).onward

/-- CAP_HOLD_EXPIRY (14_power.md R461): A cap's hold after its cause ends expires, and the cap rises one level. -/
def execCapHoldExpiry (t : Nat) (cap : Cap) (s : State) : Host.Outcome State Fault Refusal :=
  finish ((s.at_ t).capHeld cap).onward

/-- CAP_RELEASE_STEP (14_power.md R461): At each release step, a releasing cap rises one further level. -/
def execCapReleaseStep (t : Nat) (cap : Cap) (s : State) : Host.Outcome State Fault Refusal :=
  finish ((s.at_ t).capStep cap).onward

/-- BATT_WARN_ASSERT (14_power.md R455): BATT_WARN_N goes low after its filter, and the battery cap of P3 applies. -/
def execBattWarnAssert (t : Nat) (s : State) : Host.Outcome State Fault Refusal := finish (s.at_ t).battLow.onward

/-- BATT_WARN_RELEASE (14_power.md R455): BATT_WARN_N returns high, and the battery cap hold begins. -/
def execBattWarnRelease (t : Nat) (s : State) : Host.Outcome State Fault Refusal := finish (s.at_ t).battBack.onward

/-- BATT_WARN_STUCK (14_power.md R456): BATT_WARN_N has been low for BATT_STUCK_S seconds, raising an L2 fault. -/
def execBattWarnStuck (t : Nat) (s : State) : Host.Outcome State Fault Refusal := finish (s.at_ t).battStuck.onward

/-- REFCLK_MAIN_LOST (14_power.md R460): REFCLK_MAIN is absent for 2 µs; an L3 CLOCK_LOST fault is raised and the main
die is held in MDR. -/
def execRefclkMainLost (t : Nat) (s : State) : Host.Outcome State Fault Refusal := finish (s.at_ t).mainClockLost.onward

/-- REFCLK_AON_LOST (14_power.md R460): REFCLK_AON is absent for 2 µs; the companion die moves to its internal
oscillator and an L2 fault is raised. -/
def execRefclkAonLost (t : Nat) (s : State) : Host.Outcome State Fault Refusal := finish (s.at_ t).aonClockLost.onward

/-- CLOCK_RETURN (14_power.md R460): A lost reference clock has been present again for 1 ms, and normal clocking
resumes. -/
def execClockReturn (t : Nat) (main : Bool) (found : List Finding) (s : State) : Host.Outcome State Fault Refusal :=
  finish ((s.at_ t).clockBack main found).onward

/-- AVS_COMPLETE (14_power.md R462): The VDD_CORE regulator reports completion, and an upward clock change takes effect.
-/
def execAvsComplete (t : Nat) (s : State) : Host.Outcome State Fault Refusal := finish (s.at_ t).avsDone.onward

/-- POWER_CAP_EVALUATION (14_power.md R461): Every 10 ms the averaged main-group power is judged against WATTS and the
power cap is adjusted. -/
def execPowerCapEvaluation (t : Nat) (watts : BitVec 10) (s : State) : Host.Outcome State Fault Refusal :=
  finish ((s.at_ t).powerJudge watts.toNat).onward

/-- THERMAL_CAP (14_power.md R466): A sensor reaches 115 °C, and the thermal cap applies at CAP_LEVEL. -/
def execThermalCap (t : Nat) (sensor : Fin 64) (temp : BitVec 16) (s : State) : Host.Outcome State Fault Refusal :=
  finish ((s.at_ t).thermCap sensor temp.toInt).onward

/-- THERMAL_CAP_STEP (14_power.md R466): Every 10 ms at 120 °C or above, the thermal cap falls one level, raising an L2
fault at P0. -/
def execThermalCapStep (t : Nat) (s : State) : Host.Outcome State Fault Refusal := finish (s.at_ t).thermStep.onward

/-- THERMAL_TRIP (14_power.md R467): A sensor reaches 130 °C; an L4 THERMAL_TRIP fault is raised and the main and Loft
groups are dropped. -/
def execThermalTrip (t : Nat) (sensor : Fin 64) (temp : BitVec 16) (s : State) : Host.Outcome State Fault Refusal :=
  finish ((s.at_ t).trip sensor temp.toInt).onward

/-- TRIP_RESTART (14_power.md R468): Sensors are below 105 °C and the L4 fault has cleared, so the main and Loft groups
restart as at an MDR. -/
def execTripRestart (t : Nat) (s : State) : Host.Outcome State Fault Refusal := finish (s.at_ t).tripOver.onward

/-- DOZE_ENTRY (14_power.md R470): After DOZE_US with no work, the device enters S1. -/
def execDozeEntry (t : Nat) (s : State) : Host.Outcome State Fault Refusal := finish (s.at_ t).doze.onward

/-- S3_AFTER_TIMEOUT (14_power.md R475): S3_AFTER_MIN minutes in S2 without a wake move the device into S3. -/
def execS3AfterTimeout (t : Nat) (s : State) : Host.Outcome State Fault Refusal := finish (s.at_ t).s3Late.onward

/-- WAKE_IN_RISE (14_power.md R477): WAKE_IN rises and stays high for 10 ms, which is a wake source. -/
def execWakeInRise (t : Nat) (s : State) : Host.Outcome State Fault Refusal := finish (s.at_ t).wakeRise.onward

/-- WAKE_IN_FALL (14_power.md R477): WAKE_IN falls below its threshold, and the change appears in PWR_STATUS.WAKE_IN and
in the logbook. -/
def execWakeInFall (t : Nat) (s : State) : Host.Outcome State Fault Refusal := finish (s.at_ t).wakeFall.onward

/-- MGMT_WAKE_EDGE (14_power.md R477): A rising edge on MGMT_WAKE is a wake source. -/
def execMgmtWakeEdge (t : Nat) (s : State) : Host.Outcome State Fault Refusal := finish (s.at_ t).mgmtWake.onward

/-- WAKE_TIMER_EXPIRY (14_power.md R477): PWR_WAKE_TIMER seconds after sleep entry, the wake timer wakes the device. -/
def execWakeTimerExpiry (t : Nat) (s : State) : Host.Outcome State Fault Refusal := finish (s.at_ t).wakeTimer.onward

/-- POR (15_resets_and_retention.md R484): The companion group becomes good and the whole device starts from flash. -/
def execPor (t : Nat) (s : State) : Host.Outcome State Fault Refusal := finish (s.at_ t).porNow.onward

/-- RESET_N_ASSERT (15_resets_and_retention.md R485): RESET_N low for 1 µs begins a WRM, holding both dies in reset. -/
def execResetNAssert (t : Nat) (s : State) : Host.Outcome State Fault Refusal := finish (s.at_ t).resetLow.onward

/-- RESET_N_RELEASE (15_resets_and_retention.md R485): Release of RESET_N runs the start-up sequence from its second
row. -/
def execResetNRelease (t : Nat) (found : List Finding) (s : State) : Host.Outcome State Fault Refusal :=
  finish ((s.at_ t).resetBack found).onward

/-- STUDY_WATCHDOG (16_study.md R504): The Study has not served its watchdog for 500 ms, which causes an STR. -/
def execStudyWatchdog (t : Nat) (s : State) : Host.Outcome State Fault Refusal := finish (s.at_ t).watchdogStr.onward

/-- RST_REQ_MDR (15_resets_and_retention.md R502): RST_REQ KIND 1 orders an MDR. -/
def execRstReqMdr (t : Nat) (v : Word) (s : State) : Host.Outcome State Fault Refusal :=
  finish ((s.at_ t).hostWrite 0x3004 v).onward

/-- RST_REQ_TLR (15_resets_and_retention.md R502): RST_REQ KIND 2 orders a TLR of one logical tile. -/
def execRstReqTlr (t : Nat) (v : Word) (s : State) : Host.Outcome State Fault Refusal :=
  finish ((s.at_ t).hostWrite 0x3004 v).onward

/-- RST_REQ_STR (15_resets_and_retention.md R502): RST_REQ KIND 3 orders an STR of the Study. -/
def execRstReqStr (t : Nat) (v : Word) (s : State) : Host.Outcome State Fault Refusal :=
  finish ((s.at_ t).hostWrite 0x3004 v).onward

/-- RST_REQ_PCR (15_resets_and_retention.md R502): RST_REQ KIND 4 orders a PCR. -/
def execRstReqPcr (t : Nat) (v : Word) (s : State) : Host.Outcome State Fault Refusal :=
  finish ((s.at_ t).hostWrite 0x3004 v).onward

/-- RST_REQ_REVERT (15_resets_and_retention.md R500): RST_REQ KIND 5 reverts to the SETTLED generation in the other
slot, or is refused. -/
def execRstReqRevert (t : Nat) (v : Word) (s : State) : Host.Outcome State Fault Refusal :=
  finish ((s.at_ t).hostWrite 0x3004 v).onward

/-- SETUP_LOCK_SET (22_register_index.md R653): Writing SET with KEY 0x4C to RST_LOCK sets the set-up lock. -/
def execSetupLockSet (t : Nat) (v : Word) (s : State) : Host.Outcome State Fault Refusal :=
  finish ((s.at_ t).hostWrite 0x3018 v).onward

/-- REGISTER_WRITE (00_scope.md R14): A host write to a register without behaviour of its own updates its fields by
their access codes and the set-up lock. -/
def execRegisterWrite (t : Nat) (w : Fin 262144) (v : Word) (s : State) : Host.Outcome State Fault Refusal :=
  finish ((s.at_ t).hostWrite (4 * w.val) v).onward

/-- SENSOR_SCAN (16_study.md R505): Every 100 µs the Study reads all 64 temperature sensors. -/
def execSensorScan (t : Nat) (temps : BitVec 1024) (s : State) : Host.Outcome State Fault Refusal :=
  finish ((s.at_ t).scanTemps temps.toNat).onward

/-- RAIL_SCAN (16_study.md R507): Every 1 ms the Study reads every rail voltage and the measured currents. -/
def execRailScan (t : Nat) (mv : BitVec 176) (cur : BitVec 64) (s : State) : Host.Outcome State Fault Refusal :=
  finish ((s.at_ t).scanRails mv.toNat cur.toNat).onward

/-- GROUP_GOOD (14_power.md R449): After PWR_EN_MAIN or PWR_EN_LOFT rises, every rail of that group has stayed above its
warning threshold for 100 µs and the group is good. -/
def execGroupGood (t : Nat) (group : Group) (found : List Finding) (s : State) : Host.Outcome State Fault Refusal :=
  finish ((s.at_ t).groupUp group found).onward

/-- MDR_GRACE_EXPIRY (15_resets_and_retention.md R486): GRACE_MS after an ordered MDR's records are written, FD_READY
falls, dirty window sectors are saved and the main die enters reset. -/
def execMdrGraceExpiry (t : Nat) (found : List Finding) (s : State) : Host.Outcome State Fault Refusal :=
  finish ((s.at_ t).mdrGo found).onward

/-- STUDY_RESTART_COMPLETE (15_resets_and_retention.md R483): The Study finishes restarting after an STR and answers
mailbox and management messages again, ending the restart conditions of R483. -/
def execStudyRestartComplete (t : Nat) (s : State) : Host.Outcome State Fault Refusal := finish (s.at_ t).strEnds.onward

end Sys2Proof.Machine
end

