-- ==== Sys2Proof/Machine/Study.lean ====
section
/-! DEFINITION. The Study's management protocol: messages and their transports, sessions, the update path, quotes, the
heartbeat, vehicle time and the logbook's flush (16_study.md R522 to R540; 17_security.md R560 to R567; 04_rings_and_doorbells.md
R151 to R154). The bodies that the manual does not lay out are laid out here (DESIGN CHOICE, assumption 8). -/

namespace Sys2Proof.Machine

/-- Seconds in nanoseconds. -/
def secs (n : Nat) : Nat := n * 1000000000

/-! ### Message formats (R523, R528) -/

/-- OK. -/
def rsOk : Nat := 0
/-- TYPE. -/
def rsType : Nat := 1
/-- AUTH. -/
def rsAuth : Nat := 2
/-- MODE. -/
def rsMode : Nat := 3
/-- BUSY. -/
def rsBusy : Nat := 4
/-- ARG. -/
def rsArg : Nat := 5
/-- VERIFY. -/
def rsVerify : Nat := 6
/-- ROLLBACK. -/
def rsRollback : Nat := 7
/-- UNTESTED. -/
def rsUntested : Nat := 8
/-- FLASH. -/
def rsFlash : Nat := 9
/-- FUSES. -/
def rsFuses : Nat := 10

/-- The message types of R528. -/
def messageTypes : List Nat :=
  [0x01, 0x02, 0x03, 0x04, 0x05, 0x06, 0x10, 0x11, 0x20, 0x21, 0x22, 0x23, 0x24, 0x25, 0x30, 0x40, 0x41, 0x42, 0x50]

/-- A request as its bytes spell it: `ok` says that the header is whole and that FLAGS and RESULT are zero. -/
structure Msg where
  type : Nat
  session : Nat
  counter : Nat
  body : List Byte
  signed : List Byte
  tag : List Byte
  ok : Bool
  deriving DecidableEq, Repr

/-- Read a request. A message that is too short for its fields is not ok; what it has is read. -/
def readMsg (bs : List Byte) : Msg :=
  let h := ofBytes (bs.take 16)
  let session := if bs.length < 16 then 0 else bitsAt h 32 32
  let n := if session = 0 then bs.length else bs.length - 32
  { type := bitsAt h 0 16, session := session, counter := bitsAt h 64 64, body := (bs.take n).drop 16,
    signed := bs.take n, tag := bs.drop n,
    ok := 16 ≤ bs.length && (session == 0 || 48 ≤ bs.length) && bitsAt h 16 16 == 0 }

/-- A reply's header and body. -/
def replyBytes (m : Msg) (session result : Nat) (body : List Byte) : List Byte :=
  toBytes 2 m.type ++ [1, BitVec.ofNat 8 result] ++ toBytes 4 session ++ toBytes 8 m.counter ++ body

/-- The reply as it is sent: with a tag within a session (R526). -/
def sealed (m : Msg) (k : Option Session) (result : Nat) (body : List Byte) : List Byte :=
  match k with
  | none => replyBytes m 0 result body
  | some x =>
    let bs := replyBytes m x.num result body
    bs ++ kmac256 x.key bs "SH16 MSG"

/-! ### Transports (R522, R530, R567; 04_rings_and_doorbells.md R152 to R154) -/

/-- The message came by the management port. -/
def fromPort : MsgSrc → Bool
  | .mailbox => false
  | .port _ _ => true

/-- Write a mailbox reply: the body, then the header; the request is answered. -/
def State.writeReply (s : State) (seq : BitVec 16) (result : Nat) (body : List Byte) : State :=
  let s := s.winWrite (mailReply + 32) body
  let s := s.winWrite mailReply (toBytes 32 (seq.toNat + body.length <<< 16 + result <<< 32))
  let s := { s with rg := { s.rg with mail := none }, sty := { s.sty with replyMail := none } }
  s.setFlag Reg.rgAttnStatusMboxReply true

/-- The bytes of a request that reaches the Study. A datagram to another address or of more than 1,232 bytes is discarded
and counted. -/
def State.arrivedMsg (s : State) (src : MsgSrc) : State × Option (List Byte) :=
  match src with
  | .mailbox =>
    if !s.mainUp || !s.sty.up || s.sty.replyMail.isSome then (s, none)
    else match s.rg.mail with
      | some r => (s, if r.bad then none else some r.body)
      | none => (s, none)
  | .port addressed bs =>
    if !s.pwr.aonGood || !s.sty.up || !s.flag Reg.styNetPortEn then (s, none)
    else if addressed && bs.length ≤ 1232 then (s, some bs)
    else (s.bump Reg.styNetDropped, none)

/-- The datagrams of a QUOTE reply: 1,200 bytes of its body each, after FRAG and FRAGS. -/
def quoteParts (body : List Byte) : List (List Byte) :=
  (List.range 11).map fun i => toBytes 2 i ++ toBytes 2 11 ++ (body.drop (1200 * i)).take 1200

/-- Send a reply on the transport from which the request came. -/
def State.reply (s : State) (src : MsgSrc) (m : Msg) (k : Option Session) (result : Nat) (body : List Byte) : State :=
  match src with
  | .mailbox => { s with sty := { s.sty with replyMail := some (sealed m k result body, 0) } }
  | .port _ _ =>
    let bodies := if m.type = 0x06 && result = rsOk then quoteParts body else [body]
    { s with sty := { s.sty with portOut := s.sty.portOut ++ bodies.map fun b => sealed m k result b } }

/-- A mailbox reply that must be out before what its message orders is written at once. -/
def State.replyNow (s : State) (src : MsgSrc) : State :=
  match src, s.rg.mail, s.sty.replyMail with
  | .mailbox, some r, some (bs, result) => s.writeReply r.seq result bs
  | _, _, _ => s

/-! ### Sessions (R524 to R526) -/

/-- A failed proof or tag on a transport: eight within 60 s make it refuse AUTH for 60 s. -/
def State.authFails (s : State) (port : Bool) : State :=
  let fails := (s.sty.fails.filter fun f => s.now < f.1 + secs 60) ++ [(s.now, port)]
  if (fails.filter fun f => f.2 == port).length < 8 then { s with sty := { s.sty with fails := fails } }
  else
    let s := { s with sty := { s.sty with fails := fails.filter fun f => f.2 != port
                                          lockout := s.sty.lockout ++ [(s.now + secs 60, port)] } }
    (s.noteAon fcMgmtAuth).log 10 (b2n port)

/-- The transport refuses AUTH. -/
def State.authRefused (s : State) (port : Bool) : Bool := s.sty.lockout.any fun l => l.2 == port && s.now < l.1

/-- Whether a request may act: refused, or accepted in a session or as an open message. -/
inductive Admitted where
  | refused
  | accepted (k : Option Session)
  deriving DecidableEq, Repr

/-- Check a request's session, tag and counter; `open_`: its type needs no session. -/
def State.admitMsg (s : State) (m : Msg) (open_ port : Bool) : State × Admitted :=
  if m.session = 0 then (s, if open_ then .accepted none else .refused)
  else match s.sty.sessions.find? fun x => x.num == m.session with
    | none => (s, .refused)
    | some x =>
      if m.tag != kmac256 x.key m.signed "SH16 MSG" then (s.authFails port, .refused)
      else if m.counter ≤ x.counter then (s, .refused)
      else
        let x := { x with counter := m.counter, last := s.now }
        ({ s with sty := { s.sty with sessions := s.sty.sessions.map fun y => if y.num = x.num then x else y } },
         .accepted (some x))

/-- The slot that an update of a kind stages into: the one that does not run, or, of a settings generation, the one that
does not hold the current generation. -/
def State.stageSlot (s : State) (kind : Nat) : Nat :=
  if kind = 4 then match s.genSlot with
    | some k => 1 - k
    | none => 0
  else 1 - lget s.sty.set_ (kind - 1) 0

/-- Mark the slot of an update empty (R533). -/
def State.emptySlot (s : State) (kind : Nat) : State :=
  let k := s.stageSlot kind
  if kind = 4 then
    { s with flash := { s.flash with gens := lset s.flash.gens k none, genState := lset s.flash.genState k .empty } }.showGens
  else if kind = 5 then s
  else { s with flash := { s.flash with images := lset s.flash.images (2 * (kind - 1) + k) none } }

/-- The update ends; before commit its slot is empty. -/
def State.endUpdate (s : State) : State :=
  match s.sty.update with
  | none => s
  | some u =>
    let s := if u.phase = 3 then s else s.emptySlot u.kind
    ({ s with sty := { s.sty with update := none } }).log 5 0

/-- Close a session; an update that belongs to it ends (R532). -/
def State.closeSession (s : State) (num : Nat) : State :=
  let s := if s.sty.update.any fun u => u.session == num then s.endUpdate else s
  { s with sty := { s.sty with sessions := s.sty.sessions.filter fun x => x.num != num } }

/-- The session idle longest. -/
def idlest (l : List Session) : Option Session :=
  l.foldl (fun a x => match a with
    | none => some x
    | some y => if x.last < y.last then some x else some y) none

/-- A fifth session closes the one idle longest. -/
def State.roomForSession (s : State) : State :=
  if s.sty.sessions.length < 4 then s
  else match idlest s.sty.sessions with
    | some x => s.closeSession x.num
    | none => s

/-! ### Handling a message (R519, R520, R528) -/

/-- What a message comes to: the state, the result and the reply's body; what follows once the reply is out. -/
structure Handled where
  s : State
  result : Nat := 0
  body : List Byte := []
  after : Option (State → State) := none

/-- The types that Safe Floor does not accept. -/
def floorRefuses (type : Nat) : Bool := type == 0x41 || type == 0x42

/-- The types that the boot ROM accepts under SF_REASON 1 (R520). -/
def romAccepts (type : Nat) : Bool := type ≤ 0x06 || (0x20 ≤ type && type ≤ 0x25)

/-- The mode accepts a type. -/
def State.modeAccepts (s : State) (type : Nat) : Bool :=
  !s.safeFloor || (!floorRefuses type && (s.reg Reg.styModeSfReason != 1 || romAccepts type))

/-- A message of a type reaches the Study: it is checked, handled and answered. A request of another type is another
command's; one whose TYPE is none of R528 is answered TYPE. -/
def State.message (s : State) (src : MsgSrc) (type : Nat) (open_ : Bool) (f : Msg → State → Handled) : State :=
  match s.arrivedMsg src with
  | (s, none) => s
  | (s, some bs) =>
    let m := readMsg bs
    if !messageTypes.contains m.type then s.reply src m none rsType []
    else if m.type ≠ type then s
    else match s.admitMsg m open_ (fromPort src) with
      | (s, .refused) => s.reply src m none rsAuth []
      | (s, .accepted k) =>
        if !m.ok then s.reply src m k rsArg []
        else if !s.modeAccepts type then s.reply src m k rsMode []
        else
          let h := f m s
          let s := h.s.reply src m k h.result h.body
          match h.after with
          | some g => g (s.replyNow src)
          | none => s

/-- A message with an empty body. -/
def plain (f : State → Handled) (m : Msg) (s : State) : Handled :=
  if m.body.isEmpty then f s else { s := s, result := rsArg }

/-- MAILBOX_REPLY (04_rings_and_doorbells.md R152 to R154): the answer is written; a malformed header, a TYPE that is
unknown and a Study that restarts are answered here. -/
def State.mailAnswer (s : State) : State :=
  if !s.mainUp then s
  else match s.rg.mail with
    | none => s
    | some r =>
      if !s.sty.up then s.writeReply r.seq 2 []
      else if r.bad then s.writeReply r.seq 1 []
      else match s.sty.replyMail with
        | some (bs, result) => s.writeReply r.seq result bs
        | none =>
          let m := readMsg r.body
          if messageTypes.contains m.type then s else (s.reply .mailbox m none rsType []).replyNow .mailbox

/-! ### Open messages -/

/-- The bytes of `n` registers from an offset on. -/
def State.regBytes (s : State) (off n : Nat) : List Byte :=
  (List.range n).flatMap fun i => toBytes 4 (s.regValue (off + 4 * i))

/-- IDENTITY: the identity page (R508). -/
def State.identityMsg (s : State) (src : MsgSrc) : State :=
  s.message src 0x01 true (plain fun s => { s := s, body := s.regBytes 0 32 })

/-- STATUS: STY_MODE to STY_UPDATE, RST_CAUSE and RST_GEN. -/
def State.statusMsg (s : State) (src : MsgSrc) : State :=
  s.message src 0x02 true (plain fun s =>
    { s := s, body := s.regBytes 0x10 8 ++ s.regBytes 0x3000 1 ++ s.regBytes 0x300C 1 })

/-- CHALLENGE: a nonce of 32 bytes, which the manual leaves free. -/
def State.challengeMsg (s : State) (src : MsgSrc) : State :=
  s.message src 0x03 true (plain fun s =>
    let n := (List.range 4).flatMap fun i => toBytes 8 (Config.freeWord (s.free + i)).toNat
    let live := s.sty.nonces.filter fun x => s.now ≤ x.2 + secs 10
    { s := { s with free := s.free + 4, sty := { s.sty with nonces := live ++ [(n, s.now)] } }, body := n })

/-- A session number that is not zero and not in use: free among those. -/
def State.newSession (s : State) (k : Nat) : Nat :=
  let used := fun n => s.sty.sessions.any fun x => x.num == n
  let nth := fun i => (Config.freeNat k + i) % (2 ^ 32 - 1) + 1
  nth ((firstSat 5 fun i => !used (nth i)).getD 0)

/-- AUTH: an 8-byte client identity I and the proof over N and I, for a nonce that is still valid. The reply's body is the
session number. -/
def State.authMsg (s : State) (src : MsgSrc) : State :=
  s.message src 0x04 true fun m s =>
    if m.body.length ≠ 40 then { s := s, result := rsArg }
    else if s.authRefused (fromPort src) then { s := s, result := rsAuth }
    else match s.fuses.slots.getLast? with
      | none => { s := s.authFails (fromPort src), result := rsAuth }
      | some k =>
        let key := toBytes 32 k.toNat
        let who := m.body.take 8
        let live := s.sty.nonces.filter fun x => s.now ≤ x.2 + secs 10
        match live.find? fun x => kmac256 key (x.1 ++ who) "SH16 AUTH" == m.body.drop 8 with
        | none => { s := s.authFails (fromPort src), result := rsAuth }
        | some x =>
          let s := { s with sty := { s.sty with nonces := live.filter (· != x) } }.roomForSession
          let (j, s) := s.fresh
          let num := s.newSession j
          let ks := kmac256 key (x.1 ++ who ++ toBytes 4 num) "SH16 SESSION"
          let y : Session := { num := num, key := ks, last := s.now }
          { s := { s with sty := { s.sty with sessions := s.sty.sessions ++ [y] } }.log 10 2, body := toBytes 4 num }

/-- Caps that limit the level: those below 7, in the order of R461. -/
def State.capsLimiting (s : State) : Nat :=
  b2n (s.reg Reg.pwrCapsSupply < 7) + 2 * b2n (s.reg Reg.pwrCapsBatt < 7) + 4 * b2n (s.reg Reg.pwrCapsTherm < 7)
    + 8 * b2n (s.reg Reg.pwrCapsPower < 7)

/-- Heartbeat STATE (R536). -/
def State.heartState (s : State) : List Byte :=
  toBytes 4 s.sty.scans ++ toBytes 4 s.tick.number.toNat ++ toBytes 1 (s.reg Reg.pwrThermHotMax)
    ++ toBytes 1 (s.level + s.capsLimiting <<< 4) ++ toBytes 1 (s.regValue 0x10) ++ [0] ++ toBytes 4 s.sty.logSeq
    ++ toBytes 4 s.sty.hbSeq ++ List.replicate 12 0

/-- HEARTBEAT: STATE and CHECK. -/
def State.heartbeatMsg (s : State) (src : MsgSrc) : State :=
  s.message src 0x05 true fun m s =>
    if m.body.length ≠ 32 then { s := s, result := rsArg }
    else
      let s := { s with sty := { s.sty with hbSeq := s.sty.hbSeq + 1, hbLast := s.now } }
      let st := s.heartState
      { s := s, body := st ++ shake256 (m.body ++ st) 32 }

/-- SENSOR_READ: STY_TEMP and STY_RAIL. -/
def State.sensorMsg (s : State) (src : MsgSrc) : State :=
  s.message src 0x10 true (plain fun s => { s := s, body := s.regBytes 0x100 64 ++ s.regBytes 0x200 11 })

/-! ### Quotes (17_security.md R560 to R565) -/

/-- A SHAKE256 digest over bytes that the model does not hold. -/
def digestOf (fields : List Nat) : List Byte := (List.range 32).map (Config.digestByte fields)

/-- DIGEST of the running image of a kind; zeros where none is usable. -/
def State.imageDigest (s : State) (k : Nat) : List Byte :=
  match s.usable k (lget s.sty.set_ k 0) with
  | some i => digestOf [1, i.kind, i.version, i.level, i.release, i.rollback, i.floor]
  | none => List.replicate 32 0

/-- MAIN_STATE; 2 belongs to an instant within a start, which is one step here. -/
def State.mainState (s : State) : Nat :=
  if s.sec.tsr.isSome then 4
  else if s.pwr.state == .s2 || s.pwr.state == .s3 || s.pwr.tripped then 3
  else if s.mainUp then 0
  else 1

/-- The 280-byte quote. -/
def State.quoteBytes (s : State) (nonce : List Byte) : List Byte :=
  let u := s.sty.update
  let zeros := List.replicate 32 (0 : Byte)
  toBytes 2 1 ++ toBytes 1 s.mainState ++ toBytes 1 (s.regValue 0x10) ++ nonce ++ toBytes 8 s.fuses.serial.toNat
    ++ toBytes 1 (s.reg Reg.styIdStepping) ++ toBytes 1 s.fuses.rollback ++ toBytes 1 s.fuses.slots.length
    ++ toBytes 1 (s.reg Reg.styCfgIdTiles) ++ toBytes 8 (s.now / 1000000) ++ toBytes 8 s.tick.number.toNat
    ++ (List.range 3).flatMap s.imageDigest ++ s.regBytes 0x14 3 ++ toBytes 1 (s.regValue 0x20)
    ++ toBytes 1 ((u.map fun u => u.kind).getD 0) ++ toBytes 1 ((u.map fun u => u.phase).getD 0) ++ [0]
    ++ (u.map fun u => u.digest).getD zeros ++ toBytes 2 (s.reg Reg.rstGenNumber) ++ toBytes 1 (s.reg Reg.rstGenState) ++ [0]
    ++ (match s.currentGen with
        | some g => digestOf [2, g.number]
        | none => zeros)
    ++ (if s.flag Reg.keyCtrlImageOk then digestOf [3, s.reg Reg.keyCtrlImageLevel, s.reg Reg.keyCtrlPhrases] else zeros)
    ++ toBytes 2 s.epoch ++ [0, 0]

/-- The next attestation index. -/
def State.attIndex (s : State) : Nat := s.reg Reg.secAttIdxLoIndexLo + s.reg Reg.secAttIdxHiIndexHi <<< 32

/-- Sign with the attestation key: the index is used, its block reserved before its first use. -/
def State.useAttIndex (s : State) : State :=
  let i := s.attIndex
  let b := i / 1024
  let s := { s with sec := { s.sec with attHigh := max s.sec.attHigh b, attBlock := b } }
  ((s.setReg Reg.secAttIdxLoIndexLo (i + 1)).setReg Reg.secAttIdxHiIndexHi ((i + 1) >>> 32)).bump Reg.secQuotesCount

/-- The QUOTE reply body (R563). -/
def State.quoteReply (s : State) (nonce : List Byte) : List Byte :=
  let q := s.quoteBytes nonce
  let att := (List.range 68).map (Config.publicKeyByte 1)
  let signedKey := att ++ toBytes 8 s.fuses.serial.toNat
  q ++ (List.range 9893).map (Config.signatureByte 1 s.attIndex q) ++ att
    ++ (List.range 2820).map (Config.signatureByte 0 s.sec.certIndex signedKey) ++ (List.range 68).map (Config.publicKeyByte 0)

/-- QUOTE. An index whose block cannot be reserved is not used (R560). -/
def State.quoteMsg (s : State) (src : MsgSrc) : State :=
  s.message src 0x06 true fun m s =>
    if m.body.length ≠ 32 then { s := s, result := rsArg }
    else if s.sec.attHigh < s.attIndex / 1024 && !s.flash.recordOk then { s := s, result := rsFlash }
    else { s := s.useAttIndex, body := s.quoteReply m.body }

/-! ### Logbook (R539, R540) -/

/-- SEQ of a logbook entry. -/
def entrySeq (e : BitVec 512) : Nat := e.toNat % 2 ^ 32

/-- LOG_READ: up to 16 entries from a SEQ on, in flash or in the tail. -/
def State.logMsg (s : State) (src : MsgSrc) : State :=
  s.message src 0x11 false fun m s =>
    if m.body.length ≠ 4 then { s := s, result := rsArg }
    else
      let l := ((s.flash.log ++ s.sty.tail).filter fun e => ofBytes m.body ≤ entrySeq e).take 16
      { s := s, body := l.flatMap fun e => toBytes 64 e.toNat }

/-- Entries that the flash log holds at 64 MiB (R510). -/
def logCapacity : Nat := 490496

/-- LOGBOOK_FLUSH: the tail is written to flash; a full log first loses its oldest sector of 1,024 entries. -/
def State.logFlush (s : State) : State :=
  if !s.sty.up || (s.safeFloor && s.reg Reg.styModeSfReason == 1) || s.sty.tail.isEmpty then s
  else
    let old := if logCapacity < s.flash.log.length + s.sty.tail.length then s.flash.log.drop 1024 else s.flash.log
    { s with flash := { s.flash with log := old ++ s.sty.tail }, sty := { s.sty with tail := [] } }

/-! ### The update path (R532 to R535) -/

/-- Most bytes that an update of a kind can have: its slot, or the Keyhole's 512 KiB (13_porch.md R431). -/
def updateLimit (kind : Nat) : Nat := lget [0, 0x400000, 0x200000, 0x800000, 0x200000, 0x80000] kind 0

/-- UPDATE_BEGIN: KIND (1 byte), length (4) and digest (32). -/
def State.beginMsg (s : State) (src : MsgSrc) : State :=
  s.message src 0x20 false fun m s =>
    let kind := ofBytes (m.body.take 1)
    let len := ofBytes ((m.body.drop 1).take 4)
    if s.sty.update.isSome then { s := s, result := rsBusy }
    else if m.body.length ≠ 37 || kind = 0 || 5 < kind || len = 0 || updateLimit kind < len then
      { s := s, result := rsArg }
    else if s.safeFloor && s.reg Reg.styModeSfReason == 1 && kind != 1 then { s := s, result := rsMode }
    else if kind = 4 && s.inTrial then { s := s, result := rsMode }
    else
      let u : Update := { kind := kind, length := len, digest := m.body.drop 5, session := m.session }
      let s := s.emptySlot kind
      { s := { s with sty := { s.sty with update := some u } }.log 5 1 }

/-- A message of the update path: the update of its session, in one of the phases; another session's update answers BUSY. -/
def State.updateMsg (s : State) (src : MsgSrc) (type : Nat) (phases : List Nat) (f : Msg → State → Update → Handled) : State :=
  s.message src type false fun m s =>
    match s.sty.update with
    | none => { s := s, result := rsMode }
    | some u =>
      if u.session ≠ m.session then { s := s, result := rsBusy }
      else if !phases.contains u.phase then { s := s, result := rsMode }
      else f m s u

/-- Store the update. -/
def State.setUpdate (s : State) (u : Update) : State := { s with sty := { s.sty with update := some u } }

/-- UPDATE_DATA: offset (4 bytes) and data; the flash may fail. -/
def State.dataMsg (s : State) (src : MsgSrc) (flashOk : Bool) : State :=
  s.updateMsg src 0x21 [1] fun m s u =>
    let off := ofBytes (m.body.take 4)
    let bs := m.body.drop 4
    if bs.isEmpty || u.length < off + bs.length || (fromPort src && 1024 < bs.length) then { s := s, result := rsArg }
    else if u.kind != 5 && !flashOk then { s := s, result := rsFlash }
    else { s := s.setUpdate { u with data := mwrite u.data off bs } }

/-- An image with the usable images of the other kinds' active slots would hold an untested pair. -/
def State.untestedWith (s : State) (k : Nat) (i : Image) : Bool :=
  let at_ := fun (j : Nat) => if j = k then some i else s.usable j (lget s.flash.active j 0)
  pairOrder.any fun p =>
    match at_ p.1, p.2 with
    | some a, 3 => siliconClass a (s.reg Reg.styIdStepping) == 2
    | some a, j => (match at_ j with
      | some b => pairClass a b == 2
      | none => false)
    | none, _ => false

/-- What the check of staged bytes comes to. -/
def State.verdictOf (s : State) (kind : Nat) (what : Staged) : Nat :=
  match what with
  | .image ok i =>
    if !ok || 3 < kind || i.kind != kind || !s.imageSigned i then rsVerify
    else if i.rollback < s.fuses.rollback then rsRollback
    else if s.untestedWith (kind - 1) i then rsUntested
    else rsOk
  | .generation ok g => if ok && kind == 4 && g.good then rsOk else rsVerify
  | .keyhole i => if kind == 5 && keyImageOk i then rsOk else rsVerify

/-- UPDATE_VERIFY: `what` is what the staged bytes hold. -/
def State.verifyMsg (s : State) (src : MsgSrc) (what : Staged) : State :=
  s.updateMsg src 0x22 [1] fun m s u =>
    if !m.body.isEmpty then { s := s, result := rsArg }
    else
      let s := match what with
        | .keyhole i => if u.kind ≠ 5 || keyImageOk i then s else s.noteAon fcKeyImage
        | _ => s
      match s.verdictOf u.kind what with
      | 0 => { s := (s.setUpdate { u with phase := 2, what := some what }).log 5 2 }
      | r => { s := s, result := r }

/-- A rise of the anti-rollback counter would make an image that runs unusable (R534). -/
def State.riseBars (s : State) (count : Nat) : Bool :=
  (List.range 3).any fun k => match s.usable k (lget s.sty.set_ k 0) with
    | some i => i.rollback < count
    | none => false

/-- Commit an image: its slot becomes the active one; the counter rises. -/
def State.commitImage (s : State) (kind : Nat) (i : Image) (count : Nat) : State :=
  let k := s.stageSlot kind
  let fl := { s.flash with images := lset s.flash.images (2 * (kind - 1) + k) (some i)
                           active := lset s.flash.active (kind - 1) k, dirSeq := s.flash.dirSeq + 1 }
  { s with flash := fl, fuses := { s.fuses with rollback := count } }

/-- Commit a settings generation: its slot becomes STAGED. -/
def State.commitGen (s : State) (g : Generation) : State :=
  let k := s.stageSlot 4
  let fl := { s.flash with gens := lset s.flash.gens k (some g), genState := lset s.flash.genState k .staged
                           dirSeq := s.flash.dirSeq + 1 }
  ({ s with flash := fl }).showGens

/-- UPDATE_COMMIT. -/
def State.commitMsg (s : State) (src : MsgSrc) (flashOk : Bool) : State :=
  s.updateMsg src 0x23 [2] fun m s u =>
    let done := fun (s : State) => (s.setUpdate { u with phase := 3 }).log 5 3
    if !m.body.isEmpty then { s := s, result := rsArg }
    else match u.what with
      | some (.image _ i) =>
        let count := max s.fuses.rollback i.floor
        if s.fuses.rollback < count && s.riseBars count then { s := s, result := rsRollback }
        else if !flashOk then { s := s, result := rsFlash }
        else { s := done (s.commitImage u.kind i count) }
      | some (.generation _ g) =>
        if !flashOk then { s := s, result := rsFlash } else { s := done ((s.commitGen g).log 6 1) }
      | some (.keyhole i) => { s := done (s.requestChange (.image i.level i.phrases.length)) }
      | none => { s := s, result := rsMode }

/-- UPDATE_ABORT: before commit. -/
def State.abortMsg (s : State) (src : MsgSrc) : State :=
  s.updateMsg src 0x25 [1, 2] fun m s _ =>
    if !m.body.isEmpty then { s := s, result := rsArg } else { s := s.endUpdate }

/-- Restart what changed (R535): an STR, then a PCR, then an ordered MDR. -/
def State.restartImages (s : State) (study porch ucode : Bool) : State :=
  if study then
    let s := s.str 11
    { s with rst := { s.rst with afterPcr := porch, afterMdr := ucode } }
  else
    let s := if porch then s.pcr 11 else s
    if ucode then s.orderMdr 11 else s

/-- Activation of a firmware image: the set is judged, and what changes restarts; entering or leaving Safe Floor restarts
every image. -/
def State.activateSet (s : State) : State × Option (State → State) :=
  let was := s.sty.set_
  let floor := s.safeFloor
  let s := s.runSet
  let all := floor != s.safeFloor
  let changed := fun (k : Nat) => all || lget was k 0 != lget s.sty.set_ k 0
  (s, some fun s => s.restartImages (changed 0) (changed 1) (changed 2))

/-- Activation of a settings generation (15_resets_and_retention.md R497): TRIAL, an ordered MDR and a PCR. In Safe Floor the
set is judged again (R521). -/
def State.activateGen (s : State) (k : Nat) (g : Generation) : State × Option (State → State) :=
  let s := s.setGenState k .trial
  let s := { s with flash := { s.flash with startsLeft := g.starts, ticksLeft := g.ticks, reverted := false } }
  let s := (s.setReg Reg.rstGenClean 0).showGens.log 6 2
  let s := if s.safeFloor then s.runSet else s
  (s, some fun s => s.orderMdr 9 .pcr false)

/-- UPDATE_ACTIVATE, after commit. -/
def State.activateMsg (s : State) (src : MsgSrc) : State :=
  s.updateMsg src 0x24 [3] fun m s u =>
    let ends := fun (s : State) => ({ s with sty := { s.sty with update := none } }).log 5 4
    if !m.body.isEmpty then { s := s, result := rsArg }
    else match u.what with
      | some (.image _ _) =>
        let (s, g) := s.activateSet
        { s := ends s, after := g }
      | some (.generation _ g) =>
        let k := s.stageSlot 4
        let current := (s.currentGen.map fun c => c.number).getD 0
        if s.genStateAt k != .staged || (s.currentGen.isSome && g.number ≤ current) then { s := s, result := rsMode }
        else
          let (s, f) := s.activateGen k g
          { s := ends s, after := f }
      | _ => { s := ends s }

/-! ### Orders -/

/-- SETTINGS_REVERT (15_resets_and_retention.md R500). -/
def State.revertMsg (s : State) (src : MsgSrc) : State :=
  s.message src 0x30 false (plain fun s =>
    match s.revert with
    | none => { s := s.noteAon fcRstReq, result := rsMode }
    | some _ => { s := s, after := some fun s => (s.revert).getD s })

/-- RESET: the body's one byte names an MDR (1), STR (3) or PCR (4), as RST_REQ.KIND does; an MDR first acknowledges every
record (19_fusebox.md R598). -/
def State.resetMsg (s : State) (src : MsgSrc) : State :=
  s.message src 0x40 false fun m s =>
    match m.body.map fun b => b.toNat with
    | [1] => { s := s, after := some fun s => s.ackAll.orderMdr 8 }
    | [3] => { s := s, after := some fun s => s.str 8 }
    | [4] => { s := s, after := some fun s => s.pcr 8 }
    | _ => { s := s, result := rsArg }

/-- SLEEP_S3: S3 from S2 (14_power.md R475). -/
def State.sleepMsg (s : State) (src : MsgSrc) : State :=
  s.message src 0x41 false (plain fun s =>
    if s.pwr.state != .s2 || s.pwr.entry != .none || s.pwr.waking.isSome then { s := s, result := rsMode }
    else { s := s, after := some State.s3FromS2 })

/-- WAKE: wake source 4, from the management port only (14_power.md R477). -/
def State.wakeMsg (s : State) (src : MsgSrc) : State :=
  s.message src 0x42 false (plain fun s =>
    if fromPort src then { s := s, after := some fun s => s.wakeBy 4 } else { s := s, result := rsMode })

/-- PROVISION_OWNER (R524; 17_security.md R544): the secret and the digest of the owner firmware key are burnt into the next
slot; every session closes. -/
def State.provision (s : State) (secret digest : List Byte) : State :=
  let s := { s with fuses := { s.fuses with slots := s.fuses.slots ++ [BitVec.ofNat 256 (ofBytes secret)] } }
  let s := s.each (List.range 8) fun s w => s.setReg (Reg.secOkeyDigest.ix w) (ofBytes ((digest.drop (4 * w)).take 4))
  s.each (s.sty.sessions.map fun x => x.num) State.closeSession

/-- PROVISION_OWNER, through the mailbox only; while no slot is used it is an open message. -/
def State.provisionMsg (s : State) (src : MsgSrc) : State :=
  s.message src 0x50 s.fuses.slots.isEmpty fun m s =>
    if fromPort src then { s := s, result := rsMode }
    else if m.body.length ≠ 64 then { s := s, result := rsArg }
    else if 4 ≤ s.fuses.slots.length then { s := s, result := rsFuses }
    else { s := s.provision (m.body.take 32) (m.body.drop 32) }

/-! ### Times (R526, R531, R538) -/

/-- SESSION_TIMEOUT: sessions without a message for 600 s close. -/
def State.sessionsLate (s : State) : State :=
  s.each (s.sty.sessions.filter fun x => x.last + secs 600 ≤ s.now) fun s x => s.closeSession x.num

/-- AUTH_LOCKOUT_END. -/
def State.lockoutsOver (s : State) : State :=
  { s with sty := { s.sty with lockout := s.sty.lockout.filter fun l => s.now < l.1 } }

/-- A sync message of the vehicle time, with the estimated offset in nanoseconds. -/
def State.syncMessage (s : State) (offset : Int) (vt : Nat) : State :=
  if !s.sty.up || !s.flag Reg.styNetGptpEn then s
  else
    let s := s.setReg Reg.stySyncOffsetNs (signedSat 16 offset)
    let good := if offset.natAbs ≤ 1000 then s.sty.gptpGood + 1 else 0
    let s := { s with sty := { s.sty with gptpGood := good } }
    if s.tick.vtSync then (if 2000 < offset.natAbs then s.unsynced else s)
    else if 8 ≤ good then s.synced vt
    else s

/-- Three sync intervals without a message. -/
def State.syncTimeout (s : State) : State :=
  if !s.sty.up || !s.flag Reg.styNetGptpEn then s
  else ({ s with sty := { s.sty with gptpGood := 0 } }).unsynced

/-- HOST_SILENT: three heartbeat periods without a heartbeat. -/
def State.hostQuiet (s : State) : State :=
  let p := s.reg Reg.styHbPeriodMs
  if !s.sty.up || p = 0 || s.now < s.sty.hbLast + ms (3 * p) then s
  else
    let s := { s with sty := { s.sty with hbLast := s.now } }
    ((s.noteAon fcHostSilent).log 9 0).bump Reg.styHbMissed

end Sys2Proof.Machine
end

