-- ==== Sys2Proof/Machine/RingCommands.lean ====
section
/-! DEFINITION. The commands of the rings and doorbells (04_rings_and_doorbells.md). -/

namespace Sys2Proof.Machine

/-- SQ_TAIL_DOORBELL (04_rings_and_doorbells.md R128): An SQ tail doorbell word sets a new submission tail if it is in
range, and is ignored and counted otherwise. -/
def execSqTailDoorbell (t : Nat) (ch : Fin 4) (w : BitVec 64) (s : State) : Host.Outcome State Fault Refusal :=
  finish ((s.at_ t).bell ch w).onward

/-- CQ_HEAD_DOORBELL (04_rings_and_doorbells.md R129): A CQ head doorbell word frees completion slots and may end
notification. -/
def execCqHeadDoorbell (t : Nat) (ch : Fin 4) (w : BitVec 64) (s : State) : Host.Outcome State Fault Refusal :=
  finish ((s.at_ t).bell ch w).onward

/-- MARK_DOORBELL (04_rings_and_doorbells.md R130): A mark doorbell word sets RG_MARKc of the channel on which it is
written. -/
def execMarkDoorbell (t : Nat) (ch : Fin 4) (w : BitVec 64) (s : State) : Host.Outcome State Fault Refusal :=
  finish ((s.at_ t).bell ch w).onward

/-- MAILBOX_DOORBELL (04_rings_and_doorbells.md R153): A mailbox doorbell word on channel 0 submits the request in the
mailbox to the Study. -/
def execMailboxDoorbell (t : Nat) (ch : Fin 4) (w : BitVec 64) (s : State) : Host.Outcome State Fault Refusal :=
  finish ((s.at_ t).bell ch w).onward

/-- MAILBOX_REPLY (04_rings_and_doorbells.md R154): The Study writes the reply body and then the header, and sets
MBOX_REPLY. -/
def execMailboxReply (t : Nat) (s : State) : Host.Outcome State Fault Refusal := finish (s.at_ t).mailAnswer.onward

/-- DESCRIPTOR_READ (04_rings_and_doorbells.md R132): The slot at the next index is read and accepted when INDEX and
INDEX_CHK match; otherwise it is re-read within 1 µs. -/
def execDescriptorRead (t : Nat) (sq : Fin 64) (s : State) : Host.Outcome State Fault Refusal :=
  finish ((s.at_ t).readSlot sq).onward

/-- ARRIVE_TIMEOUT (04_rings_and_doorbells.md R133): A descriptor not accepted ARRIVE_US after its doorbell is consumed
with a NOT_ARRIVED record in the error CQ. -/
def execArriveTimeout (t : Nat) (sq : Fin 64) (s : State) : Host.Outcome State Fault Refusal :=
  finish ((s.at_ t).arriveLate sq).onward

/-- FENCE_TIMEOUT (04_rings_and_doorbells.md R136): A fence wait exceeds FENCE_US and the descriptor completes with
FENCE_TIMEOUT. -/
def execFenceTimeout (t : Nat) (sq : Fin 64) (s : State) : Host.Outcome State Fault Refusal :=
  finish ((s.at_ t).fenceLate sq).onward

/-- DESCRIPTOR_ADMISSION (04_rings_and_doorbells.md R139): A descriptor whose fence and completion space are satisfied
is admitted in ring order and reserves one record. -/
def execDescriptorAdmission (t : Nat) (s : State) : Host.Outcome State Fault Refusal :=
  finish (s.at_ t).admitNext.onward

/-- STEP_LIST (04_rings_and_doorbells.md R120): A STEP_LIST descriptor posts a step list in its class on its wing. -/
def execStepList (t : Nat) (sq : Fin 64) (s : State) : Host.Outcome State Fault Refusal :=
  finish ((s.at_ t).admitIf sq (isOp 0x01)).onward

/-- TICK_CONTROL (02_the_tick.md R58): A TICK_CONTROL descriptor arranges the reading of a new tick table for use from
tick M. -/
def execTickControl (t : Nat) (sq : Fin 64) (s : State) : Host.Outcome State Fault Refusal :=
  finish ((s.at_ t).admitIf sq (isOp 0x02)).onward

/-- WING_TABLE (05_steps_and_wings.md R165): A WING_TABLE descriptor writes one wing table for use from the next
boundary, or is rejected. -/
def execWingTable (t : Nat) (sq : Fin 64) (s : State) : Host.Outcome State Fault Refusal :=
  finish ((s.at_ t).admitIf sq (isOp 0x03)).onward

/-- STREAM_AWAY (10_state_streams.md R351): A STREAM_AWAY descriptor asks to lend out a stream's state once no chunk of
it runs. -/
def execStreamAway (t : Nat) (sq : Fin 64) (s : State) : Host.Outcome State Fault Refusal :=
  finish ((s.at_ t).admitIf sq (isOp 0x04)).onward

/-- STREAM_HOME (10_state_streams.md R352): A STREAM_HOME descriptor asks to return a stream and optionally replace its
state pointer or entry. -/
def execStreamHome (t : Nat) (sq : Fin 64) (s : State) : Host.Outcome State Fault Refusal :=
  finish ((s.at_ t).admitIf sq (isOp 0x05)).onward

/-- STREAM_EDIT_APPLY (10_state_streams.md R353): A waiting STREAM_AWAY or STREAM_HOME is applied once no chunk of the
stream runs. -/
def execStreamEditApply (t : Nat) (stream : Fin 16384) (s : State) : Host.Outcome State Fault Refusal :=
  finish ((s.at_ t).strmGo stream).onward

/-- INVALIDATE (08_memory_tiers.md R291): An INVALIDATE descriptor drops translation-cache entries of a range, or all
entries, and fences walks. -/
def execInvalidate (t : Nat) (sq : Fin 64) (s : State) : Host.Outcome State Fault Refusal :=
  finish ((s.at_ t).admitIf sq (isOp 0x06)).onward

/-- INVALIDATE_COMPLETE (08_memory_tiers.md R292): Every dropped entry, earlier walk and access has finished, and the
INVALIDATE completes. -/
def execInvalidateComplete (t : Nat) (s : State) : Host.Outcome State Fault Refusal := finish (s.at_ t).invalEnd.onward

/-- PLACE (08_memory_tiers.md R273): A PLACE descriptor places, releases, reclasses or places and zeroes the pages of a
DVA range. -/
def execPlace (t : Nat) (sq : Fin 64) (s : State) : Host.Outcome State Fault Refusal :=
  finish ((s.at_ t).admitIf sq (isOp 0x07)).onward

/-- FENCE (04_rings_and_doorbells.md R121): A FENCE descriptor is admitted once every earlier descriptor of its ring has
completed, and completes at once. -/
def execFence (t : Nat) (sq : Fin 64) (s : State) : Host.Outcome State Fault Refusal :=
  finish ((s.at_ t).admitIf sq (isOp 0x08)).onward

/-- ARM_URGENT (04_rings_and_doorbells.md R122): An ARM_URGENT descriptor arms a step list to run as Urgent work on an
event. -/
def execArmUrgent (t : Nat) (sq : Fin 64) (s : State) : Host.Outcome State Fault Refusal :=
  finish ((s.at_ t).admitIf sq (isOp 0x09)).onward

/-- DISARM (04_rings_and_doorbells.md R125): A DISARM descriptor withdraws the arming of an event. -/
def execDisarm (t : Nat) (sq : Fin 64) (s : State) : Host.Outcome State Fault Refusal :=
  finish ((s.at_ t).admitIf sq (isOp 0x0A)).onward

/-- SEQUENCE_SET (09_attention_and_kv.md R312): SEQUENCE action SET replaces a sequence-table entry with an image. -/
def execSequenceSet (t : Nat) (sq : Fin 64) (s : State) : Host.Outcome State Fault Refusal :=
  finish ((s.at_ t).admitIf sq (isSeq 0)).onward

/-- SEQUENCE_CLEAR (09_attention_and_kv.md R312): SEQUENCE action CLEAR sets a sequence entry's VALID to 0. -/
def execSequenceClear (t : Nat) (sq : Fin 64) (s : State) : Host.Outcome State Fault Refusal :=
  finish ((s.at_ t).admitIf sq (isSeq 1)).onward

/-- SEQUENCE_TRUNCATE (09_attention_and_kv.md R312): SEQUENCE action TRUNCATE sets a sequence entry's LENGTH to VALUE.
-/
def execSequenceTruncate (t : Nat) (sq : Fin 64) (s : State) : Host.Outcome State Fault Refusal :=
  finish ((s.at_ t).admitIf sq (isSeq 2)).onward

/-- SEQUENCE_REBASE (09_attention_and_kv.md R312): SEQUENCE action REBASE sets a sequence entry's POS_BASE to VALUE. -/
def execSequenceRebase (t : Nat) (sq : Fin 64) (s : State) : Host.Outcome State Fault Refusal :=
  finish ((s.at_ t).admitIf sq (isSeq 3)).onward

/-- SEQUENCE_EDIT_APPLY (09_attention_and_kv.md R313): A waiting SEQUENCE edit is applied once no ATTENTION step is
running on the entry. -/
def execSequenceEditApply (t : Nat) (entry : Fin 65536) (s : State) : Host.Outcome State Fault Refusal :=
  finish ((s.at_ t).seqGo entry).onward

/-- TENANT_SWITCH (17_security.md R551): A TENANT_SWITCH descriptor stops all work, discards jobs, advances the epoch
and removes power from main-die SRAMs. -/
def execTenantSwitch (t : Nat) (sq : Fin 64) (s : State) : Host.Outcome State Fault Refusal :=
  finish ((s.at_ t).admitIf sq (isOp 0x0C)).onward

/-- TENANT_SWITCH_COMPLETE (17_security.md R551): Once power, keys, microcode and the window scrub are restored, the
TENANT_SWITCH record is written with the new epoch. -/
def execTenantSwitchComplete (t : Nat) (s : State) : Host.Outcome State Fault Refusal := finish (s.at_ t).tsrEnd.onward

/-- PERF_REQUEST (14_power.md R465): A PERF_REQUEST with STATE 0 sets the requested performance level from the next
boundary. -/
def execPerfRequest (t : Nat) (sq : Fin 64) (s : State) : Host.Outcome State Fault Refusal :=
  finish ((s.at_ t).admitIf sq (isPerf 0)).onward

/-- PERF_REQUEST_S2 (14_power.md R471): A PERF_REQUEST with STATE 2 stops work, saves state and powers the main die down
into S2. -/
def execPerfRequestS2 (t : Nat) (sq : Fin 64) (s : State) : Host.Outcome State Fault Refusal :=
  finish ((s.at_ t).admitIf sq (isPerf 2)).onward

/-- PERF_REQUEST_S3 (14_power.md R473): A PERF_REQUEST with STATE 3 runs the S2 entry and then drops the Loft group into
S3. -/
def execPerfRequestS3 (t : Nat) (sq : Fin 64) (s : State) : Host.Outcome State Fault Refusal :=
  finish ((s.at_ t).admitIf sq (isPerf 3)).onward

/-- SLEEP_GRACE_EXPIRY (14_power.md R471): GRACE_MS after the sleep record, FD_READY falls and the main-die power-down
proceeds. -/
def execSleepGraceExpiry (t : Nat) (s : State) : Host.Outcome State Fault Refusal := finish (s.at_ t).sleepGo.onward

/-- COAL_TIMEOUT (04_rings_and_doorbells.md R147): COAL_US after its first unfreed record, a CQ starts notifying and
asserts its attention output. -/
def execCoalTimeout (t : Nat) (cq : Fin 64) (s : State) : Host.Outcome State Fault Refusal :=
  finish ((s.at_ t).coalLate cq).onward

/-- RG_SQ_CFG_WRITE (04_rings_and_doorbells.md R117): A write to RG_SQ_CFGn enables or disables a submission ring, with
base checks and locked geometry while enabled. -/
def execRgSqCfgWrite (t : Nat) (n : Fin 64) (v : Word) (s : State) : Host.Outcome State Fault Refusal :=
  finish ((s.at_ t).hostWrite (0x6104 + 8 * n.val) v).onward

/-- RG_CQ_CFG_WRITE (04_rings_and_doorbells.md R148): A write to RG_CQ_CFGn configures a completion ring; clearing
ENABLE ends its notification. -/
def execRgCqCfgWrite (t : Nat) (n : Fin 64) (v : Word) (s : State) : Host.Outcome State Fault Refusal :=
  finish ((s.at_ t).hostWrite (0x6304 + 8 * n.val) v).onward

/-- RG_STATUS_ROW_WRITE (04_rings_and_doorbells.md R146): A write to RG_STATUS_ROW starts or stops the ring status row,
and is refused for an excluded row. -/
def execRgStatusRowWrite (t : Nat) (v : Word) (s : State) : Host.Outcome State Fault Refusal :=
  finish ((s.at_ t).hostWrite 0x6004 v).onward

/-- STATUS_ROW_UPDATE (04_rings_and_doorbells.md R146): A ring status sector is rewritten within 2 µs of a change to the
values it holds. -/
def execStatusRowUpdate (t : Nat) (n : Fin 64) (s : State) : Host.Outcome State Fault Refusal :=
  finish ((s.at_ t).statusRow n).onward

/-- ATTN_STATUS_CLEAR (04_rings_and_doorbells.md R150): Writing 1 to a pending bit of RG_ATTN_STATUS clears it and may
release its attention output. -/
def execAttnStatusClear (t : Nat) (v : Word) (s : State) : Host.Outcome State Fault Refusal :=
  finish ((s.at_ t).hostWrite 0x6020 v).onward

end Sys2Proof.Machine
end

