-- ==== Sys2Proof/Machine/StepCommands.lean ====
section
/-! DEFINITION. The commands of the tiles, their steps and batches (05_steps_and_wings.md to 11_vision_operators.md). -/

namespace Sys2Proof.Machine

/-- MATMUL (06_tile_arithmetic.md R210): A MATMUL step computes its share of output blocks on the tile's bays. -/
def execMatmul (t : Nat) (tile : Fin 16) (fail : Option (Fin 4 × Fin 66))
    (s : State) : Host.Outcome State Fault Refusal :=
  finish ((s.at_ t).bayStep 1 tile fail).onward

/-- CONV (11_vision_operators.md R363): A CONV step runs a convolution as a matrix product on the bays. -/
def execConv (t : Nat) (tile : Fin 16) (fail : Option (Fin 4 × Fin 66))
    (s : State) : Host.Outcome State Fault Refusal :=
  finish ((s.at_ t).bayStep 2 tile fail).onward

/-- DWCONV (11_vision_operators.md R369): A DWCONV step runs a depth-wise or grouped convolution on the vector engine.
-/
def execDwconv (t : Nat) (tile : Fin 16) (s : State) : Host.Outcome State Fault Refusal :=
  finish ((s.at_ t).startShare 3 tile).onward

/-- VECTOR (06_tile_arithmetic.md R218): A VECTOR step applies its VOP to row slabs on the vector engine. -/
def execVector (t : Nat) (tile : Fin 16) (s : State) : Host.Outcome State Fault Refusal :=
  finish ((s.at_ t).startShare 4 tile).onward

/-- ATTENTION (09_attention_and_kv.md R320): An ATTENTION step appends keys and values and computes attention for its
items. -/
def execAttention (t : Nat) (tile : Fin 16) (s : State) : Host.Outcome State Fault Refusal :=
  finish ((s.at_ t).startShare 5 tile).onward

/-- SCAN (10_state_streams.md R346): A SCAN step runs one chunk of each of its streams. -/
def execScan (t : Nat) (tile : Fin 16) (s : State) : Host.Outcome State Fault Refusal :=
  finish ((s.at_ t).startShare 6 tile).onward

/-- SCAN_ITEM_COMPLETE (10_state_streams.md R348): A chunk completes, writes its carried-out state and advances
NEXT_SEQ. -/
def execScanItemComplete (t : Nat) (tile : Fin 16) (s : State) : Host.Outcome State Fault Refusal :=
  finish ((s.at_ t).scanItemDone tile).onward

/-- STREAM_HOLD_TIMEOUT (10_state_streams.md R354): A held item reaches its HOLD_TICKS-th boundary and completes with a
timeout status. -/
def execStreamHoldTimeout (t : Nat) (tile : Fin 16) (s : State) : Host.Outcome State Fault Refusal :=
  finish ((s.at_ t).scanTimeouts tile).onward

/-- POOL (11_vision_operators.md R372): A POOL step pools windows of its input map. -/
def execPool (t : Nat) (tile : Fin 16) (s : State) : Host.Outcome State Fault Refusal :=
  finish ((s.at_ t).startShare 7 tile).onward

/-- CROP_RESIZE (11_vision_operators.md R375): A CROP_RESIZE step samples each box of a box list into an output. -/
def execCropResize (t : Nat) (tile : Fin 16) (s : State) : Host.Outcome State Fault Refusal :=
  finish ((s.at_ t).startShare 8 tile).onward

/-- RESAMPLE (11_vision_operators.md R377): A RESAMPLE step resizes a whole map. -/
def execResample (t : Nat) (tile : Fin 16) (s : State) : Host.Outcome State Fault Refusal :=
  finish ((s.at_ t).startShare 9 tile).onward

/-- GATHER (05_steps_and_wings.md R163): A GATHER step copies the rows that an index list names. -/
def execGather (t : Nat) (tile : Fin 16) (s : State) : Host.Outcome State Fault Refusal :=
  finish ((s.at_ t).startShare 0x0A tile).onward

/-- COPY (05_steps_and_wings.md R162): A COPY step copies 64-byte units from source to destination. -/
def execCopy (t : Nat) (tile : Fin 16) (s : State) : Host.Outcome State Fault Refusal :=
  finish ((s.at_ t).startShare 0x0B tile).onward

/-- MIGRATE (08_memory_tiers.md R277): A MIGRATE step places, releases or reclasses the pages of a range, spread over
wing ranks. -/
def execMigrate (t : Nat) (tile : Fin 16) (s : State) : Host.Outcome State Fault Refusal :=
  finish ((s.at_ t).startShare 0x0C tile).onward

/-- SYNC (05_steps_and_wings.md R162): A SYNC step only waits for and emits named tokens. -/
def execSync (t : Nat) (tile : Fin 16) (s : State) : Host.Outcome State Fault Refusal :=
  finish ((s.at_ t).startShare 0x0D tile).onward

/-- STEP_SHARE_COMPLETE (05_steps_and_wings.md R167): A tile completes its share of a step and may start its next step.
-/
def execStepShareComplete (t : Nat) (tile : Fin 16) (s : State) : Host.Outcome State Fault Refusal :=
  finish ((s.at_ t).shareDone tile).onward

/-- SLAB_CREDIT_RETURN (05_steps_and_wings.md R170): A consumer frees a hand-off slab slot and returns a credit to the
waiting producer. -/
def execSlabCreditReturn (t : Nat) (tile : Fin 16) (s : State) : Host.Outcome State Fault Refusal :=
  finish ((s.at_ t).slabReturns tile).onward

/-- NAMED_TOKEN_ARRIVAL (05_steps_and_wings.md R172): A tile has received a named token's emission from every emitting
tile, sets the token and releases waiting steps. -/
def execNamedTokenArrival (t : Nat) (tile : Fin 16) (token : Fin 1024) (s : State) : Host.Outcome State Fault Refusal :=
  finish ((s.at_ t).tokenArrives tile token).onward

/-- TOKEN_TIMEOUT (05_steps_and_wings.md R175): A Background step has waited through TOKEN_TICKS boundaries for a token,
and its list completes with TOKEN_TIMEOUT. -/
def execTokenTimeout (t : Nat) (tile : Fin 16) (s : State) : Host.Outcome State Fault Refusal :=
  finish ((s.at_ t).tokenTimeouts tile).onward

/-- READ_CREDIT_RETURN (05_steps_and_wings.md R177): An outstanding 64-byte read returns and releases its read credit.
-/
def execReadCreditReturn (t : Nat) (tile : Fin 16) (loc : MemLoc) (ecc : Ecc)
    (s : State) : Host.Outcome State Fault Refusal :=
  finish ((s.at_ t).readReturns tile loc ecc).onward

/-- QUANTUM_END (05_steps_and_wings.md R179): A tile's running quantum ends while a stop request is pending, and the
step stops. -/
def execQuantumEnd (t : Nat) (tile : Fin 16) (s : State) : Host.Outcome State Fault Refusal :=
  finish ((s.at_ t).quantumOver tile).onward

/-- BATCH_DEADLINE (05_steps_and_wings.md R189): DEADLINE_US after its first join, an open batch is released. -/
def execBatchDeadline (t : Nat) (wing : Fin 4) (s : State) : Host.Outcome State Fault Refusal :=
  finish ((s.at_ t).batchLate wing).onward

/-- CLR_NAN (06_tile_arithmetic.md R228): Writing 1 to VE_CTRL.CLR_NAN clears every VE_NAN_CNT. -/
def execClrNan (t : Nat) (v : Word) (s : State) : Host.Outcome State Fault Refusal :=
  finish ((s.at_ t).hostWrite 0xC040 v).onward

/-- VIS_CLR_CNT (11_vision_operators.md R379): Writing 1 to VIS_CTRL.CLR_CNT clears VIS_BOX_ERR. -/
def execVisClrCnt (t : Nat) (v : Word) (s : State) : Host.Outcome State Fault Refusal :=
  finish ((s.at_ t).hostWrite 0x14004 v).onward

end Sys2Proof.Machine
end

