-- ==== Sys2Proof/Machine/StudyCommands.lean ====
section
/-! DEFINITION. The commands of the Study: management messages and their times (16_study.md). -/

namespace Sys2Proof.Machine

/-- IDENTITY (16_study.md R508): The IDENTITY message returns the identity page. -/
def execIdentity (t : Nat) (src : MsgSrc) (s : State) : Host.Outcome State Fault Refusal :=
  guarded (Instr.identity t src).wellFormed ((s.at_ t).identityMsg src).onward

/-- STATUS (16_study.md R528): The STATUS message returns mode, update, reset cause and generation state. -/
def execStatus (t : Nat) (src : MsgSrc) (s : State) : Host.Outcome State Fault Refusal :=
  guarded (Instr.status t src).wellFormed ((s.at_ t).statusMsg src).onward

/-- CHALLENGE (16_study.md R525): The CHALLENGE message returns a 32-byte nonce for one AUTH. -/
def execChallenge (t : Nat) (src : MsgSrc) (s : State) : Host.Outcome State Fault Refusal :=
  guarded (Instr.challenge t src).wellFormed ((s.at_ t).challengeMsg src).onward

/-- AUTH (16_study.md R525): The AUTH message proves the owner secret and opens a session. -/
def execAuth (t : Nat) (src : MsgSrc) (s : State) : Host.Outcome State Fault Refusal :=
  guarded (Instr.auth t src).wellFormed ((s.at_ t).authMsg src).onward

/-- HEARTBEAT (16_study.md R536): The HEARTBEAT message returns STATE and CHECK for the host's challenge. -/
def execHeartbeat (t : Nat) (src : MsgSrc) (s : State) : Host.Outcome State Fault Refusal :=
  guarded (Instr.heartbeat t src).wellFormed ((s.at_ t).heartbeatMsg src).onward

/-- QUOTE (17_security.md R563): The QUOTE message returns a signed quote of device state with the certificate. -/
def execQuote (t : Nat) (src : MsgSrc) (s : State) : Host.Outcome State Fault Refusal :=
  guarded (Instr.quote t src).wellFormed ((s.at_ t).quoteMsg src).onward

/-- SENSOR_READ (16_study.md R528): The SENSOR_READ message returns the temperature and rail readings. -/
def execSensorRead (t : Nat) (src : MsgSrc) (s : State) : Host.Outcome State Fault Refusal :=
  guarded (Instr.sensorRead t src).wellFormed ((s.at_ t).sensorMsg src).onward

/-- LOG_READ (16_study.md R528): The LOG_READ message returns up to 16 logbook entries from a given SEQ. -/
def execLogRead (t : Nat) (src : MsgSrc) (s : State) : Host.Outcome State Fault Refusal :=
  guarded (Instr.logRead t src).wellFormed ((s.at_ t).logMsg src).onward

/-- UPDATE_BEGIN (16_study.md R533): The UPDATE_BEGIN message starts staging an update of one kind. -/
def execUpdateBegin (t : Nat) (src : MsgSrc) (s : State) : Host.Outcome State Fault Refusal :=
  guarded (Instr.updateBegin t src).wellFormed ((s.at_ t).beginMsg src).onward

/-- UPDATE_DATA (16_study.md R533): The UPDATE_DATA message writes a chunk of the staged image. -/
def execUpdateData (t : Nat) (src : MsgSrc) (flashOk : Bool) (s : State) : Host.Outcome State Fault Refusal :=
  guarded (Instr.updateData t src flashOk).wellFormed ((s.at_ t).dataMsg src flashOk).onward

/-- UPDATE_VERIFY (16_study.md R533): The UPDATE_VERIFY message checks the digest, usability and compatibility, and
enters verified. -/
def execUpdateVerify (t : Nat) (src : MsgSrc) (what : Staged) (s : State) : Host.Outcome State Fault Refusal :=
  guarded (Instr.updateVerify t src what).wellFormed ((s.at_ t).verifyMsg src what).onward

/-- UPDATE_COMMIT (16_study.md R534): The UPDATE_COMMIT message writes the directory and raises the anti-rollback
counter. -/
def execUpdateCommit (t : Nat) (src : MsgSrc) (flashOk : Bool) (s : State) : Host.Outcome State Fault Refusal :=
  guarded (Instr.updateCommit t src flashOk).wellFormed ((s.at_ t).commitMsg src flashOk).onward

/-- UPDATE_ACTIVATE (16_study.md R535): The UPDATE_ACTIVATE message selects a set and restarts the images that change,
or activates a settings generation. -/
def execUpdateActivate (t : Nat) (src : MsgSrc) (s : State) : Host.Outcome State Fault Refusal :=
  guarded (Instr.updateActivate t src).wellFormed ((s.at_ t).activateMsg src).onward

/-- UPDATE_ABORT (16_study.md R533): The UPDATE_ABORT message abandons an update before commit. -/
def execUpdateAbort (t : Nat) (src : MsgSrc) (s : State) : Host.Outcome State Fault Refusal :=
  guarded (Instr.updateAbort t src).wellFormed ((s.at_ t).abortMsg src).onward

/-- SETTINGS_REVERT (15_resets_and_retention.md R500): The SETTINGS_REVERT message reverts to the other SETTLED
generation. -/
def execSettingsRevert (t : Nat) (src : MsgSrc) (s : State) : Host.Outcome State Fault Refusal :=
  guarded (Instr.settingsRevert t src).wellFormed ((s.at_ t).revertMsg src).onward

/-- RESET (16_study.md R528): The RESET message orders an STR, MDR or PCR. -/
def execReset (t : Nat) (src : MsgSrc) (s : State) : Host.Outcome State Fault Refusal :=
  guarded (Instr.reset t src).wellFormed ((s.at_ t).resetMsg src).onward

/-- SLEEP_S3 (14_power.md R475): The SLEEP_S3 message orders S3 from S2. -/
def execSleepS3 (t : Nat) (src : MsgSrc) (s : State) : Host.Outcome State Fault Refusal :=
  guarded (Instr.sleepS3 t src).wellFormed ((s.at_ t).sleepMsg src).onward

/-- WAKE (14_power.md R477): The WAKE message on the management port is wake source 4. -/
def execWake (t : Nat) (src : MsgSrc) (s : State) : Host.Outcome State Fault Refusal :=
  guarded (Instr.wake t src).wellFormed ((s.at_ t).wakeMsg src).onward

/-- PROVISION_OWNER (16_study.md R524): The PROVISION_OWNER message burns the next owner slot, re-tags settings and
closes sessions. -/
def execProvisionOwner (t : Nat) (src : MsgSrc) (s : State) : Host.Outcome State Fault Refusal :=
  guarded (Instr.provisionOwner t src).wellFormed ((s.at_ t).provisionMsg src).onward

/-- SESSION_TIMEOUT (16_study.md R526): A session closes after 600 s without a message. -/
def execSessionTimeout (t : Nat) (s : State) : Host.Outcome State Fault Refusal := finish (s.at_ t).sessionsLate.onward

/-- AUTH_LOCKOUT_END (16_study.md R526): A transport's 60 s AUTH refusal ends. -/
def execAuthLockoutEnd (t : Nat) (s : State) : Host.Outcome State Fault Refusal := finish (s.at_ t).lockoutsOver.onward

/-- GPTP_SYNC_MESSAGE (16_study.md R531): An 802.1AS sync message updates the offset estimate and may report or withdraw
synchronisation. -/
def execGptpSyncMessage (t : Nat) (offset : Int) (vt : BitVec 64) (s : State) : Host.Outcome State Fault Refusal :=
  finish ((s.at_ t).syncMessage offset vt.toNat).onward

/-- GPTP_SYNC_TIMEOUT (16_study.md R531): Three sync intervals pass without a message, and synchronisation is withdrawn.
-/
def execGptpSyncTimeout (t : Nat) (s : State) : Host.Outcome State Fault Refusal := finish (s.at_ t).syncTimeout.onward

/-- HOST_SILENT (16_study.md R538): Three heartbeat periods pass without a heartbeat, raising a HOST_SILENT note. -/
def execHostSilent (t : Nat) (s : State) : Host.Outcome State Fault Refusal := finish (s.at_ t).hostQuiet.onward

/-- LOGBOOK_FLUSH (16_study.md R540): The logbook tail is written to flash every 1 s or when 64 entries wait. -/
def execLogbookFlush (t : Nat) (s : State) : Host.Outcome State Fault Refusal := finish (s.at_ t).logFlush.onward

end Sys2Proof.Machine
end

