-- ==== Sys2Proof/Machine/TickCommands.lean ====
section
/-! DEFINITION. The commands of the tick (02_the_tick.md). -/

namespace Sys2Proof.Machine

/-- TIMER_BOUNDARY (02_the_tick.md R41): With source 0 the internal timer reaches PERIOD_US after the previous boundary
and a tick boundary occurs. -/
def execTimerBoundary (t : Nat) (s : State) : Host.Outcome State Fault Refusal := finish (s.at_ t).timerTick.onward

/-- TICK_SOURCE_EDGE (02_the_tick.md R43): A Gallery frame start or TICK_IN edge arrives; it becomes a boundary if it
falls outside the early window, and is otherwise ignored and counted. -/
def execTickSourceEdge (t : Nat) (src : EdgeSrc) (s : State) : Host.Outcome State Fault Refusal :=
  finish ((s.at_ t).sourceEdge src).onward

/-- SUBSTITUTE_BOUNDARY (02_the_tick.md R44): No accepted edge has arrived by p × (1 + w), so the internal timer issues
a substitute boundary and may raise the L2 TICK_SOURCE fault. -/
def execSubstituteBoundary (t : Nat) (s : State) : Host.Outcome State Fault Refusal :=
  finish (s.at_ t).substituteTick.onward

/-- VEHICLE_TIME_BOUNDARY (02_the_tick.md R54): With source 3, vehicle time reaches an instant congruent to PHASE_US
modulo PERIOD_US and a boundary occurs. -/
def execVehicleTimeBoundary (t : Nat) (s : State) : Host.Outcome State Fault Refusal :=
  finish (s.at_ t).vehicleTick.onward

/-- TICK_CTRL_WRITE (02_the_tick.md R50): A write to TK_CTRL enables or disables boundaries, or re-arms the selected
tick source. -/
def execTickCtrlWrite (t : Nat) (v : Word) (s : State) : Host.Outcome State Fault Refusal :=
  finish ((s.at_ t).hostWrite 0x7000 v).onward

/-- TK_NUMBER_LO_READ (02_the_tick.md R73): A read of TK_NUMBER_LO returns tick number bits [31:0] and latches bits
[63:32] into TK_NUMBER_HI. -/
def execTkNumberLoRead (t : Nat) (s : State) : Host.Outcome State Fault Refusal :=
  finish ((s.at_ t).hostRead 0x7018).onward

/-- SYNC_LOST (02_the_tick.md R55): Vehicle-time synchronisation is lost; boundaries continue in holdover and a
TICK_SOURCE note is raised. -/
def execSyncLost (t : Nat) (s : State) : Host.Outcome State Fault Refusal := finish (s.at_ t).unsynced.onward

/-- SYNC_REPORTED (02_the_tick.md R56): The Study reports synchronisation, and boundaries are slewed onto vehicle-time
instants. -/
def execSyncReported (t : Nat) (vt : BitVec 64) (s : State) : Host.Outcome State Fault Refusal :=
  finish ((s.at_ t).synced vt.toNat).onward

/-- BACKGROUND_PHASE_START (02_the_tick.md R63): Every wing of TICK_WT has completed, dropped or carried its Tick work,
so the background phase begins under BG_WT. -/
def execBackgroundPhaseStart (t : Nat) (s : State) : Host.Outcome State Fault Refusal :=
  finish (s.at_ t).backgroundStart.onward

/-- BUDGET_EXPIRY (02_the_tick.md R68): A wing's budget expires with Tick work incomplete, and its drop, carry or
escalate policy applies. -/
def execBudgetExpiry (t : Nat) (wing : Fin 4) (s : State) : Host.Outcome State Fault Refusal :=
  finish ((s.at_ t).budgetOver wing).onward

/-- URGENT_LIMIT_EXPIRY (02_the_tick.md R71): Urgent work still runs LIMIT_US after admission and is stopped at its
quantum with status URGENT_LIMIT. -/
def execUrgentLimitExpiry (t : Nat) (s : State) : Host.Outcome State Fault Refusal := finish (s.at_ t).urgentOver.onward

end Sys2Proof.Machine
end

