-- ==== Sys2Proof/Machine/Dispatch.lean ====
section
/-! DEFINITION. The dispatch: one arm for each constructor of `Instr`, each one direct call of its meaning. -/

namespace Sys2Proof.Machine

def exec (i : Instr) (s : State) : Host.Outcome State Fault Refusal :=
  match i with
  | .timerBoundary t => Sys2Proof.Machine.execTimerBoundary t s
  | .tickSourceEdge t src => Sys2Proof.Machine.execTickSourceEdge t src s
  | .substituteBoundary t => Sys2Proof.Machine.execSubstituteBoundary t s
  | .vehicleTimeBoundary t => Sys2Proof.Machine.execVehicleTimeBoundary t s
  | .tickCtrlWrite t v => Sys2Proof.Machine.execTickCtrlWrite t v s
  | .tkNumberLoRead t => Sys2Proof.Machine.execTkNumberLoRead t s
  | .syncLost t => Sys2Proof.Machine.execSyncLost t s
  | .syncReported t vt => Sys2Proof.Machine.execSyncReported t vt s
  | .backgroundPhaseStart t => Sys2Proof.Machine.execBackgroundPhaseStart t s
  | .budgetExpiry t wing => Sys2Proof.Machine.execBudgetExpiry t wing s
  | .urgentLimitExpiry t => Sys2Proof.Machine.execUrgentLimitExpiry t s
  | .act t ch bank row => Sys2Proof.Machine.execAct t ch bank row s
  | .rd16 t ch bank col => Sys2Proof.Machine.execRd16 t ch bank col s
  | .rd32 t ch bank col => Sys2Proof.Machine.execRd32 t ch bank col s
  | .wr16 t ch bank col data ecc => Sys2Proof.Machine.execWr16 t ch bank col data ecc s
  | .wr32 t ch bank col data ecc => Sys2Proof.Machine.execWr32 t ch bank col data ecc s
  | .mwr t ch bank col data mask ecc => Sys2Proof.Machine.execMwr t ch bank col data mask ecc s
  | .prepb t ch bank => Sys2Proof.Machine.execPrepb t ch bank s
  | .preab t ch => Sys2Proof.Machine.execPreab t ch s
  | .refpb t ch bank => Sys2Proof.Machine.execRefpb t ch bank s
  | .refab t ch => Sys2Proof.Machine.execRefab t ch s
  | .rfm t ch => Sys2Proof.Machine.execRfm t ch s
  | .sre t ch => Sys2Proof.Machine.execSre t ch s
  | .srx t ch => Sys2Proof.Machine.execSrx t ch s
  | .pde t ch => Sys2Proof.Machine.execPde t ch s
  | .pdx t ch => Sys2Proof.Machine.execPdx t ch s
  | .deepSleepEntry t ch => Sys2Proof.Machine.execDeepSleepEntry t ch s
  | .deepSleepExit t ch => Sys2Proof.Machine.execDeepSleepExit t ch s
  | .mrw t ch mr v => Sys2Proof.Machine.execMrw t ch mr v s
  | .mrr t ch mr => Sys2Proof.Machine.execMrr t ch mr s
  | .cas t ch op => Sys2Proof.Machine.execCas t ch op s
  | .wff t ch data => Sys2Proof.Machine.execWff t ch data s
  | .rff t ch => Sys2Proof.Machine.execRff t ch s
  | .rdc t ch => Sys2Proof.Machine.execRdc t ch s
  | .mpc t ch op => Sys2Proof.Machine.execMpc t ch op s
  | .nop t ch => Sys2Proof.Machine.execNop t ch s
  | .des t ch => Sys2Proof.Machine.execDes t ch s
  | .writebackStart t ch => Sys2Proof.Machine.execWritebackStart t ch s
  | .writebackTimeout t ch => Sys2Proof.Machine.execWritebackTimeout t ch s
  | .spillMerge t => Sys2Proof.Machine.execSpillMerge t s
  | .lpddrReset t ch => Sys2Proof.Machine.execLpddrReset t ch s
  | .windowScrub t => Sys2Proof.Machine.execWindowScrub t s
  | .fdClrCnt t v => Sys2Proof.Machine.execFdClrCnt t v s
  | .sqTailDoorbell t ch w => Sys2Proof.Machine.execSqTailDoorbell t ch w s
  | .cqHeadDoorbell t ch w => Sys2Proof.Machine.execCqHeadDoorbell t ch w s
  | .markDoorbell t ch w => Sys2Proof.Machine.execMarkDoorbell t ch w s
  | .mailboxDoorbell t ch w => Sys2Proof.Machine.execMailboxDoorbell t ch w s
  | .mailboxReply t => Sys2Proof.Machine.execMailboxReply t s
  | .descriptorRead t sq => Sys2Proof.Machine.execDescriptorRead t sq s
  | .arriveTimeout t sq => Sys2Proof.Machine.execArriveTimeout t sq s
  | .fenceTimeout t sq => Sys2Proof.Machine.execFenceTimeout t sq s
  | .descriptorAdmission t => Sys2Proof.Machine.execDescriptorAdmission t s
  | .stepList t sq => Sys2Proof.Machine.execStepList t sq s
  | .tickControl t sq => Sys2Proof.Machine.execTickControl t sq s
  | .wingTable t sq => Sys2Proof.Machine.execWingTable t sq s
  | .streamAway t sq => Sys2Proof.Machine.execStreamAway t sq s
  | .streamHome t sq => Sys2Proof.Machine.execStreamHome t sq s
  | .streamEditApply t stream => Sys2Proof.Machine.execStreamEditApply t stream s
  | .invalidate t sq => Sys2Proof.Machine.execInvalidate t sq s
  | .invalidateComplete t => Sys2Proof.Machine.execInvalidateComplete t s
  | .place t sq => Sys2Proof.Machine.execPlace t sq s
  | .fence t sq => Sys2Proof.Machine.execFence t sq s
  | .armUrgent t sq => Sys2Proof.Machine.execArmUrgent t sq s
  | .disarm t sq => Sys2Proof.Machine.execDisarm t sq s
  | .sequenceSet t sq => Sys2Proof.Machine.execSequenceSet t sq s
  | .sequenceClear t sq => Sys2Proof.Machine.execSequenceClear t sq s
  | .sequenceTruncate t sq => Sys2Proof.Machine.execSequenceTruncate t sq s
  | .sequenceRebase t sq => Sys2Proof.Machine.execSequenceRebase t sq s
  | .sequenceEditApply t entry => Sys2Proof.Machine.execSequenceEditApply t entry s
  | .tenantSwitch t sq => Sys2Proof.Machine.execTenantSwitch t sq s
  | .tenantSwitchComplete t => Sys2Proof.Machine.execTenantSwitchComplete t s
  | .perfRequest t sq => Sys2Proof.Machine.execPerfRequest t sq s
  | .perfRequestS2 t sq => Sys2Proof.Machine.execPerfRequestS2 t sq s
  | .perfRequestS3 t sq => Sys2Proof.Machine.execPerfRequestS3 t sq s
  | .sleepGraceExpiry t => Sys2Proof.Machine.execSleepGraceExpiry t s
  | .coalTimeout t cq => Sys2Proof.Machine.execCoalTimeout t cq s
  | .rgSqCfgWrite t n v => Sys2Proof.Machine.execRgSqCfgWrite t n v s
  | .rgCqCfgWrite t n v => Sys2Proof.Machine.execRgCqCfgWrite t n v s
  | .rgStatusRowWrite t v => Sys2Proof.Machine.execRgStatusRowWrite t v s
  | .statusRowUpdate t n => Sys2Proof.Machine.execStatusRowUpdate t n s
  | .attnStatusClear t v => Sys2Proof.Machine.execAttnStatusClear t v s
  | .matmul t tile fail => Sys2Proof.Machine.execMatmul t tile fail s
  | .conv t tile fail => Sys2Proof.Machine.execConv t tile fail s
  | .dwconv t tile => Sys2Proof.Machine.execDwconv t tile s
  | .vector t tile => Sys2Proof.Machine.execVector t tile s
  | .attention t tile => Sys2Proof.Machine.execAttention t tile s
  | .scan t tile => Sys2Proof.Machine.execScan t tile s
  | .scanItemComplete t tile => Sys2Proof.Machine.execScanItemComplete t tile s
  | .streamHoldTimeout t tile => Sys2Proof.Machine.execStreamHoldTimeout t tile s
  | .pool t tile => Sys2Proof.Machine.execPool t tile s
  | .cropResize t tile => Sys2Proof.Machine.execCropResize t tile s
  | .resample t tile => Sys2Proof.Machine.execResample t tile s
  | .gather t tile => Sys2Proof.Machine.execGather t tile s
  | .copy t tile => Sys2Proof.Machine.execCopy t tile s
  | .migrate t tile => Sys2Proof.Machine.execMigrate t tile s
  | .sync t tile => Sys2Proof.Machine.execSync t tile s
  | .stepShareComplete t tile => Sys2Proof.Machine.execStepShareComplete t tile s
  | .slabCreditReturn t tile => Sys2Proof.Machine.execSlabCreditReturn t tile s
  | .namedTokenArrival t tile token => Sys2Proof.Machine.execNamedTokenArrival t tile token s
  | .tokenTimeout t tile => Sys2Proof.Machine.execTokenTimeout t tile s
  | .readCreditReturn t tile loc ecc => Sys2Proof.Machine.execReadCreditReturn t tile loc ecc s
  | .quantumEnd t tile => Sys2Proof.Machine.execQuantumEnd t tile s
  | .batchDeadline t wing => Sys2Proof.Machine.execBatchDeadline t wing s
  | .loftBandChange t slice t0 t1 => Sys2Proof.Machine.execLoftBandChange t slice t0 t1 s
  | .cellarMr4Poll t ch code => Sys2Proof.Machine.execCellarMr4Poll t ch code s
  | .cellarTrainingComplete t => Sys2Proof.Machine.execCellarTrainingComplete t s
  | .pageMoveComplete t page bad => Sys2Proof.Machine.execPageMoveComplete t page bad s
  | .zeroingComplete t page => Sys2Proof.Machine.execZeroingComplete t page s
  | .scrubPage t bad => Sys2Proof.Machine.execScrubPage t bad s
  | .mmuRootWrite t hi v => Sys2Proof.Machine.execMmuRootWrite t hi v s
  | .deedQuery t v => Sys2Proof.Machine.execDeedQuery t v s
  | .loftClrCnt t v => Sys2Proof.Machine.execLoftClrCnt t v s
  | .panClrCnt t v => Sys2Proof.Machine.execPanClrCnt t v s
  | .clrNan t v => Sys2Proof.Machine.execClrNan t v s
  | .visClrCnt t v => Sys2Proof.Machine.execVisClrCnt t v s
  | .galClrCnt t v => Sys2Proof.Machine.execGalClrCnt t v s
  | .frameStart t src => Sys2Proof.Machine.execFrameStart t src s
  | .csiLine t src kind px => Sys2Proof.Machine.execCsiLine t src kind px s
  | .embeddedDataPacket t hdr payload => Sys2Proof.Machine.execEmbeddedDataPacket t hdr payload s
  | .frameEnd t src => Sys2Proof.Machine.execFrameEnd t src s
  | .frameTimeout t stream => Sys2Proof.Machine.execFrameTimeout t stream s
  | .frameLate t stream => Sys2Proof.Machine.execFrameLate t stream s
  | .lanePolarityInvert t port lane => Sys2Proof.Machine.execLanePolarityInvert t port lane s
  | .laneOrderFault t port order => Sys2Proof.Machine.execLaneOrderFault t port order s
  | .laneFault t port lane => Sys2Proof.Machine.execLaneFault t port lane s
  | .noClock t port => Sys2Proof.Machine.execNoClock t port s
  | .galStreamWrite t w v => Sys2Proof.Machine.execGalStreamWrite t w v s
  | .porchSample t bits => Sys2Proof.Machine.execPorchSample t bits s
  | .settlingEnd t => Sys2Proof.Machine.execSettlingEnd t s
  | .micCheckWindow t obs => Sys2Proof.Machine.execMicCheckWindow t obs s
  | .swapTestWindow t level lags => Sys2Proof.Machine.execSwapTestWindow t level lags s
  | .muteWrite t m => Sys2Proof.Machine.execMuteWrite t m s
  | .porCtrlWrite t w v => Sys2Proof.Machine.execPorCtrlWrite t w v s
  | .porSampleLoRead t => Sys2Proof.Machine.execPorSampleLoRead t s
  | .keyCtrlWrite t w v => Sys2Proof.Machine.execKeyCtrlWrite t w v s
  | .keyholeFrame t scores => Sys2Proof.Machine.execKeyholeFrame t scores s
  | .partialMatchTimeout t phrase => Sys2Proof.Machine.execPartialMatchTimeout t phrase s
  | .porchChangeDeadline t scores => Sys2Proof.Machine.execPorchChangeDeadline t scores s
  | .chainStageStart t => Sys2Proof.Machine.execChainStageStart t s
  | .chainStageComplete t => Sys2Proof.Machine.execChainStageComplete t s
  | .chainStageTimeout t => Sys2Proof.Machine.execChainStageTimeout t s
  | .feedRecord t => Sys2Proof.Machine.execFeedRecord t s
  | .porchWatchdog t => Sys2Proof.Machine.execPorchWatchdog t s
  | .supplyWarning t rail => Sys2Proof.Machine.execSupplyWarning t rail s
  | .supplyResetThreshold t rail => Sys2Proof.Machine.execSupplyResetThreshold t rail s
  | .supplyHigh t rail => Sys2Proof.Machine.execSupplyHigh t rail s
  | .capHoldExpiry t cap => Sys2Proof.Machine.execCapHoldExpiry t cap s
  | .capReleaseStep t cap => Sys2Proof.Machine.execCapReleaseStep t cap s
  | .battWarnAssert t => Sys2Proof.Machine.execBattWarnAssert t s
  | .battWarnRelease t => Sys2Proof.Machine.execBattWarnRelease t s
  | .battWarnStuck t => Sys2Proof.Machine.execBattWarnStuck t s
  | .refclkMainLost t => Sys2Proof.Machine.execRefclkMainLost t s
  | .refclkAonLost t => Sys2Proof.Machine.execRefclkAonLost t s
  | .clockReturn t main found => Sys2Proof.Machine.execClockReturn t main found s
  | .avsComplete t => Sys2Proof.Machine.execAvsComplete t s
  | .powerCapEvaluation t watts => Sys2Proof.Machine.execPowerCapEvaluation t watts s
  | .thermalCap t sensor temp => Sys2Proof.Machine.execThermalCap t sensor temp s
  | .thermalCapStep t => Sys2Proof.Machine.execThermalCapStep t s
  | .thermalTrip t sensor temp => Sys2Proof.Machine.execThermalTrip t sensor temp s
  | .tripRestart t => Sys2Proof.Machine.execTripRestart t s
  | .dozeEntry t => Sys2Proof.Machine.execDozeEntry t s
  | .s3AfterTimeout t => Sys2Proof.Machine.execS3AfterTimeout t s
  | .wakeInRise t => Sys2Proof.Machine.execWakeInRise t s
  | .mgmtWakeEdge t => Sys2Proof.Machine.execMgmtWakeEdge t s
  | .wakeTimerExpiry t => Sys2Proof.Machine.execWakeTimerExpiry t s
  | .por t => Sys2Proof.Machine.execPor t s
  | .resetNAssert t => Sys2Proof.Machine.execResetNAssert t s
  | .resetNRelease t found => Sys2Proof.Machine.execResetNRelease t found s
  | .studyWatchdog t => Sys2Proof.Machine.execStudyWatchdog t s
  | .rstReqMdr t v => Sys2Proof.Machine.execRstReqMdr t v s
  | .rstReqTlr t v => Sys2Proof.Machine.execRstReqTlr t v s
  | .rstReqStr t v => Sys2Proof.Machine.execRstReqStr t v s
  | .rstReqPcr t v => Sys2Proof.Machine.execRstReqPcr t v s
  | .rstReqRevert t v => Sys2Proof.Machine.execRstReqRevert t v s
  | .setupLockSet t v => Sys2Proof.Machine.execSetupLockSet t v s
  | .registerWrite t w v => Sys2Proof.Machine.execRegisterWrite t w v s
  | .sensorScan t temps => Sys2Proof.Machine.execSensorScan t temps s
  | .railScan t mv cur => Sys2Proof.Machine.execRailScan t mv cur s
  | .identity t src => Sys2Proof.Machine.execIdentity t src s
  | .status t src => Sys2Proof.Machine.execStatus t src s
  | .challenge t src => Sys2Proof.Machine.execChallenge t src s
  | .auth t src => Sys2Proof.Machine.execAuth t src s
  | .heartbeat t src => Sys2Proof.Machine.execHeartbeat t src s
  | .quote t src => Sys2Proof.Machine.execQuote t src s
  | .sensorRead t src => Sys2Proof.Machine.execSensorRead t src s
  | .logRead t src => Sys2Proof.Machine.execLogRead t src s
  | .updateBegin t src => Sys2Proof.Machine.execUpdateBegin t src s
  | .updateData t src flashOk => Sys2Proof.Machine.execUpdateData t src flashOk s
  | .updateVerify t src what => Sys2Proof.Machine.execUpdateVerify t src what s
  | .updateCommit t src flashOk => Sys2Proof.Machine.execUpdateCommit t src flashOk s
  | .updateActivate t src => Sys2Proof.Machine.execUpdateActivate t src s
  | .updateAbort t src => Sys2Proof.Machine.execUpdateAbort t src s
  | .settingsRevert t src => Sys2Proof.Machine.execSettingsRevert t src s
  | .reset t src => Sys2Proof.Machine.execReset t src s
  | .sleepS3 t src => Sys2Proof.Machine.execSleepS3 t src s
  | .wake t src => Sys2Proof.Machine.execWake t src s
  | .provisionOwner t src => Sys2Proof.Machine.execProvisionOwner t src s
  | .sessionTimeout t => Sys2Proof.Machine.execSessionTimeout t s
  | .authLockoutEnd t => Sys2Proof.Machine.execAuthLockoutEnd t s
  | .gptpSyncMessage t offset vt => Sys2Proof.Machine.execGptpSyncMessage t offset vt s
  | .gptpSyncTimeout t => Sys2Proof.Machine.execGptpSyncTimeout t s
  | .hostSilent t => Sys2Proof.Machine.execHostSilent t s
  | .logbookFlush t => Sys2Proof.Machine.execLogbookFlush t s
  | .portTraining t port r => Sys2Proof.Machine.execPortTraining t port r s
  | .linkLaneFault t port lane => Sys2Proof.Machine.execLinkLaneFault t port lane s
  | .packetNak t port => Sys2Proof.Machine.execPacketNak t port s
  | .jobOpenWrite t j v => Sys2Proof.Machine.execJobOpenWrite t j v s
  | .jobCloseWrite t j v => Sys2Proof.Machine.execJobCloseWrite t j v s
  | .jobOpenTimeout t j => Sys2Proof.Machine.execJobOpenTimeout t j s
  | .jobOpen t port p tagOk members base pages => Sys2Proof.Machine.execJobOpen t port p tagOk members base pages s
  | .jobClose t port p tagOk => Sys2Proof.Machine.execJobClose t port p tagOk s
  | .readReq t port p tagOk => Sys2Proof.Machine.execReadReq t port p tagOk s
  | .readRsp t port p tagOk => Sys2Proof.Machine.execReadRsp t port p tagOk s
  | .writeReq t port p tagOk => Sys2Proof.Machine.execWriteReq t port p tagOk s
  | .writeAck t port p tagOk => Sys2Proof.Machine.execWriteAck t port p tagOk s
  | .moveData t port p tagOk => Sys2Proof.Machine.execMoveData t port p tagOk s
  | .moveCommit t port p tagOk => Sys2Proof.Machine.execMoveCommit t port p tagOk s
  | .moveDone t port p tagOk => Sys2Proof.Machine.execMoveDone t port p tagOk s
  | .redirect t port p tagOk => Sys2Proof.Machine.execRedirect t port p tagOk s
  | .redirectBackoff t rtag => Sys2Proof.Machine.execRedirectBackoff t rtag s
  | .portDown t port => Sys2Proof.Machine.execPortDown t port s
  | .peerLost t pos => Sys2Proof.Machine.execPeerLost t pos s
  | .faultReport t r => Sys2Proof.Machine.execFaultReport t r s
  | .faultConditionEnd t cls unit detail => Sys2Proof.Machine.execFaultConditionEnd t cls unit detail s
  | .fbAckSlot t v => Sys2Proof.Machine.execFbAckSlot t v s
  | .fbAckAll t v => Sys2Proof.Machine.execFbAckAll t v s
  | .rotatingTestComplete t verdict => Sys2Proof.Machine.execRotatingTestComplete t verdict s
  | .bondLaneFault t slice sub lane => Sys2Proof.Machine.execBondLaneFault t slice sub lane s
  | .groupGood t group found => Sys2Proof.Machine.execGroupGood t group found s
  | .mdrGraceExpiry t found => Sys2Proof.Machine.execMdrGraceExpiry t found s
  | .studyRestartComplete t => Sys2Proof.Machine.execStudyRestartComplete t s
  | .wakeInFall t => Sys2Proof.Machine.execWakeInFall t s

end Sys2Proof.Machine
end

