-- ==== Sys2Proof/Safety.lean ====
section
/-! DEFINITION. What claims are stated in: that the output pins follow what drives them, that a command leaves a state from
which the machine goes on, and what a settled machine has nothing left to do in. -/

namespace Sys2Proof.Machine

/-- FAULT_N, STOP_N and the attention outputs stand as the records, the companion die's supply, RESET_N and the attention
sources drive them (19_fusebox.md R596; 04_rings_and_doorbells.md R147 to R150). -/
def State.pinsFollow (s : State) : Bool :=
  s.pins.faultN == !s.faultLow && s.pins.stopN == !s.stopLow && s.pins.hostAttn == s.attnPins

/-- Memory and registers are in canonical form, keys strictly rising and no entry 0, so that equal contents are equal data. -/
def State.canonical (s : State) : Bool :=
  Mem.wf s.mem && (tsorted none s.regs && s.regs.all fun e => e.2 != 0)

/-- A channel of the Front Door takes every command: the aperture is open, the channel is neither in host away nor in
power-down, and its organisation fits its data rate (03_front_door.md R77, R100, R105). -/
def State.chanReady (s : State) (ch : Nat) : Bool :=
  s.regOpen && !(s.chan ch).deep && !(s.chan ch).away && !(s.chan ch).powerDown && !(s.chan ch).misfit

/-- The ring engine serves ring `n` next, whose accepted descriptor `d` is well formed, names an enabled completion ring with
room and has not waited too long for its fence (04_rings_and_doorbells.md R118, R136 to R139). -/
def State.serves (s : State) (n : Nat) (d : BitVec 512) : Bool :=
  s.nextRing == some n && (s.sqSt n).accepted == some d && !s.descBad d.toNat && !(s.sqSt n).fenceOut

/-- The message that `src` carries is handled as one of type `type`, a type that open messages have if `open_`: it reaches the
Study as `m`, in a session `k` or none, its session, tag and counter accepted, its header sound and its type accepted in the
mode, which leaves `c` (16_study.md R520 to R528). -/
def State.takesMsg (a : State) (src : MsgSrc) (type : Nat) (open_ : Bool) (m : Msg) (k : Option Session) (c : State) : Prop :=
  ∃ b bs, a.arrivedMsg src = (b, some bs) ∧ readMsg bs = m ∧ m.type = type ∧
    b.admitMsg m open_ (fromPort src) = (c, .accepted k) ∧ m.ok = true ∧ c.modeAccepts type = true

/-- The command answers a next state: what the command itself does leaves `u`, and the answer is `u` after what follows at
once from any change (`State.onward`: records clear, lists and requests go on) with its pins settled. -/
def Runs (i : Instr) (s u : State) : Prop := exec i s = .next u.onward.settle

end Sys2Proof.Machine
end

