-- ==== Sys2Proof/Certificates/Slice0/Obligations.lean ====
section
/-! DEFINITION. The statements for the provers: what each command of the SH16 does, by the numbered rules of spec/, and what
every step keeps. -/

open Sys2Proof Sys2Proof.Machine

/-! ### The queue and every command -/

/-- For every command and state, a step with the command at the front of the queue is the command's effect on the state
with the rest of the queue. -/
def Obligations.StepRunsFrontCommand : Prop :=
  ∀ (c : Instr) (rest : List Instr) (s : State),
    step { s with pending := c :: rest } = exec c { s with pending := rest }

/-- With an empty queue the block idles (the model's choice, assumption 5).

What follows at once from a change in a quiet machine, where no record may clear, nothing may start, no frame is being
written, no record waits for room, no list, scan share, batch, page request, tenant switch, sleep entry, lane replacement,
held request or closing job is under way: the rings' waits are judged again and idle time is counted; with no submission ring
ever enabled and idle time counted already, nothing follows. So there the state that a statement gives with `Runs` is, its
pins settled, the command's answer (the model's choice, assumption 5). -/
def Obligations.QuietMachineRests : Prop :=
  (∀ s : State, s.pending = [] → step s = .next s) ∧
  (∀ s : State, (∀ e ∈ s.fb.recs, e.2.acked = true → e.2.active = true) →
     (s.mayStart = false ∨ s.pwr.startAvs.isSome = true) → s.fb.stopWait = false → s.gal.ends = [] → s.rg.owed = [] →
     s.wk.works = [] → s.strm.shares = [] → s.wk.batches = [] → s.wk.places = [] → s.sec.tsr = none → s.pwr.entry = .none →
     s.fb.bondHold = [] →
     (s.fuses.links = true → s.pw.lateReqs = [] ∧ ∀ j < 16, (s.pwJob j).closing = false) →
     s.onward = s.errFlush.ringWaits.idleGo ∧
     (s.rg.sq = [] → s.onward = s.idleGo) ∧
     (s.rg.sq = [] → s.mainUp = true → s.working = false → s.pwr.idleSince.isSome = true → s.onward = s))

/-- A command whose operands its event can carry always answers a next state; one whose operands the event cannot carry
stops the model with its own fault (the model's choice, assumption 7), and no command is refused. -/
def Obligations.WellFormedCommandsRun : Prop :=
  ∀ (c : Instr) (s : State),
    (c.wellFormed = true → ∃ t, exec c s = .next t) ∧ (c.wellFormed = false → exec c s = .fault .illFormedCommand)

/-- Every step, of any command in any state, keeps the output pins FAULT_N, STOP_N and HOST_ATTN in accord with the records,
resets and attention sources that drive them. -/
def Obligations.StepKeepsPins : Prop :=
  ∀ s t : State, s.pinsFollow = true → step s = .next t → t.pinsFollow = true

/-! ### The tick (02_the_tick.md)

In every statement about a command, `a` is the state at the command's instant. -/

/-- TIMER_BOUNDARY: with source 0 a boundary occurs once PERIOD_US has passed since the previous boundary or the arming, and
at no earlier time (R41, R50); with another source, or while no boundary can occur, only time passes.

SUBSTITUTE_BOUNDARY: with sources 1 and 2, when no accepted edge has arrived by p × (1 + w) after the previous boundary
or the arming, a substitute boundary occurs (R44, R50); else only time passes.

VEHICLE_TIME_BOUNDARY: in holdover a boundary occurs every PERIOD_US (R55, R56); while a phase error is removed, after
the period changed by at most 1 % of PERIOD_US, the rest of the error staying (R55); without an error, within 2 µs of an
instant of R54, once in a period. -/
def Obligations.TickBoundariesOccur : Prop :=
  (∀ (t : Nat) (s : State), let a := s.at_ t
     let due := a.ticking = true ∧ a.reg Reg.tkCtrlSource = 0 ∧ a.tickBase + a.period ≤ a.now
     (due → Runs (.timerBoundary t) s a.boundary) ∧ (¬due → Runs (.timerBoundary t) s a)) ∧
  (∀ (t : Nat) (s : State), let a := s.at_ t
     let due := a.ticking = true ∧ (a.reg Reg.tkCtrlSource = 1 ∨ a.reg Reg.tkCtrlSource = 2) ∧ a.tickBase + a.periodHigh ≤ a.now
     (due → Runs (.substituteBoundary t) s (a.boundary true)) ∧ (¬due → Runs (.substituteBoundary t) s a)) ∧
  (∀ (t : Nat) (s : State), let a := s.at_ t
     let lim : Int := a.period / 100
     let step : Int := max (-lim) (min lim a.tick.vtError)
     a.ticking = true → a.reg Reg.tkCtrlSource = 3 →
     (a.tick.vtSync = false → a.tickBase + a.period ≤ a.now → Runs (.vehicleTimeBoundary t) s a.boundary) ∧
     (a.tick.vtSync = true → a.tick.vtError ≠ 0 → (a.tickBase : Int) + a.period + step ≤ a.now →
       Runs (.vehicleTimeBoundary t) s
         ({ a with tick := { a.tick with vtError := a.tick.vtError - step } }).boundary) ∧
     (a.tick.vtSync = true → a.tick.vtError = 0 → a.tick.lastBoundary + a.period / 2 ≤ a.now →
       (a.toInstant ((a.now : Int) + a.tick.vtBase)).natAbs ≤ 2000 →
       Runs (.vehicleTimeBoundary t) s a.boundary))

/-- TICK_SOURCE_EDGE: an edge of the selected source that comes at least p × (1 − w) after the previous boundary, or is the
first since the source was armed, becomes a boundary; an earlier one is ignored, marked in the tick record and noted (R43,
R50); an edge of another source, a short pulse, or an edge while no boundary can occur leaves only its time. -/
def Obligations.SourceEdgeWindow : Prop :=
  ∀ (t : Nat) (e : EdgeSrc) (s : State), let a := s.at_ t
    let mine := a.ticking = true ∧ a.edgeCounts e = true
    let inWindow := a.tick.armedAt.isSome = true ∨ a.tick.lastBoundary + a.periodLow ≤ a.now
    (mine → inWindow → Runs (.tickSourceEdge t e) s a.boundary) ∧
    (mine → ¬inWindow → Runs (.tickSourceEdge t e) s
      (({ a with tick := { a.tick with early := true } }).raise (mkReport fcTickSource 0))) ∧
    (¬mine → Runs (.tickSourceEdge t e) s a)

/-- What a boundary leaves: the tick that it ends has been recorded and counted (`State.endTick`); the tick number is one
more (R48); nothing of the old tick's marks is left; the GAP flag stands where the new tick is the first after S2 or S3
(R49); the new wing tables and performance levels that waited have been taken (R75); no rotating test runs (R606).

A boundary with sources 1 and 2 shows SOURCE_STATE 1, substituting, where it is a substitute and 0, locked, where an edge
made it (R44); every substitute raises a TICK_SOURCE note, and the first of a run at which the run is SUB_LIMIT long
or longer the one L2 fault of that run, none with SUB_LIMIT 0; a boundary that is no substitute ends the run (R45).

The tick record of the tick that ends holds, in the fields of R52, what the tick was: NUMBER, VT_STAMP, PERIOD_MEAS,
ENTRY, SOURCE_STATE, GAP, EARLY, OVERRUN, CARRIED, URG_LIMIT, BG_STARVED, zeros, TAG and BG_US; measured times that do not
fit stand at the field's end (the model's choice, assumption 23). -/
def Obligations.BoundaryStartsTick : Prop :=
  (∀ (s : State) (sub : Bool),
     let e := s.endTick
     let b := s.boundary sub
     b.tick.number = e.tick.number + 1 ∧ b.tick.lastBoundary = e.now ∧ b.tick.armedAt = none ∧ b.tick.bgStart = none ∧
     b.tick.early = false ∧ b.tick.overrun = 0 ∧ b.tick.expired = 0 ∧ b.tick.carried = 0 ∧ b.tick.urgLimit = false ∧
     b.tick.gap = e.tick.gapNext ∧ b.tick.gapNext = false ∧ b.tick.vtStamp = e.vtNow ∧
     b.tick.sourceState = e.sourceAfter sub ∧ b.wk.wingJobs = [] ∧ b.wk.perfJobs = [] ∧ b.fb.test = none) ∧
  (∀ s : State,
     let lim := s.reg Reg.tkCtrlSubLimit
     let first := s.tick.substFault = false ∧ lim ≠ 0 ∧ lim ≤ s.tick.substRun + 1
     (s.reg Reg.tkCtrlSource = 1 ∨ s.reg Reg.tkCtrlSource = 2 → ∀ sub, s.sourceAfter sub = b2n sub) ∧
     (s.countSubstitute true).fb.collector = s.fb.collector ++ [mkReport fcTickSource 0] ++
       (if first then [mkReport fcTickSource 1] else []) ∧
     (s.countSubstitute true).tick.substRun = s.tick.substRun + 1 ∧
     (s.countSubstitute true).tick.substFault = (s.tick.substFault || decide first) ∧
     s.countSubstitute false = { s with tick := { s.tick with substRun := 0, substFault := false } }) ∧
  (∀ s : State,
     let r := s.tickRecord
     let k := s.tick
     bitsAt r 0 64 = k.number.toNat ∧ bitsAt r 64 64 = k.vtStamp.toNat ∧
     bitsAt r 128 20 = min ((s.now - k.lastBoundary) / 1000) (2 ^ 20 - 1) ∧ bitsAt r 148 8 = s.reg Reg.tkStatusCursor ∧
     bitsAt r 156 2 = k.sourceState % 4 ∧ bitsAt r 158 1 = b2n k.gap ∧ bitsAt r 159 1 = b2n k.early ∧
     bitsAt r 160 4 = k.overrun.toNat ∧ bitsAt r 164 4 = k.carried.toNat ∧ bitsAt r 168 1 = b2n k.urgLimit ∧
     bitsAt r 169 1 = b2n s.bgZero ∧ bitsAt r 170 22 = 0 ∧
     bitsAt r 192 32 = (s.tickEntry.map fun e => bitsAt e 96 32).getD 0 ∧
     bitsAt r 224 32 = (k.bgStart.map fun b => min ((s.now - b) / 1000) (2 ^ 32 - 1)).getD 0)

/-- BUDGET_EXPIRY: BUDGET × 16 µs after the boundary the wing's policy applies, once in a tick (R68): without Tick work left,
only the expiry is marked; work left under the carry policy goes on, with a note; under drop and escalate
it ends as dropped, with a note or an L2 fault; work carried from an earlier tick ends as dropped after carry, this tick's
work as skipped, with an L2 fault (R70). Open Tick batches of the wing are released. -/
def Obligations.BudgetPolicies : Prop :=
  ∀ (t : Nat) (w : Fin 4) (s : State), let a := s.at_ t
    a.mainUp = true → a.budgetOf w ≠ 0 → a.tick.lastBoundary + 1000 * (16 * a.budgetOf w) ≤ a.now →
    a.tick.expired.getLsbD w = false →
    let l := a.dueOn w
    let old := l.filter fun (x : Work) => decide (x.target.toNat < a.tick.number.toNat)
    let new := l.filter fun (x : Work) => !decide (x.target.toNat < a.tick.number.toNat)
    let m := { a with tick := { a.tick with expired := a.tick.expired ||| 1#4 <<< w.val } }
    let o := ({ m with tick := { m.tick with overrun := m.tick.overrun ||| 1#4 <<< w.val } }).releaseWhere fun (b : Batch) =>
      b.cls == Cls.tick && b.wing == w.val
    (l = [] → Runs (.budgetExpiry t w) s m) ∧
    (l ≠ [] → old ≠ [] → Runs (.budgetExpiry t w) s
      (((o.endAll old stDroppedAfterCarry).endAll new stTickSkipped).raise (mkReport fcTickOverrun 1))) ∧
    (l ≠ [] → old = [] → a.policyOf w = 1 → Runs (.budgetExpiry t w) s
      (o.raise (mkReport fcTickOverrun 0))) ∧
    (l ≠ [] → old = [] → a.policyOf w = 2 → Runs (.budgetExpiry t w) s
      ((o.endAll l stOverrunDropped).raise (mkReport fcTickOverrun 1))) ∧
    (l ≠ [] → old = [] → a.policyOf w = 0 → Runs (.budgetExpiry t w) s
      ((o.endAll l stOverrunDropped).raise (mkReport fcTickOverrun 0)))

/-- URGENT_LIMIT_EXPIRY: Urgent work that still runs LIMIT_US after its admission is stopped with status URGENT_LIMIT, with a
note under URG_POLICY 0 and an L2 fault else; a LIMIT_US of 0 disables the limit (R71). That an admitted list which still
waits at its limit ends in the same way is the model's choice, assumption 26. -/
def Obligations.UrgentLimitStops : Prop :=
  ∀ (t : Nat) (s : State), let a := s.at_ t
    let lim := a.reg Reg.tkUrgLimitLimitUs
    let l := a.wk.works.filter fun (x : Work) =>
      x.cls == Cls.urgent && x.ending.isNone && decide (x.admTime + us lim ≤ a.now)
    let lvl : Fin 4 := if a.reg Reg.tkUrgLimitUrgPolicy = 0 then 0 else 1
    (lim = 0 → Runs (.urgentLimitExpiry t) s a) ∧
    (lim ≠ 0 → Runs (.urgentLimitExpiry t) s (a.each l fun s x =>
      let s := s.mapWork x.id fun w => w.end_ stUrgentLimit
      ({ s with tick := { s.tick with urgLimit := true } }).raise (mkReport fcUrgentLimit lvl)))

/-- BACKGROUND_PHASE_START: once every list of Tick work due in this tick has ended, the background phase begins; bond lanes that wait are replaced and a rotating test may begin with it (R63, R75); before that only time passes.

SYNC_REPORTED and SYNC_LOST: vehicle time is known from the report on, and with source 3 the error of the next boundary
is what is to be removed, SOURCE_STATE showing locked; once synchronisation is lost SOURCE_STATE shows holdover and one
TICK_SOURCE note is raised (R55, R56). -/
def Obligations.BackgroundAndVehicleTime : Prop :=
  (∀ (t : Nat) (s : State), let a := s.at_ t
     a.computeUp = true → a.tick.bgStart = none →
     let done := ∀ x ∈ a.wk.works, a.due x = true → x.ending.isSome = true
     (done → Runs (.backgroundPhaseStart t) s
       ({ a with tick := { a.tick with bgStart := some a.now } }).replaceLanes.testBegin) ∧
     (¬done → Runs (.backgroundPhaseStart t) s a)) ∧
  (∀ (t : Nat) (vt : BitVec 64) (s : State), let a := s.at_ t
     let base : Int := (vt.toNat : Int) - a.now
     let known := { a with tick := { a.tick with vtSync := true, vtBase := base } }
     let lost := { a with tick := { a.tick with vtSync := false, vtError := 0 } }
     let on3 := a.reg Reg.tkCtrlSource = 3 ∧ a.flag Reg.tkCtrlEnable = true
     (¬on3 → Runs (.syncReported t vt) s known) ∧
     (on3 → Runs (.syncReported t vt) s
       { known with tick := { known.tick with
           vtError := a.toInstant ((a.tickBase : Int) + a.period + base), sourceState := 0 } }) ∧
     (a.tick.vtSync = true → ¬on3 → Runs (.syncLost t) s lost) ∧
     (a.tick.vtSync = true → on3 → a.mainUp = true → Runs (.syncLost t) s
         (({ lost with tick := { lost.tick with sourceState := 2 } }).raise (mkReport fcTickSource 0))))

/-- TK_NUMBER_LO_READ: while the aperture is open, a read returns tick number bits [31:0] and latches bits [63:32] into
TK_NUMBER_HI (R73); while it is closed nothing is read.

TICK_CTRL_WRITE: with the set-up lock clear a write stores every field of TK_CTRL; clearing ENABLE stops the tick at once,
SOURCE_STATE showing stopped; setting ENABLE, or a change of SOURCE, GAL_STREAM or PIN_EDGE while it is set, arms the source
at that moment; any other write leaves the tick as it is (R50).

Arming a source starts its first period at that moment: SOURCE_STATE shows locked for source 0 and, with vehicle time
known, for source 3, which else shows holdover and raises one note (R50, R56). -/
def Obligations.TickRegisters : Prop :=
  (∀ (t : Nat) (s : State), let a := s.at_ t
     (a.regOpen = true → Runs (.tkNumberLoRead t) s
       { a.setReg Reg.tkNumberHiNumberHi (a.tick.number.toNat / 2 ^ 32) with
           readData := BitVec.ofNat 32 a.tick.number.toNat }) ∧
     (a.regOpen = false → Runs (.tkNumberLoRead t) s a)) ∧
  (∀ (t : Nat) (v : Word) (s : State), let a := s.at_ t
     a.regOpen = true → a.flag Reg.rstLockLocked = false →
     let old := (a.word 0x7000).toNat
     let w := a.setWord 0x7000 (BitVec.ofNat 32 (writtenWord 0x7000 old v.toNat))
     (bitAt v.toNat 0 = false → Runs (.tickCtrlWrite t v) s
       { w with tick := { w.tick with armedAt := none, sourceState := 3 } }) ∧
     (bitAt v.toNat 0 = true → (bitAt old 0 = false ∨ bitsAt v.toNat 1 8 ≠ bitsAt old 1 8) →
       Runs (.tickCtrlWrite t v) s w.arm) ∧
     (bitAt v.toNat 0 = true → bitAt old 0 = true → bitsAt v.toNat 1 8 = bitsAt old 1 8 → Runs (.tickCtrlWrite t v) s w)) ∧
  (∀ s : State,
     s.arm.tick.armedAt = some s.now ∧
     (s.reg Reg.tkCtrlSource = 0 → s.arm.tick.sourceState = 0 ∧ s.arm.fb = s.fb) ∧
     (s.reg Reg.tkCtrlSource = 3 → s.tick.vtSync = true → s.arm.tick.sourceState = 0 ∧ s.arm.fb = s.fb) ∧
     (s.reg Reg.tkCtrlSource = 3 → s.tick.vtSync = false →
       s.arm.tick.sourceState = 2 ∧ s.arm.fb.collector = s.fb.collector ++ [mkReport fcTickSource 0]))

/-! ### The Front Door (03_front_door.md) -/

/-- ACT of a row of a closed bank, with no minimum violated, opens it with its current contents, sector by sector the newest
pending write-back or the row's home, and no sector dirty (R81); aperture and doorbell rows have no contents of their own
(R93, R94). Uncorrectable units of the row are counted and reported (R299), the times of the minimums are noted, and the
channel shows that it has been initialised (the model's choice of when, assumption 27). -/
def Obligations.ActOpensRow : Prop :=
  ∀ (t : Nat) (ch : Fin 4) (bank : Fin 16) (row : Fin 8192) (s : State), let a := s.at_ t
    let c := a.chan ch
    let special := isAperture ch bank row = true ∨ isDoorbell bank row = true
    let r := if special then a else a.rowReport ch bank row
    a.chanReady ch = true → c.tooSoon .act bank a.now = false → tfind c.open_ bank = none →
    (∀ x, tfind c.lastPre bank = some x → x ≤ a.now) →
    (∀ x, c.acts[0]? = some x → x + 5 ≤ a.now) → (∀ x, c.acts[3]? = some x → x + 20 ≤ a.now) →
    ∃ data : Mem,
      (¬special → ∀ sec < 64, mread data (32 * sec) 32 = a.sectorNow ch bank row sec) ∧ r.chan ch = c ∧
      Runs (.act t ch bank row) s
        (((r.setChan ch { c with
            open_ := tset c.open_ bank { row := row, data := data, dirty := 0 }, lastAct := tset c.lastAct bank a.now,
            acts := (a.now :: c.acts).take 4, lastWr := tdel c.lastWr bank }).setReg Reg.fdStatusInitDone
          (r.reg Reg.fdStatusInitDone ||| 1 <<< ch.val)).tookCommand ch .act bank)

/-- RD16 and RD32 return 32 or 64 bytes from the row buffer (R79, R82), zeros from a doorbell row (R94), and from an aperture
row the registers as they read at the command, whose reads then have their effects (R93). Nothing else changes. -/
def Obligations.ReadsReturnRow : Prop :=
  ∀ (t : Nat) (ch : Fin 4) (bank : Fin 16) (s : State) (b : RowBuf), let a := s.at_ t
    let c := a.chan ch
    a.chanReady ch = true → c.tooSoon .read bank a.now = false → tfind c.open_ bank = some b →
    a.early (tfind c.lastAct bank) 36 = false →
    let plain := isAperture ch bank b.row = false ∧ isDoorbell bank b.row = false
    let give := fun (s : State) (bs : List Byte) =>
      (s.setChan ch { s.chan ch with dq := bs }).tookCommand ch .read bank
    let regs := fun (at_ n : Nat) => (List.range (n / 4)).map fun i => bank.val * 0x80000 + b.row * 2048 + at_ + 4 * i
    let sample := fun (at_ n : Nat) =>
      give (a.each (regs at_ n) State.regLatch) ((regs at_ n).flatMap fun o => toBytes 4 (a.regValue o))
    (∀ col : Fin 64,
      (plain → Runs (.rd16 t ch bank col) s (give a (mread b.data (32 * col) 32))) ∧
      (isDoorbell bank b.row = true → b.dirty = 0 → Runs (.rd16 t ch bank col) s (give a (List.replicate 32 0))) ∧
      (isAperture ch bank b.row = true → b.dirty = 0 → Runs (.rd16 t ch bank col) s (sample (32 * col) 32))) ∧
    (∀ col : Fin 32,
      (plain → Runs (.rd32 t ch bank col) s (give a (mread b.data (64 * col) 64))) ∧
      (isDoorbell bank b.row = true → b.dirty = 0 → Runs (.rd32 t ch bank col) s (give a (List.replicate 64 0))) ∧
      (isAperture ch bank b.row = true → b.dirty = 0 → Runs (.rd32 t ch bank col) s (sample (64 * col) 64)))

/-- WR16, WR32 and MWR write 32 or 64 bytes into the row buffer, masked bytes staying, and set the dirty bit of every sector
they touch (R79, R82). With link ECC enabled a burst whose code reports an uncorrectable error changes no sector, and is
counted and noted (R113); a corrected one is counted; without it nothing is reported (R96). -/
def Obligations.WritesLayRow : Prop :=
  ∀ (t : Nat) (ch : Fin 4) (bank : Fin 16) (s : State) (b : RowBuf), let a := s.at_ t
    let c := a.chan ch
    a.chanReady ch = true → c.tooSoon .write bank a.now = false → c.tooSoon .masked bank a.now = false →
    tfind c.open_ bank = some b → a.early (tfind c.lastAct bank) 36 = false →
    isAperture ch bank b.row = false → isDoorbell bank b.row = false →
    let held := a.setChan ch { c with lastWr := tset c.lastWr bank a.now }
    let counted := fun (e : LinkEcc) => if e = .corrected then held.bump (Reg.fdLinkErrCorr.ix ch) else held
    let laid := fun (at_ : Nat) (burst : Burst) =>
      let d := (burstSectors at_ burst).foldl (fun d i => d ||| 1#64 <<< i) b.dirty
      ({ row := b.row, data := layBurst b.data at_ burst, dirty := d } : RowBuf)
    let lay := fun (s : State) (at_ : Nat) (burst : Burst) =>
      s.setChan ch { s.chan ch with open_ := tset (s.chan ch).open_ bank (laid at_ burst) }
    let lost := (held.bump (Reg.fdLinkErrUncorr.ix ch)).raise (mkReport fcFdLink 0 ch)
    ∀ r : LinkEcc, let e := if c.writeEcc = true then r else .ok
      (∀ (col : Fin 64) (d : BitVec 256), Runs (.wr16 t ch bank col d r) s
        ((if e = .uncorrectable then lost else lay (counted e) (32 * col) (wholeBurst 32 d.toNat)).tookCommand ch .write bank)) ∧
      (∀ (col : Fin 32) (d : BitVec 512), Runs (.wr32 t ch bank col d r) s
        ((if e = .uncorrectable then lost else lay (counted e) (64 * col) (wholeBurst 64 d.toNat)).tookCommand ch .write bank)) ∧
      (∀ (col : Fin 64) (d : BitVec 256) (m : BitVec 32), Runs (.mwr t ch bank col d m r) s
        ((if e = .uncorrectable then lost else lay (counted e) (32 * col) (maskedBurst 32 d.toNat m.toNat)).tookCommand ch
          .masked bank))

/-- A write burst to an aperture row reaches the registers in ascending order, a whole word each: a register of which only
some bytes are written keeps its value and raises FD_PARTIAL, one of which no byte is written nothing (R93), and where no
register lies nothing happens. A write burst
to a doorbell row passes its words to the ring logic (R94). -/
def Obligations.WritesReachRegisters : Prop :=
  ∀ (t : Nat) (ch : Fin 4) (bank : Fin 16) (col : Fin 64) (d : BitVec 256) (m : BitVec 32) (s : State) (b : RowBuf),
    let a := s.at_ t
    let c := a.chan ch
    a.chanReady ch = true → c.tooSoon .write bank a.now = false → c.tooSoon .masked bank a.now = false →
    tfind c.open_ bank = some b → a.early (tfind c.lastAct bank) 36 = false → b.dirty = 0 →
    let held := a.setChan ch { c with lastWr := tset c.lastWr bank a.now }
    let word := fun (i : Nat) => bitsAt d.toNat (32 * i) 32
    let mask := fun (i : Nat) => bitsAt m.toNat (4 * i) 4
    (isAperture ch bank b.row = true → Runs (.mwr t ch bank col d m .ok) s
      ((held.each (List.range 8) fun s i =>
        let at_ := bank.val * 0x80000 + b.row * 2048 + 32 * col + 4 * i
        if mask i = 0 then s.regWrite at_ (word i)
        else if mask i = 15 ∨ s.noReg at_ = true then s
        else s.raise (mkReport fcFdPartial 0)).tookCommand ch .masked bank)) ∧
    (isDoorbell bank b.row = true → Runs (.wr16 t ch bank col d .ok) s
      ((held.each (List.range 4) fun s i => s.doorbell ch (BitVec.ofNat 64 (bitsAt d.toNat (64 * i) 64))).tookCommand ch
        .write bank))

/-- PREPB closes a bank and frees its buffer at once; its dirty sectors, or the whole row while the row is scrub-pending,
join the channel's write-back queue, or the spill area when the queue holds 32 rows (R84, R85, R107); an aperture or
doorbell row closes without side effects (R93). PREAB does this for
every bank, in ascending order, a bank that is closed staying so.

WRITEBACK_START writes the head row of a channel's queue home, SPILL_MERGE the oldest row of the spill area whose slice
can take it (R84, R85): afterwards every dirty sector of the row's home holds the written bytes, but for an uncorrectable unit of which
only one sector is written (R301), and every other byte of memory is as it was; the row has left the queue, or the spill
area.

WRITEBACK_TIMEOUT: a row that has waited 2 µs for its window slice goes from the head of the queue to the spill area
(R85); before that only time passes. -/
def Obligations.RowsGoHome : Prop :=
  (∀ (t : Nat) (ch : Fin 4) (s : State), let a := s.at_ t
     a.chanReady ch = true → (∀ b ≤ 16, (a.chan ch).tooSoon .pre b a.now = false ∧ (a.chan ch).tooSoon .preAll b a.now = false) →
     let took := fun (bank : Fin 16) (s : State) => s.tookCommand ch .pre bank
     (∀ (bank : Fin 16) (b : RowBuf), let c := a.chan ch
       tfind c.open_ bank = some b → a.early (tfind c.lastAct bank) 42 = false → a.early (tfind c.lastWr bank) 40 = false →
       isAperture ch bank b.row = false → isDoorbell bank b.row = false →
       let id := rowId ch bank b.row
       let dirty := if a.scrubPending id then BitVec.allOnes 64 else b.dirty
       let shut := (a.setChan ch { c with open_ := tdel c.open_ bank, lastPre := tset c.lastPre bank (a.now + 30) }).clearScrub id
       let wb : WriteBack :=
         { ch := ch, bank := bank, row := b.row, data := b.data, dirty := dirty, queuedAt := a.now, seq := a.fd.nextSeq }
       let next := { shut with fd := { shut.fd with nextSeq := a.fd.nextSeq + 1 } }
       (dirty = 0 → Runs (.prepb t ch bank) s (took bank shut)) ∧
       (dirty ≠ 0 → c.queue.length < 32 → Runs (.prepb t ch bank) s
         (took bank (next.setChan ch { next.chan ch with queue := c.queue ++ [wb] }))) ∧
       (dirty ≠ 0 → 32 ≤ c.queue.length → Runs (.prepb t ch bank) s
         (took bank { next with fd := { next.fd with spill := a.fd.spill ++ [wb] } }))) ∧
     (∀ (bank : Fin 16) (b : RowBuf), let c := a.chan ch
       tfind c.open_ bank = some b → a.early (tfind c.lastAct bank) 42 = false → a.early (tfind c.lastWr bank) 40 = false →
       (isAperture ch bank b.row = true ∨ isDoorbell bank b.row = true) → Runs (.prepb t ch bank) s
         (took bank (a.setChan ch { c with open_ := tdel c.open_ bank, lastPre := tset c.lastPre bank (a.now + 30) }))) ∧
     (∀ bank : Fin 16, tfind (a.chan ch).open_ bank = none → Runs (.prepb t ch bank) s
       (took bank (a.setChan ch { a.chan ch with lastPre := tset (a.chan ch).lastPre bank (a.now + 30) }))) ∧
     Runs (.preab t ch) s ((a.each (List.range 16) fun s b => s.precharge ch b 33 .fits).tookCommand ch .preAll 16)) ∧
  (∀ (t : Nat) (ch : Fin 4) (w : WriteBack) (s : State), let a := s.at_ t
     let home := a.rowKey w.ch w.bank w.row
     let stuck := fun (u : Nat) => a.badUnits.contains (home + 64 * u) = true ∧
       (w.dirty.getLsbD (2 * u) && w.dirty.getLsbD (2 * u + 1)) = false
     let landed := fun (m : Mem) => ∀ k, tget m k 0 =
       if home ≤ k ∧ k < home + 2048 ∧ w.dirty.getLsbD ((k - home) / 32) = true ∧ ¬stuck ((k - home) / 64) then
         tget w.data (k - home) 0
       else tget a.mem k 0
     a.mainUp = true →
     (∀ r, (a.chan ch).queue = w :: r → a.sliceOpen w.ch w.bank = true →
       ∃ u, Runs (.writebackStart t ch) s u ∧ landed u.mem ∧ (u.chan ch).queue.length = r.length) ∧
     (a.fd.spill.find? (fun x => a.sliceOpen x.ch x.bank) = some w →
       ∃ u, Runs (.spillMerge t) s u ∧ landed u.mem ∧ w ∉ u.fd.spill)) ∧
  (∀ (t : Nat) (ch : Fin 4) (w : WriteBack) (r : List WriteBack) (s : State), let a := s.at_ t
     a.mainUp = true → (a.chan ch).queue = w :: r →
     (w.queuedAt + 2000 ≤ a.now → Runs (.writebackTimeout t ch) s
       (let q := a.setChan ch { a.chan ch with queue := r }
        { q with fd := { q.fd with spill := a.fd.spill ++ [w] } })) ∧
     (a.now < w.queuedAt + 2000 → Runs (.writebackTimeout t ch) s a))

/-- REFPB and REFAB have no effect but their timing, RFM is ignored, NOP and DES have no effect: only time passes (R79).

SRE and deep-sleep entry set host away and stop the channel's clocks, SRX and deep-sleep exit clear it (R105); PDE and PDX
enter and leave power-down, open rows staying open (R79). Each changes the channel's own state and nothing else.

While the aperture is closed (the main die down or FD_READY low, R100, R104) no channel command does anything but
pass its time.

In self-refresh a channel counts a command that JESD209-5C does not allow there as a violation and ignores it (R105;
which commands those are is the model's choice, assumption 22). -/
def Obligations.ChannelCommands : Prop :=
  (∀ (t : Nat) (ch : Fin 4) (s : State), let a := s.at_ t
     (a.chanReady ch = true →
       (∀ bank : Fin 16, Runs (.refpb t ch bank) s (a.tookCommand ch .ref bank)) ∧
       Runs (.refab t ch) s (a.tookCommand ch .refAll 16) ∧ Runs (.rfm t ch) s (a.tookCommand ch .rfm 16)) ∧
     ((a.chan ch).misfit = false → Runs (.nop t ch) s a ∧ Runs (.des t ch) s a)) ∧
  (∀ (t : Nat) (ch : Fin 4) (s : State), let a := s.at_ t
     let c := a.chan ch
     (a.chanReady ch = true →
       Runs (.sre t ch) s ((a.setChan ch { c with away := true, wck := false }).tookCommand ch .sre 16) ∧
       Runs (.deepSleepEntry t ch) s ((a.setChan ch { c with deep := true, wck := false }).tookCommand ch .deepIn 16) ∧
       Runs (.pde t ch) s ((a.setChan ch { c with powerDown := true }).tookCommand ch .pde 16)) ∧
     (a.regOpen = true → c.deep = false → c.misfit = false →
       (c.powerDown = false → Runs (.srx t ch) s ((a.setChan ch { c with away := false }).tookCommand ch .srx 16)) ∧
       Runs (.pdx t ch) s ((a.setChan ch { c with powerDown := false }).tookCommand ch .pdx 16)) ∧
     (a.regOpen = true → c.deep = true → c.misfit = false →
       Runs (.deepSleepExit t ch) s ((a.setChan ch { c with deep := false, away := false }).tookCommand ch .deepOut 16))) ∧
  (∀ (t : Nat) (ch : Fin 4) (bank : Fin 16) (s : State), let a := s.at_ t
     a.regOpen = false →
     (∀ row, Runs (.act t ch bank row) s a) ∧ (∀ col, Runs (.rd16 t ch bank col) s a) ∧
     (∀ col, Runs (.rd32 t ch bank col) s a) ∧ (∀ col d e, Runs (.wr16 t ch bank col d e) s a) ∧
     (∀ col d e, Runs (.wr32 t ch bank col d e) s a) ∧ (∀ col d m e, Runs (.mwr t ch bank col d m e) s a) ∧
     Runs (.prepb t ch bank) s a ∧ Runs (.preab t ch) s a ∧ Runs (.refpb t ch bank) s a ∧ Runs (.refab t ch) s a ∧
     Runs (.rfm t ch) s a ∧ Runs (.sre t ch) s a ∧ Runs (.srx t ch) s a ∧ Runs (.pde t ch) s a ∧ Runs (.pdx t ch) s a ∧
     Runs (.deepSleepEntry t ch) s a ∧ Runs (.deepSleepExit t ch) s a ∧ (∀ mr v, Runs (.mrw t ch mr v) s a) ∧
     (∀ mr, Runs (.mrr t ch mr) s a) ∧ (∀ d, Runs (.wff t ch d) s a) ∧ Runs (.rff t ch) s a ∧ Runs (.rdc t ch) s a ∧
     (∀ op, Runs (.mpc t ch op) s a) ∧ Runs (.lpddrReset t ch) s a) ∧
  (∀ (t : Nat) (ch : Fin 4) (bank : Fin 16) (s : State), let a := s.at_ t
     a.regOpen = true → (a.chan ch).away = true → (a.chan ch).deep = false → (a.chan ch).misfit = false →
     let seen := (a.bump Reg.fdViolCount 1).setReg Reg.fdViolChMask
       (a.reg Reg.fdViolChMask ||| 1 <<< ch.val)
     (∀ row, Runs (.act t ch bank row) s seen) ∧ (∀ col, Runs (.rd16 t ch bank col) s seen) ∧
     (∀ col d e, Runs (.wr16 t ch bank col d e) s seen) ∧ Runs (.prepb t ch bank) s seen ∧ Runs (.preab t ch) s seen ∧
     Runs (.refab t ch) s seen ∧ Runs (.sre t ch) s seen)

/-- MRW stores a mode register that the table of R96 lists as stored, at the frequency set point that MR16 addresses where it
is held per set point; a field that would take an unsupported option keeps its value and an FD_UNSUPPORTED note is raised
(R78); a mode register that is read-only or not listed ignores the write.

MRR returns what R96 gives the register: MR4 its update flag clear, MR5 the FD_CTRL.MANUF_ID, MR6 and MR7 0xB1 and
0x00, MR8 x16 and 2 Gb, MR23 and MR24 0x00, MR27 that no refresh management is required, MR35 and MR36 the count of an
oscillator that is not running, a stored register its value, and 0x00 for a register that the table does not list (the places
and codes that R96 names without giving them are the model's choice, assumption 21). -/
def Obligations.ModeRegisters : Prop :=
  (∀ (t : Nat) (ch : Fin 4) (mr : Fin 64) (v : Byte) (s : State), let a := s.at_ t
     let c := a.chan ch
     let old := c.mrAt c.fspWrite mr
     let put := fun (x : Nat) => a.setChan ch { c with
       mr := tput (BitVec.ofNat 8 (mrDefault mr)) c.mr (mrKey c.fspWrite mr) (BitVec.ofNat 8 x) }
     a.chanReady ch = true →
     (mrWritable mr = false → Runs (.mrw t ch mr v) s (a.tookCommand ch .mrw 16)) ∧
     (mrWritable mr = true → mrMerge mr old v.toNat = v.toNat →
       Runs (.mrw t ch mr v) s ((put v.toNat).tookCommand ch .mrw 16)) ∧
     (mrWritable mr = true → mrMerge mr old v.toNat ≠ v.toNat →
       Runs (.mrw t ch mr v) s
         (((put (mrMerge mr old v.toNat)).raise (mkReport fcFdUnsupported 0 ch)).tookCommand ch .mrw 16))) ∧
  (∀ (t : Nat) (ch : Fin 4) (mr : Fin 64) (s : State), let a := s.at_ t
     let c := a.chan ch
     a.chanReady ch = true → c.tooSoon .mrr 16 a.now = false → c.oscStart = none → mr.val ≠ 0 →
     ∃ u, Runs (.mrr t ch mr) s u ∧ u.mem = a.mem ∧ u.regs = a.regs ∧
       (u.chan ch).mrData =
         (if mr.val = 4 then Config.mrConst 4 &&& 0x7F
          else if mr.val = 8 then Config.mrConst 8 &&& 0x03
          else if mr.val = 5 then BitVec.ofNat 8 (a.reg Reg.fdCtrlManufId)
          else if mr.val = 6 then 0xB1
          else if mr.val = 35 then c.oscCount.extractLsb' 0 8
          else if mr.val = 36 then c.oscCount.extractLsb' 8 8
          else if mr.val ∈ [1, 2, 3, 10, 11, 12, 13, 14, 15, 16, 17, 18, 19, 20, 21, 22, 25, 26, 28, 30, 31, 32, 33, 34, 37] then
            BitVec.ofNat 8 (c.mrAt c.fspWrite mr)
          else 0))

/-- CAS starts or stops WCK synchronisation, at the rate the host operates the channel at; MPC starts the oscillator, or stops
it with its count, other operations having no visible effect (R79, R96); WFF, RFF and RDC move training data: RFF returns the
entries of the write FIFO in the order they went in, RDC the calibration patterns (R99; the FIFO's depth and the lane order of
the patterns are the model's choice, assumption 21). -/
def Obligations.TrainingCommands : Prop :=
  ∀ (t : Nat) (ch : Fin 4) (s : State), let a := s.at_ t
    let c := a.chan ch
    let trained := fun (s : State) =>
      ({ s with free := s.free + 1 }).setChan ch { s.chan ch with trained := Config.freeWord s.free }
    let took := fun (k : FdKind) (s : State) => s.tookCommand ch k 16
    a.chanReady ch = true → (∀ k : FdKind, c.tooSoon k 16 a.now = false) →
    (∀ r, (Instr.cas t ch (.sync r)).wellFormed = true →
      Runs (.cas t ch (.sync r)) s (took .cas (a.setChan ch { c with wck := true, rate := r }))) ∧
    Runs (.cas t ch .fs) s (took .cas (a.setChan ch { c with wck := true })) ∧
    Runs (.cas t ch .off) s (took .cas (a.setChan ch { c with wck := false })) ∧
    Runs (.mpc t ch .zqStart) s (took .mpc a) ∧ Runs (.mpc t ch .zqLatch) s (took .mpc a) ∧
    Runs (.mpc t ch .other) s (took .mpc a) ∧
    Runs (.mpc t ch .oscStart) s (took .mpc (a.setChan ch { c with oscStart := some a.now })) ∧
    (∀ n, c.oscStart.isSome = true → c.oscRun = none →
      Runs (.mpc t ch (.oscStop n)) s (took .mpc (a.setChan ch { c with oscStart := none, oscCount := n }))) ∧
    (∀ x, c.fifo.length < fifoDepth →
      Runs (.wff t ch x) s (took .wff (trained (a.setChan ch { c with fifo := c.fifo ++ [x] })))) ∧
    (∀ x r, c.fifo = x :: r → Runs (.rff t ch) s
      (took .rff (trained (a.setChan ch { c with fifo := r ++ [x], dq := toBytes 32 x.toNat })))) ∧
    Runs (.rdc t ch) s (took .rdc (trained (a.setChan ch { c with dq := a.calibration ch })))

/-- LPDDR_RESET is an FDR of its channel (R102): the dirty sectors of every open buffer are queued for their homes, the
mode registers, training and every other state of the channel return to their defaults, the channel counts as not
initialised and the reset cause is recorded. -/
def Obligations.LpddrResetChannel : Prop :=
  ∀ (t : Nat) (ch : Fin 4) (s : State), let a := s.at_ t
    a.regOpen = true →
    let shut := a.each (List.range 16) fun s b => s.closeBank ch b
    let clear := shut.setChan ch { queue := (shut.chan ch).queue }
    Runs (.lpddrReset t ch) s
      ((clear.setReg Reg.fdStatusInitDone (clear.reg Reg.fdStatusInitDone &&& (15 - 1 <<< ch.val))).cause 6 14 ch)

/-! ### Rings and doorbells (04_rings_and_doorbells.md) -/

/-- A doorbell word of any KIND, in any of the doorbell commands, is ignored, counted in BAD_WORD and noted when its KIND is
reserved, its reserved bits are not zero, its NVALUE is not the inverse of its VALUE, it rings a ring that is not enabled or
while RG_CTRL.ENABLE is 0, it is a mark or mailbox word with a RING, or a mailbox word on a channel other than 0 (R127). A
word of KIND 0, and any word while the host cannot write the row, is ignored (R126).

MARK_DOORBELL: a good word written on channel c sets RG_MARKc to VALUE; mark value m has reached M when (m − M) mod 2^16
is less than 0x8000 (R130): that is what a descriptor with a fence waits for on every channel it names (R136).

MAILBOX_DOORBELL: a good word submits the request in the mailbox, read at that moment: its body, or nothing of it where
the header's SEQ is not VALUE, its length is beyond the area or its reserved bits are not zero; while a request is unanswered
the word is noted and changes nothing (R153). Uncorrectable units that the read meets are reported. -/
def Obligations.DoorbellWords : Prop :=
  (∀ (t : Nat) (ch : Fin 4) (w : BitVec 64) (s : State), let a := s.at_ t
     let f := bitsAt w.toNat
     let on := a.flag Reg.rgCtrlEnable
     let bad := 4 < f 0 4 ∨ f 10 6 ≠ 0 ∨ f 48 16 ≠ 0 ∨ f 32 16 ≠ 0xFFFF - f 16 16 ∨
       (f 0 4 = 1 ∧ (on = false ∨ a.flag (Reg.rgSqCfgEnable.ix (f 4 6)) = false)) ∨
       (f 0 4 = 2 ∧ (on = false ∨ a.flag (Reg.rgCqCfgEnable.ix (f 4 6)) = false)) ∨
       ((f 0 4 = 3 ∨ f 0 4 = 4) ∧ f 4 6 ≠ 0) ∨ (f 0 4 = 4 ∧ ch ≠ 0)
     let same := fun (u : State) => Runs (.sqTailDoorbell t ch w) s u ∧ Runs (.cqHeadDoorbell t ch w) s u ∧
       Runs (.markDoorbell t ch w) s u ∧ Runs (.mailboxDoorbell t ch w) s u
     (a.doorOpen ch = true → f 0 4 ≠ 0 → bad → same ((a.bump Reg.rgDbErrBadWord).raise (mkReport fcRgDoorbell 0 ch))) ∧
     (a.doorOpen ch = true → f 0 4 = 0 → same a) ∧
     (a.doorOpen ch = false → same a)) ∧
  ((∀ (t : Nat) (ch : Fin 4) (w : BitVec 64) (s : State), let a := s.at_ t
     a.doorOpen ch = true → bitsAt w.toNat 0 4 = 3 → a.badWord ch w.toNat = false →
     Runs (.markDoorbell t ch w) s (a.setReg (Reg.rgMarkMark.ix ch) (bitsAt w.toNat 16 16))) ∧
   ∀ (s : State) (d : Nat), s.marksReached d = true ↔
     ∀ c < 4, d.testBit (28 + c) = true → (s.reg (Reg.rgMarkMark.ix c) + 0x10000 - bitsAt d 32 16) % 0x10000 < 0x8000) ∧
  (∀ (t : Nat) (w : BitVec 64) (s : State), let a := s.at_ t
     let h := ofBytes (a.winRead 0x02000000 32)
     let len := bitsAt h 16 16
     let ok := bitsAt h 0 16 = bitsAt w.toNat 16 16 ∧ len ≤ 16352 ∧ h / 2 ^ 32 = 0
     let asked := fun (b : State) (body : List Byte) (bad : Bool) =>
       { b with rg := { b.rg with mail := some { seq := BitVec.ofNat 16 (bitsAt h 0 16), body := body, bad := bad } } }
     a.doorOpen 0 = true → bitsAt w.toNat 0 4 = 4 → a.badWord 0 w.toNat = false →
     (a.rg.mail = none → ok → Runs (.mailboxDoorbell t 0 w) s
       (asked (a.winReport 0x02000000 (32 + len)) (a.winRead 0x02000020 len) false)) ∧
     (a.rg.mail = none → ¬ok → Runs (.mailboxDoorbell t 0 w) s (asked (a.winReport 0x02000000 32) [] true)) ∧
     (a.rg.mail.isSome = true → Runs (.mailboxDoorbell t 0 w) s (a.raise (mkReport fcRgMailbox 0))))

/-- SQ_TAIL_DOORBELL: a good word sets the new tail if it lies from 1 to the ring's free slots beyond the current one, has no
effect if it equals the current tail, and is else ignored, counted in SQ_OVERFLOW and noted (R128). -/
def Obligations.TailDoorbell : Prop :=
  ∀ (t : Nat) (ch : Fin 4) (w : BitVec 64) (s : State), let a := s.at_ t
    let n := bitsAt w.toNat 4 6
    let value := w.extractLsb' 16 16
    let q := a.sqSt n
    let d := (value - q.tail).toNat
    let room := 2 ^ a.reg (Reg.rgSqCfgLog2Entries.ix n) - (q.tail - q.head).toNat
    a.doorOpen ch = true → bitsAt w.toNat 0 4 = 1 → a.badWord ch w.toNat = false →
    (d = 0 → Runs (.sqTailDoorbell t ch w) s a) ∧
    (1 ≤ d → d ≤ room → Runs (.sqTailDoorbell t ch w) s
      (a.setSq n { q with tail := value, bells := q.bells ++ [(value, a.now)] })) ∧
    (1 ≤ d → room < d → Runs (.sqTailDoorbell t ch w) s
      ((a.bump Reg.rgDbErrSqOverflow).raise (mkReport fcRgOverflow 0 n)))

/-- CQ_HEAD_DOORBELL: a good word moves the head, no further than the tail, which frees every slot before it and ends the
ring's notification once none is left; any other is ignored and noted (R129, R148). -/
def Obligations.HeadDoorbell : Prop :=
  ∀ (t : Nat) (ch : Fin 4) (w : BitVec 64) (s : State), let a := s.at_ t
    let n := bitsAt w.toNat 4 6
    let value := w.extractLsb' 16 16
    let c := a.cqSt n
    let left := (c.tail - value).toNat
    a.doorOpen ch = true → bitsAt w.toNat 0 4 = 2 → a.badWord ch w.toNat = false →
    ((value - c.head).toNat ≤ (c.tail - c.head).toNat → left = 0 → Runs (.cqHeadDoorbell t ch w) s
      (a.setCq n { c with head := value, notifying := false, coal := 0, coalFirst := none })) ∧
    ((value - c.head).toNat ≤ (c.tail - c.head).toNat → left ≠ 0 → Runs (.cqHeadDoorbell t ch w) s
      (a.setCq n { c with head := value, coal := min c.coal left })) ∧
    ((c.tail - c.head).toNat < (value - c.head).toNat → Runs (.cqHeadDoorbell t ch w) s
      (a.raise (mkReport fcRgOverflow 0 n)))

/-- DESCRIPTOR_READ: the slot at the next index is accepted only if both INDEX and INDEX_CHK equal the index; else the ring
waits with SQ_WAIT 1 and will re-read it (R132); uncorrectable units of the slot are reported. ARRIVE_TIMEOUT: a descriptor
that is still not there ARRIVE_US after its doorbell is consumed, its NOT_ARRIVED record waiting for the error CQ, and the
ring goes on with the next index (R133). -/
def Obligations.DescriptorArrival : Prop :=
  ∀ (t : Nat) (n : Fin 64) (s : State), let a := s.at_ t
    let q := a.sqSt n
    let d := a.slotOf n q.head
    let b := a.winReport (a.reg (Reg.rgSqBaseBase.ix n) * 2048 + q.head.toNat % 2 ^ a.reg (Reg.rgSqCfgLog2Entries.ix n) * 64) 64
    let there := bitsAt d 0 16 = q.head.toNat ∧ bitsAt d 496 16 = q.head.toNat
    let passed := { q with head := q.head + 1, bells := q.bells.filter fun b => b.1 != q.head + 1 }
    a.unread n = true →
    (there → Runs (.descriptorRead t n) s (b.setSq n { passed with accepted := some (BitVec.ofNat 512 d), wait := 0 })) ∧
    (¬there → Runs (.descriptorRead t n) s (b.setSq n { q with wait := 1 })) ∧
    (∀ v b r, q.bells = (v, b) :: r →
      (¬there → b + us (a.reg Reg.rgLimitsArriveUs) ≤ a.now → Runs (.arriveTimeout t n) s
        (a.setSq n { passed with errIndex := some q.head, wait := 0 })) ∧
      ((there ∨ a.now < b + us (a.reg Reg.rgLimitsArriveUs)) → Runs (.arriveTimeout t n) s a))

/-- FENCE_TIMEOUT: a wait for marks that lasts longer than FENCE_US marks the descriptor, which then completes with
FENCE_TIMEOUT (R136); a FENCE_US of 0 disables the limit. COAL_TIMEOUT: COAL_US after its first unfreed record an enabled
completion ring starts to notify (R147).

DESCRIPTOR_ADMISSION takes the descriptor that the engine serves next: one record is reserved and the ring is free for its
next descriptor (R137, R139); a malformed one completes with BAD_DESCRIPTOR, one whose fence waited too long with
FENCE_TIMEOUT, and does nothing else (R118, R136); any other does what its kind says. With none to serve, only time
passes. -/
def Obligations.RingAdmission : Prop :=
  (∀ (t : Nat) (n : Fin 64) (s : State), let a := s.at_ t
     let q := a.sqSt n
     let c := a.cqSt n
     (∀ d since, q.accepted = some d → q.fenceSince = some since → a.ringsRun = true → a.sqOn n = true →
       a.heldBy n d.toNat = 2 →
       (a.reg Reg.rgLimitsFenceUs ≠ 0 → since + us (a.reg Reg.rgLimitsFenceUs) < a.now →
         Runs (.fenceTimeout t n) s (a.setSq n { q with fenceOut := true })) ∧
       ((a.reg Reg.rgLimitsFenceUs = 0 ∨ a.now ≤ since + us (a.reg Reg.rgLimitsFenceUs)) →
         Runs (.fenceTimeout t n) s a)) ∧
     (∀ first, c.coalFirst = some first → a.cqOn n = true → c.coal ≠ 0 →
       (first + us (a.reg (Reg.rgCqCfgCoalUs.ix n)) ≤ a.now →
         Runs (.coalTimeout t n) s (a.setCq n { c with notifying := true })) ∧
       (a.now < first + us (a.reg (Reg.rgCqCfgCoalUs.ix n)) → Runs (.coalTimeout t n) s a))) ∧
  (∀ (t : Nat) (s : State), let a := s.at_ t
     (a.nextRing = none → Runs (.descriptorAdmission t) s a) ∧
     (∀ n d, a.nextRing = some n → (a.sqSt n).accepted = some d →
       let took := a.takeDesc n d.toNat
       let tk := a.ticketOf n d.toNat
       (a.descBad d.toNat = true → Runs (.descriptorAdmission t) s (took.complete tk stBadDescriptor)) ∧
       (a.descBad d.toNat = false → (a.sqSt n).fenceOut = true →
         Runs (.descriptorAdmission t) s (took.complete tk stFenceTimeout)) ∧
       (a.descBad d.toNat = false → (a.sqSt n).fenceOut = false →
         Runs (.descriptorAdmission t) s (took.perform tk d.toNat))))

/-- STEP_LIST: a Tick list whose target tick has begun completes with TICK_PASSED, one for the next or a later tick is
admitted for it; a Background list is admitted; an Urgent list is admitted on the tiles of its wing, or completes with
NO_SUCH_WING where the layout lacks it (R62, R63, R64, R67 of the tick; R120).

FENCE completes at once with OK (R121). ARM_URGENT is rejected while 16 armings are in force or its event is armed, and
else arms its list, keeping its reservation (R122, R123, R139). DISARM of an event that is not armed completes with
NOT_ARMED; it ends the arming, or waits for the record of a run in progress (R122, R125). -/
def Obligations.ListsFencesArmings : Prop :=
  (∀ (t : Nat) (n : Fin 64) (d : BitVec 512) (s : State), let a := s.at_ t
     let f := bitsAt d.toNat
     let took := a.takeDesc n d.toNat
     let tk := a.ticketOf n d.toNat
     let target := if f 128 64 = 2 ^ 64 - 1 then took.tick.number + 1 else BitVec.ofNat 64 (f 128 64)
     let w : Work := { id := 0, cls := .tick, wing := f 26 2, src := .ring tk, dva := BitVec.ofNat 48 (f 192 48),
                       count := f 256 16, target := target, admTime := a.now }
     let tiles := took.tickWing (f 26 2)
     a.serves n d = true → f 16 8 = 0x01 →
     (f 24 2 = 0 → target.toNat ≤ took.tick.number.toNat → Runs (.stepList t n) s (took.complete tk stTickPassed)) ∧
     (f 24 2 = 0 → took.tick.number.toNat < target.toNat → Runs (.stepList t n) s (took.addWork w)) ∧
     (f 24 2 = 1 → Runs (.stepList t n) s (took.addWork { w with cls := .background, target := 0 })) ∧
     (f 24 2 = 2 → tiles = [] → Runs (.stepList t n) s (took.complete tk stNoSuchWing)) ∧
     (f 24 2 = 2 → tiles ≠ [] → Runs (.stepList t n) s
       (took.addWork { w with cls := .urgent, target := 0, tiles := freshRuns tiles }))) ∧
  (∀ (t : Nat) (n : Fin 64) (d : BitVec 512) (s : State), let a := s.at_ t
     let f := bitsAt d.toNat
     let took := a.takeDesc n d.toNat
     let tk := a.ticketOf n d.toNat
     let ev := f 272 16
     let arm : Arming := { event := ev, wing := f 26 2, dva := BitVec.ofNat 48 (f 192 48), count := f 256 16,
                           rearm := d.getLsbD 288, ticket := tk, reserved := true, run := none, disarm := none }
     a.serves n d = true →
     (f 16 8 = 0x08 → Runs (.fence t n) s (took.complete tk stOk)) ∧
     (f 16 8 = 0x09 → (16 ≤ took.rg.armings.length ∨ (took.arming? ev).isSome = true) →
       Runs (.armUrgent t n) s (took.complete tk stArmRejected)) ∧
     (f 16 8 = 0x09 → took.rg.armings.length < 16 → took.arming? ev = none → Runs (.armUrgent t n) s
       { took with rg := { took.rg with armings := took.rg.armings ++ [arm] } }) ∧
     (f 16 8 = 0x0A → took.arming? ev = none → Runs (.disarm t n) s (took.complete tk stNotArmed)) ∧
     (f 16 8 = 0x0A → ∀ x, took.arming? ev = some x →
       (x.disarm.isSome = true → Runs (.disarm t n) s (took.complete tk stNotArmed)) ∧
       (x.disarm = none → x.run.isSome = true → Runs (.disarm t n) s
         (took.mapArming ev fun y => { y with disarm := some tk })) ∧
       (x.disarm = none → x.run = none → Runs (.disarm t n) s
         (((if x.reserved then took.release x.ticket.cq else took).dropArming ev).complete tk stOk))))

/-- TICK_CONTROL waits for the switch at its target tick, not before a full tick of reading (R58, R59 of the tick);
WING_TABLE is rejected when two of its wings share a tile, when it names no tile or a tile that is not present, and else
waits for the next boundary (R165); PERF_REQUEST with STATE 0 waits for the next boundary (R465).

INVALIDATE drops the entries that its range, or ALL, meets from every translation cache, and waits for the accesses in its
range that are under way (R291, R292). PLACE joins the migration engine's requests with its operands (R272, R273).
PERF_REQUEST for S2 or S3 begins the sleep entry: work is stopped with SLEEP_STOPPED and descriptors not yet admitted are
discarded (R471).

INVALIDATE_COMPLETE: the oldest INVALIDATE completes with OK once, in its range, no share that had an access under way at
its admission still has one, no read of a discarded share is outstanding, no write is held for a page and none is on its way
to another device; before that only time passes (R292; the accesses that count are the model's reading, assumption 24). -/
def Obligations.WaitingDescriptors : Prop :=
  (∀ (t : Nat) (n : Fin 64) (d : BitVec 512) (s : State), let a := s.at_ t
     let f := bitsAt d.toNat
     let took := a.takeDesc n d.toNat
     let tk := a.ticketOf n d.toNat
     let first := took.tick.number + 2
     let want := if f 128 64 = 2 ^ 64 - 1 then first else BitVec.ofNat 64 (f 128 64)
     let switch : SwitchJob := { ticket := tk, dva := BitVec.ofNat 48 (f 192 48), len := f 240 9,
                                 target := if want.toNat < first.toNat then first else want }
     let mask := fun w => f (208 + 16 * w) 16
     let all := mask 0 ||| mask 1 ||| mask 2 ||| mask 3
     let clash := ∃ i < 4, ∃ j < 4, i < j ∧ mask i &&& mask j ≠ 0
     let bad := clash ∨ all = 0 ∨ all &&& took.reg Reg.wgCurrentPresent ≠ all
     a.serves n d = true →
     (f 16 8 = 0x02 → Runs (.tickControl t n) s
       { took with tick := { took.tick with switches := took.tick.switches ++ [switch] } }) ∧
     (f 16 8 = 0x03 → bad → Runs (.wingTable t n) s (took.complete tk stWingRejected)) ∧
     (f 16 8 = 0x03 → ¬bad → Runs (.wingTable t n) s
       { took with wk := { took.wk with wingJobs := took.wk.wingJobs ++ [(tk, BitVec.ofNat 256 (f 192 256))] } }) ∧
     (f 16 8 = 0x0D → f 196 2 = 0 → Runs (.perfRequest t n) s
       { took with wk := { took.wk with perfJobs := took.wk.perfJobs ++ [(tk, BitVec.ofNat 256 (f 192 256))] } })) ∧
  (∀ (t : Nat) (n : Fin 64) (d : BitVec 512) (s : State), let a := s.at_ t
     let f := bitsAt d.toNat
     let took := a.takeDesc n d.toNat
     let tk := a.ticketOf n d.toNat
     let job : InvalJob := { ticket := tk, lo := f 192 48 / 65536, pages := f 240 32, all_ := d.getLsbD 272 }
     let left := took.xlat.caches.map fun e => (e.1, e.2.filter fun x => !x.hit job)
     let p : PlaceJob := { id := took.wk.nextId, ticket := some tk, work := none, step := 0,
                           base := BitVec.ofNat 48 (f 192 48), count := f 256 32, pos := 0, stride := 1, cls := f 288 3,
                           arg := f 296 5, mode := f 304 2, force := d.getLsbD 306 }
     let sleep := fun (to3 : Bool) => (({ took with pwr := { took.pwr with
       entry := .stopping to3, sleepTicket := some tk, sleepLevel := f 192 3 } }).stopAll stSleepStopped).discardSubmissions
     a.serves n d = true →
     (f 16 8 = 0x06 → Runs (.invalidate t n) s
       { took with xlat := { took.xlat with caches := left.filter fun e => !e.2.isEmpty }
                   wk := { took.wk with invals := took.wk.invals ++ [{ job with waits := took.accessing job }] } }) ∧
     (f 16 8 = 0x07 → Runs (.place t n) s
       { took with wk := { took.wk with places := took.wk.places ++ [p], nextId := took.wk.nextId + 1 } }) ∧
     (f 16 8 = 0x0D → f 196 2 = 2 → Runs (.perfRequestS2 t n) s (sleep false)) ∧
     (f 16 8 = 0x0D → f 196 2 = 3 → Runs (.perfRequestS3 t n) s (sleep true))) ∧
  (∀ (t : Nat) (j : InvalJob) (r : List InvalJob) (s : State), let a := s.at_ t
     let inRange := fun (dva : Nat) => j.all_ = true ∨ (j.lo ≤ dva / 65536 ∧ dva / 65536 < j.lo + j.pages)
     let accesses := fun (x : Nat × Nat) => ∃ w ∈ a.wk.works, ∃ u ∈ w.tiles, x = (u.tile, w.id) ∧
       (u.busy = true ∨ u.spilled = true) ∧ ((∃ h ∈ u.held, inRange h.1) ∨ (0 < u.reads ∧ ∃ p ∈ u.pages, inRange (p.1 * 65536)))
     let done := (∀ x ∈ j.waits, ¬accesses x) ∧
       (∀ tile < 16, ∀ o ∈ (a.tileSt tile).orphans, ∀ p ∈ o.pages, ¬inRange (p.1 * 65536)) ∧
       (∀ h ∈ a.deed.held, ¬inRange h.dva) ∧ ∀ q ∈ a.pw.reqs, q.write = true → ¬inRange q.dva
     a.wk.invals = j :: r →
     (done → Runs (.invalidateComplete t) s (({ a with wk := { a.wk with invals := r } }).complete j.ticket stOk)) ∧
     (¬done → Runs (.invalidateComplete t) s a))

/-- Descriptors that edit an entry of a table join the edits that wait, which are applied in admission order as far as
nothing runs on the entry (R312, R313, R351 to R353).

A descriptor that edits an entry of a table, on which nothing runs and no other edit waits, is applied at once: the entry
is read, and for SET and a HOME with an image the image; where the edit is allowed the entry is written and the record is OK,
else the record says SEQUENCE_REJECTED with the entry's number, or STREAM_REJECTED (R312, R313, R351 to R353).

SEQUENCE_EDIT_APPLY and STREAM_EDIT_APPLY: the oldest edit that waits on the entry is applied, its record written with the
edit's status, and the next one follows; an access that fails gives the record its status; while an ATTENTION step runs on the
entry, or a chunk of the stream runs, none is applied (R313, R353).

What an edit makes of a sequence-table entry: CLEAR sets VALID to 0, TRUNCATE sets LENGTH to VALUE, which may not exceed
it, on a valid entry that is no ring, REBASE sets POS_BASE to VALUE on a valid entry, SET replaces the entry; GEN grows by
one, wrapping, and no other bit changes (R309, R312).

What a stream edit makes of a stream-table entry: STREAM_AWAY sets AWAY and AWAY_TICK on a valid entry at home, and clears
VALID where it asks so; an entry away keeps all but GEN; STREAM_HOME clears AWAY and sets the state pointer where it names
one; GEN grows by one, wrapping (R351 to R353). -/
def Obligations.TableEdits : Prop :=
  (∀ (t : Nat) (n : Fin 64) (d : BitVec 512) (s : State), let a := s.at_ t
     let f := bitsAt d.toNat
     let took := a.takeDesc n d.toNat
     let ops := BitVec.ofNat 256 (f 192 256)
     let tk := a.ticketOf n d.toNat
     let seq := ({ took with wk := { took.wk with seqJobs := took.wk.seqJobs ++ [(tk, ops)] } }).seqGo (f 192 16)
     let strm := fun k =>
       ({ took with wk := { took.wk with strmJobs := took.wk.strmJobs ++ [(tk, k, ops)] } }).strmGo (f 192 14)
     a.serves n d = true →
     (f 16 8 = 0x0B → f 208 3 = 0 → Runs (.sequenceSet t n) s seq) ∧
     (f 16 8 = 0x0B → f 208 3 = 1 → Runs (.sequenceClear t n) s seq) ∧
     (f 16 8 = 0x0B → f 208 3 = 2 → Runs (.sequenceTruncate t n) s seq) ∧
     (f 16 8 = 0x0B → f 208 3 = 3 → Runs (.sequenceRebase t n) s seq) ∧
     (f 16 8 = 0x04 → Runs (.streamAway t n) s (strm 0)) ∧ (f 16 8 = 0x05 → Runs (.streamHome t n) s (strm 1))) ∧
  (∀ (t : Nat) (n : Fin 64) (d : BitVec 512) (s : State), let a := s.at_ t
     let f := bitsAt d.toNat
     let took := a.takeDesc n d.toNat
     let ops := BitVec.ofNat 256 (f 192 256)
     let tk := a.ticketOf n d.toNat
     let q := { took with wk := { took.wk with seqJobs := took.wk.seqJobs ++ [(tk, ops)] } }
     let qs := fun k => { took with wk := { took.wk with strmJobs := took.wk.strmJobs ++ [(tk, k, ops)] } }
     let dva := q.seqDva (f 192 16)
     let sdva := took.strmDva (f 192 14)
     let freeSeq := q.seqRuns (f 192 16) = false ∧ ∀ j ∈ took.wk.seqJobs, bitsAt j.2.toNat 0 16 ≠ f 192 16
     let freeStrm := took.chunkRuns (f 192 14) = false ∧ ∀ j ∈ took.wk.strmJobs, bitsAt j.2.2.toNat 0 14 ≠ f 192 14
     let ends := fun (b : State) st det =>
       ({ b with wk := { b.wk with seqJobs := b.wk.seqJobs.erase (tk, ops) } }).complete tk st det
     let sEnds := fun (k : Nat) (b : State) st det =>
       ({ b with wk := { b.wk with strmJobs := b.wk.strmJobs.erase (tk, k, ops) } }).complete tk st det
     let reads := fun (b : State) dva (c : State) x => runAcc b (rdNat whoBridge dva 32) = (c, .ok x)
     let writes := fun (b : State) dva x (c : State) => ∃ u, runAcc b (wr whoBridge dva (toBytes 32 x)) = (c, .ok u)
     let edit := fun (i : Instr) (b : State) (old image : Nat) =>
       (seqAction ops.toNat old image = none → Runs i s (ends b stSeqRejected (BitVec.ofNat 32 (f 192 16)))) ∧
       (∀ x c, seqAction ops.toNat old image = some x → writes b dva x c → Runs i s (ends c stOk 0))
     let home := fun (b : State) (old image : Nat) =>
       (homeAction ops.toNat old image = none → Runs (.streamHome t n) s (sEnds 1 b stStreamRejected 0)) ∧
       (∀ x c, homeAction ops.toNat old image = some x → writes b sdva x c →
         Runs (.streamHome t n) s ((sEnds 1 c stOk 0).streamChanged (f 192 14)))
     a.serves n d = true →
     (freeSeq → ∀ b old, reads q dva b old →
       (f 16 8 = 0x0B → f 208 3 = 0 → ∀ c image, reads b (f 256 48) c image → edit (.sequenceSet t n) c old image) ∧
       (f 16 8 = 0x0B → f 208 3 = 1 → edit (.sequenceClear t n) b old 0) ∧
       (f 16 8 = 0x0B → f 208 3 = 2 → edit (.sequenceTruncate t n) b old 0) ∧
       (f 16 8 = 0x0B → f 208 3 = 3 → edit (.sequenceRebase t n) b old 0)) ∧
     (freeStrm →
       (f 16 8 = 0x04 → ∀ b old, reads (qs 0) sdva b old →
         (awayAction ops.toNat old took.tick.number.toNat = none → Runs (.streamAway t n) s (sEnds 0 b stStreamRejected 0)) ∧
         (∀ x c, awayAction ops.toNat old took.tick.number.toNat = some x → writes b sdva x c → Runs (.streamAway t n) s
           ((sEnds 0 c stOk (BitVec.ofNat 32 (bitsAt x 128 32))).streamChanged (f 192 14)))) ∧
       (f 16 8 = 0x05 → ∀ b old, reads (qs 1) sdva b old →
         (d.getLsbD 208 = false → home b old 0) ∧
         (d.getLsbD 208 = true → ∀ c image, reads b (f 320 48) c image → home c old image)))) ∧
  (∀ (t : Nat) (s : State), let a := s.at_ t
     let ends := fun (r : Except AFail (Byte × BitVec 32)) st det => r = .ok (st, det) ∨ r = .error (.status st det)
     (∀ (e : Fin 65536) (tk : Ticket) (ops : BitVec 256),
       a.wk.seqJobs.find? (fun j => bitsAt j.2.toNat 0 16 == e.val) = some (tk, ops) →
       (a.seqRuns e = true → Runs (.sequenceEditApply t e) s a) ∧
       (a.seqRuns e = false → ∀ b r st det, runAcc a (seqEdit ops.toNat) = (b, r) → ends r st det →
         Runs (.sequenceEditApply t e) s
           ((({ b with wk := { b.wk with seqJobs := b.wk.seqJobs.erase (tk, ops) } }).complete tk st det).seqApply e
             (a.wk.seqJobs.length - 1)))) ∧
     (∀ (e : Fin 16384) (tk : Ticket) (k : Nat) (ops : BitVec 256),
       a.wk.strmJobs.find? (fun j => bitsAt j.2.2.toNat 0 14 == e.val) = some (tk, k, ops) →
       (a.chunkRuns e = true → Runs (.streamEditApply t e) s a) ∧
       (a.chunkRuns e = false → ∀ b r st det, runAcc a (streamEdit k ops.toNat) = (b, r) → ends r st det →
         let c := ({ b with wk := { b.wk with strmJobs := b.wk.strmJobs.erase (tk, k, ops) } }).complete tk st det
         Runs (.streamEditApply t e) s
           ((if st = stOk then c.streamChanged e else c).strmApply e (a.wk.strmJobs.length - 1))))) ∧
  (∀ (old image ops x : Nat), old < 2 ^ 256 → image < 2 ^ 256 → seqAction ops old image = some x →
     let gen := bitsAt x 224 16 = (bitsAt old 224 16 + 1) % 2 ^ 16
     let others := fun (y : Nat) (lo w : Nat) => ∀ i, ¬(lo ≤ i ∧ i < lo + w) → ¬(224 ≤ i ∧ i < 240) → x.testBit i = y.testBit i
     (bitsAt ops 16 3 = 0 → gen ∧ others image 0 0) ∧
     (bitsAt ops 16 3 = 1 → gen ∧ x.testBit 0 = false ∧ others old 0 1) ∧
     (bitsAt ops 16 3 = 2 → gen ∧ bitsAt x 128 32 = bitsAt ops 112 32 ∧ bitsAt ops 112 32 ≤ bitsAt old 128 32 ∧
       others old 128 32) ∧
     (bitsAt ops 16 3 = 3 → gen ∧ bitsAt x 192 32 = bitsAt ops 112 32 ∧ others old 192 32)) ∧
  (∀ (old ops tick x : Nat), old < 2 ^ 256 →
     let gen := bitsAt x 176 16 = (bitsAt old 176 16 + 1) % 2 ^ 16
     (awayAction ops old tick = some x → old.testBit 0 = true ∧ gen ∧
       (old.testBit 3 = false → x.testBit 3 = true ∧ bitsAt x 192 32 = tick % 2 ^ 32 ∧ x.testBit 0 = !ops.testBit 16) ∧
       (old.testBit 3 = true → ∀ i, ¬(176 ≤ i ∧ i < 192) → x.testBit i = old.testBit i)) ∧
     (ops.testBit 16 = false → homeAction ops old 0 = some x → old.testBit 0 = true ∧ gen ∧ x.testBit 3 = false ∧
       bitsAt x 32 48 = (if bitsAt ops 64 48 = 0 then bitsAt old 32 48 else bitsAt ops 64 48)))

/-- A completion record holds, in the fields of R142, the descriptor's INDEX and ring, PHASE, the status, DETAIL, the TAG, the
tick, the completed steps and the run time; PHASE is 1 on the first lap of the ring and alternates.

Completing a descriptor writes its record at the tail of its completion ring, as 32 bytes of the window, and turns its
reservation into it; with no free slot, or behind records that wait, it waits in order and is not dropped; a QUIET descriptor
that completes with OK only gives its reservation back (R139, R140, R142, R143). -/
def Obligations.CompletionRecords : Prop :=
  (∀ (sq index phase steps runUs : Nat) (status : Byte) (detail : BitVec 32) (tag tick : BitVec 64),
     let r := recordBits sq index phase status detail tag tick steps runUs
     bitsAt r 0 16 = index % 2 ^ 16 ∧ bitsAt r 16 6 = sq % 64 ∧ bitsAt r 22 1 = phase % 2 ∧ bitsAt r 23 1 = 0 ∧
     bitsAt r 24 8 = status.toNat ∧ bitsAt r 32 32 = detail.toNat ∧ bitsAt r 64 64 = tag.toNat ∧
     bitsAt r 128 64 = tick.toNat ∧ bitsAt r 192 32 = steps % 2 ^ 32 ∧ bitsAt r 224 32 = min runUs (2 ^ 32 - 1) ∧
     r < 2 ^ 256 ∧ ∀ i slots, 0 < slots → phaseOf i slots = 1 - (i / slots) % 2) ∧
  (∀ (s : State) (k : Ticket) (status : Byte) (detail : BitVec 32) (steps : Nat),
     let free := s.setCq k.cq { s.cqSt k.cq with reserved := (s.cqSt k.cq).reserved - 1 }
     let slots := 2 ^ s.reg (Reg.rgCqCfgLog2Entries.ix k.cq)
     let c := free.cqSt k.cq
     let i := c.tail.toNat
     let at_ := s.reg (Reg.rgCqBaseBase.ix k.cq) * 2048 + i % slots * 32
     let bits := fun phase => recordBits k.sq k.index.toNat phase status detail k.tag s.tick.number steps
       ((s.now - k.at_) / 1000)
     let room := (∀ o ∈ s.rg.owed, o.sq = none → o.cq ≠ k.cq) ∧ (c.tail - c.head).toNat < slots
     let w := free.winWrite at_ (toBytes 32 (bits (1 - i / slots % 2)))
     (k.quiet = true → status = stOk → s.complete k status detail steps = free) ∧
     (k.quiet = false ∨ status ≠ stOk → room → s.complete k status detail steps =
       (w.setCq k.cq { w.cqSt k.cq with tail := c.tail + 1 }).recordArrived k.cq k.urgent) ∧
     (k.quiet = false ∨ status ≠ stOk → ¬room → s.complete k status detail steps =
       { free with rg := { free.rg with owed := free.rg.owed ++
         [{ cq := k.cq, sq := none, bits := BitVec.ofNat 256 (bits 0), urgent := k.urgent }] } }))

/-- STATUS_ROW_UPDATE writes a ring's sector of the status row, while the row is valid: SQ head and tail, CQ tail and head,
SQ_WAIT and the tick number (R146). MAILBOX_REPLY writes the answer that waits, body before header, frees the mailbox and sets
MBOX_REPLY; during a restart of the Study the answer is RESULT 2, to a bad header RESULT 1 (R152 to R154). -/
def Obligations.StatusRowAndReply : Prop :=
  ∀ (t : Nat) (s : State), let a := s.at_ t
    let answer := fun (seq : BitVec 16) (result : Nat) (body : List Byte) =>
      let b := a.winWrite 0x02004020 body
      let w := b.winWrite 0x02004000 (toBytes 32 (seq.toNat + body.length <<< 16 + result <<< 32))
      ({ w with rg := { w.rg with mail := none }, sty := { w.sty with replyMail := none } }).setFlag
        Reg.rgAttnStatusMboxReply true
    (∀ n : Fin 64, a.mainUp = true → a.flag Reg.rgStatusRowValid = true → Runs (.statusRowUpdate t n) s
      (a.winWrite (a.reg Reg.rgStatusRowRowOff <<< 11 + 32 * n) (toBytes 32 (a.statusSector n)))) ∧
    (∀ n : Fin 64, (a.mainUp = false ∨ a.flag Reg.rgStatusRowValid = false) → Runs (.statusRowUpdate t n) s a) ∧
    (∀ r, a.mainUp = true → a.rg.mail = some r →
      (a.sty.up = false → Runs (.mailboxReply t) s (answer r.seq 2 [])) ∧
      (a.sty.up = true → r.bad = true → Runs (.mailboxReply t) s (answer r.seq 1 [])) ∧
      (∀ bs result, a.sty.up = true → r.bad = false → a.sty.replyMail = some (bs, result) →
        Runs (.mailboxReply t) s (answer r.seq result bs)))

/-! ### Steps and wings (05_steps_and_wings.md, 06_tile_arithmetic.md, 07_formats_and_scaling.md, 09 to 11) -/

/-- A step command on a tile. A tile that cannot start anything, or has no step next, starts nothing; a step of no kind is a
BAD_STEP with cause 1. A step of the command's kind that meets a BAD_STEP condition stops its list before it, with the
lowest-numbered cause in DETAIL (R161); else, once the conditions of R167 hold, its named token among them, a fenced tile's
share, and a share of the bays where all four are fenced, completes with UNIT_FAILED (R223, R611), a MATMUL may join a batch
(`Obligations.BatchesJoin`, R188), and any other share begins; until they hold only time passes. -/
def Obligations.StepSharesStart : Prop :=
  ∀ (t : Nat) (tile : Fin 16) (s : State), let a := s.at_ t
    let each := fun (p : Instr → Nat → Kind → Prop) =>
      p (.matmul t tile none) 0x01 matmulKind ∧ p (.conv t tile none) 0x02 convKind ∧ p (.dwconv t tile) 0x03 dwconvKind ∧
      p (.vector t tile) 0x04 vectorKind ∧ p (.attention t tile) 0x05 attKind ∧ p (.scan t tile) 0x06 scanKind ∧
      p (.pool t tile) 0x07 poolKind ∧ p (.cropResize t tile) 0x08 cropKind ∧ p (.resample t tile) 0x09 resampleKind ∧
      p (.gather t tile) 0x0A gatherKind ∧ p (.copy t tile) 0x0B copyKind ∧ p (.migrate t tile) 0x0C migrateKind ∧
      p (.sync t tile) 0x0D syncKind
    each (fun i _ _ => a.tileFree tile = false ∨ a.current tile = none → Runs i s a) ∧
    ∀ (b : State) (w : Work) (r : TileRun) (d : Nat) (nx : Option Nat),
      let c := b.mkCtx w tile r.next d
      let ready := w.ready r.next d = true ∧ b.lengthWaits w.id r.next = false ∧
        (hWaitEn d = true → w.batch.isSome = true ∨ hWaitToken d ∈ (b.tileSt tile).tokens)
      let refused := b.each (b.parties w) fun s v =>
        s.shareRefused v.id tile (((v.run? tile).map fun r => r.next).getD r.next) stUnitFailed 0
      let begins := fun (i : Instr) (n : Nat) (k : Kind) =>
        (kindOf (hKind d) = none → Runs i s (b.stopBefore a w r.next stBadStep (badDetail r.next 1))) ∧
        (hKind d = n → ∀ b' st det, runAcc b.freshItem (k.check c) = (b', .error (.status st det)) → ready →
          Runs i s (((b'.sharesOpen w tile d).bookItem w.id w.id tile).markShare w.id tile st det)) ∧
        (hKind d = n → ∀ b' causes, runAcc b.freshItem (k.check c) = (b', .ok causes) →
          let bad := lowest (headerCauses d nx ++ causes)
          let noBay := k.bays = true ∧ b.fencedBays tile = 15
          (∀ x, bad = some x → Runs i s (b'.stopBefore b w r.next stBadStep (badDetail r.next x))) ∧
          (bad = none → ¬ready → Runs i s b) ∧
          (bad = none → ready → b.fenced tile = true ∨ noBay → Runs i s refused) ∧
          (bad = none → ready → b.fenced tile = false → ¬noBay →
            (hKind d = 1 → ∀ u, b.joinBatch w c nx = some u → Runs i s u) ∧
            (hKind d ≠ 1 ∨ b.joinBatch w c nx = none → Runs i s (b.beginShare b' k w c nx))))
      a.tileFree tile = true → a.current tile = some (w, r) → runAcc a (readStep w tile r.next) = (b, .ok (d, nx)) →
      each begins

/-- What a share does as it begins and runs. It consumes its token on the tile and keeps EMIT_TOKEN until its end (R172,
R173); with the tokens of the slabs that it needs first (R169) its tile is busy, without them it has not begun; it fails where
what comes before its items fails. A work item's reads take the read credits that are free, and the others wait (R177); a
share that has failed or waits for credits takes no further item. An item that fails leaves its output unit as it was, and the
share fails; an item that is held has no effect yet (R160).

The checks of the header and of SYNC and COPY (R161 to R163): a KIND outside the table, a reserved ROUND or OUT_SLOTS, a
SLAB_LOG2 above 12 or a reserved bit is cause 1; PIPE on a kind that does not take it is cause 4; BATCH on a kind other than
MATMUL cause 5; a COPY whose length is 0, no multiple of 64, or whose ranges overlap, cause 2; and the lowest cause is
reported. -/
def Obligations.SharesRun : Prop :=
  (∀ (s : State) (id t d : Nat) (busy : Bool),
     let o := s.shareOpens id t d busy
     let b := s.bookItem id id t
     let n := s.wk.unitReads
     let free := s.creditsFree t ((s.work? id).any fun w => w.cls == .urgent)
     (∀ w r, s.work? id = some w → w.run? t = some r →
       (∃ v q, o.work? id = some v ∧ v.run? t = some q ∧ q.busy = busy ∧ q.status = stOk ∧ q.broken = false ∧
         q.next = r.next ∧ q.emit = if hEmitEn d = true then some (hEmitToken d) else none) ∧
       (∃ v q, b.work? id = some v ∧ v.run? t = some q ∧ q.reads = r.reads + min n free ∧
         q.unissued = r.unissued + (n - free) ∧ q.status = r.status ∧ q.next = r.next)) ∧
     (∀ k, k ∈ (o.tileSt t).tokens ↔
       k ∈ (s.tileSt t).tokens ∧ ¬(hWaitEn d = true ∧ hConsume d = true ∧ k = hWaitToken d)) ∧
     (∀ u, u ≠ t → o.tileSt u = s.tileSt u) ∧
     (∀ x ∈ [o, b], x.mem = s.mem ∧ x.regs = s.regs ∧ x.tick = s.tick ∧ x.fd = s.fd ∧ x.rg = s.rg ∧ x.fb = s.fb) ∧
     (∀ w r, r.busy = false ∨ r.status ≠ stOk ∨ r.broken = true ∨ r.unissued ≠ 0 → s.nextItem w r = none) ∧
     (∀ (s0 u : State) (k : Kind) (w : Work) (c : Ctx) (nx : Option Nat) (res : Except AFail Unit),
       ((s.sharesOpen w c.tile c.d).bookItem w.id w.id c.tile).computeItem w c.idx c.d
         (planStep k c nx >>= fun _ => k.begins c) = (u, res) →
       let booked := (u.noteTouch w.id c.idx c.d).bookItem w.id w.id c.tile
       (res = .ok () → u.fedFirst k c = true → s0.beginShare s k w c nx = booked) ∧
       (res = .ok () → u.fedFirst k c = false → s0.beginShare s k w c nx = s0) ∧
       (∀ st det, res = .error (.status st det) → s0.beginShare s k w c nx = booked.markShare w.id c.tile st det)) ∧
     (∀ (w : Work) (i : Nat) (x : PlanItem) (f : Acc Unit) (u : State) (res : Except AFail Unit),
       s.computeItem w i d f = (u, res) → let ran := s.runItem id t w i d x f
       (res = .ok () → ran.2 = true ∧ ran.1.mem = u.mem) ∧
       (∀ st det, res = .error (.status st det) → ran.2 = true ∧ ran.1.mem = (u.restore u.wk.undoCur).mem ∧
         ∀ v ∈ ran.1.wk.works, v.id = id → ∀ q ∈ v.tiles, q.tile = t → q.status ≠ stOk ∨ st = stOk) ∧
       (∀ dva wk, res = .error (.blocked dva wk) → ran.2 = false ∧ ran.1.mem = u.mem))) ∧
  ((∀ (d : Nat) (nx : Option Nat), let h := headerCauses d nx
     (1 ∈ h ↔ hKind d = 0 ∨ 13 < hKind d ∨ hRound d = 3 ∨ hOutSlots d = 1 ∨ 12 < hSlabLog2 d ∨ bitsAt d 28 4 ≠ 0 ∨
       bitsAt d 55 9 ≠ 0) ∧
     (hPipe d = true → hKind d ∉ [1, 2, 3, 4, 7, 9, 10, 11] → 4 ∈ h) ∧
     (hOutSlots d ≠ 0 → (∀ n, nx = some n → hOrder n = false ∨ hPipe n = false) → 4 ∈ h) ∧
     (5 ∈ h ↔ hBatch d ≠ 0 ∧ hKind d ≠ 1)) ∧
   (∀ (s : State) (c : Ctx) (l : List Nat), runAcc s (copyCheck c) = (s, .ok l) →
     (c.f 192 32 = 0 ∨ c.f 192 32 % 64 ≠ 0 → 2 ∈ l) ∧
     (c.handIn = none → c.handOut = none → c.f 64 48 < c.f 128 48 + c.f 192 32 → c.f 128 48 < c.f 64 48 + c.f 192 32 → 2 ∈ l)) ∧
   (∀ (l : List Nat) (x : Nat), lowest l = some x ↔ x ∈ l ∧ ∀ y ∈ l, x ≤ y))

/-- A MATMUL whose BATCH names a batch key, of a list of a class other than Urgent on a wing with batching enabled, that is
not in a batch: once every tile of the list has come to it and holds its token, it joins the open batch of its wing, class and
key if the rows come to at most 64; a batch that it would overfill is released first; else, with fewer than 16 batches open, a
new one is opened; the list parks, and the batch is released once its rows reach THRESHOLD (R187 to R189).

A residue check that fails in a MATMUL or CONV on integer operands (R221 to R225), after a number of work items that is
open: the share is to complete with UNIT_FAILED, the bay counts it, and a bay with a spare row left is fenced and shows
REPAIR_PENDING, its row, under the name of the row that a spare in use replaces, entered in the repair ledger and reported as
TILE_FAILED at L2; floating-point operands have no residue check, and a fenced bay counts nothing. -/
def Obligations.BatchesAndResidues : Prop :=
  (∀ (s : State) (w : Work) (c : Ctx) (nx : Option Nat) (key : List Nat) (rows : Nat),
     let batched := hBatch c.d ≠ 0 ∧ w.cls ≠ .urgent ∧ s.flag (Reg.spBatchEnable.ix w.wing) = true ∧ w.batch = none
     let here := ∀ r ∈ w.tiles, r.next = c.idx ∧ r.busy = false ∧
       (hWaitEn c.d = true → hWaitToken c.d ∈ (s.tileSt r.tile).tokens)
     let same := (s.openBatches w.wing).find? fun (b : Batch) => b.cls == w.cls && b.key == key
     let joined := fun (b : Batch) => s.wk.batches.map fun (x : Batch) =>
       if x.id = b.id then { x with rows := x.rows + rows, members := x.members ++ [w.id] } else x
     let opens := fun (u : State) =>
       let opened : Batch := { id := u.wk.nextId, wing := w.wing, cls := w.cls, key := key, rows := rows, since := u.now,
                               members := [w.id] }
       (({ u with wk := { u.wk with batches := u.wk.batches ++ [opened], nextId := u.wk.nextId + 1 } }).parkIn w.id
         opened.id).releaseFull w
     (¬batched → s.joinBatch w c nx = none) ∧ (batched → ¬here → s.joinBatch w c nx = some s) ∧
     (batched → here → ∀ u, runAcc s (planStep matmulKind c nx) = (u, .ok ()) →
       s.joinBatch w c nx = u.enterBatch w (batchKey c.d) (mmM c.d)) ∧
     (∀ b, same = some b → b.rows + rows ≤ 64 → s.enterBatch w key rows =
       some ((({ s with wk := { s.wk with batches := joined b } }).parkIn w.id b.id).releaseFull w)) ∧
     (∀ b, same = some b → 64 < b.rows + rows → ((s.releaseBatch b.id).openBatches w.wing).length < 16 →
       s.enterBatch w key rows = some (opens (s.releaseBatch b.id))) ∧
     (same = none → (s.openBatches w.wing).length < 16 → s.enterBatch w key rows = some (opens s)) ∧
     (same = none → 16 ≤ (s.openBatches w.wing).length → s.enterBatch w key rows = none)) ∧
  (∀ (t : Nat) (tile : Fin 16) (bay : Fin 4) (row : Fin 66) (s : State), let a := s.at_ t
     let fails := fun (i : Instr) (n : Nat) =>
       let u := a.startShare n tile
       (a.tileBusy tile = true ∨ u.runningOn tile = none → Runs i s u) ∧
       (a.tileBusy tile = false → ∀ w r p, u.runningOn tile = some (w, r) → w.plan? r.next = some p →
         let ints := (bayFields p.desc.toNat).af.isInt = true ∧ (bayFields p.desc.toNat).bf.isInt = true
         (¬ints → Runs i s u) ∧
         (ints → let v := { u with free := u.free + 1 }
           Runs i s ((v.shareGo w.id tile (Config.freeNat u.free % (v.workLeft + 1))).residueFail tile bay row w.id)))
     fails (.matmul t tile (some (bay, row))) 1 ∧ fails (.conv t tile (some (bay, row))) 2 ∧
     ∀ (u : State) (id p : Nat),
       let failed := (u.mapWork id fun w => w.mapTile tile fun r => { r with broken := true }).bump
         (Reg.bySpareResidueErr.ix tile |>.up (8 * bay))
       let fence := (failed.setReg (Reg.tlMapBayFenced.ix tile)
         (failed.reg (Reg.tlMapBayFenced.ix tile) ||| 1 <<< bay.val)).setFlag
           (Reg.bySpareRepairPending.ix tile |>.up (8 * bay)) true
       let named := failed.flash.rowOf p bay row
       ((u.reg (Reg.tlMapBayFenced.ix tile)).testBit bay = true → u.residueFail tile bay row id = u) ∧
       ((u.reg (Reg.tlMapBayFenced.ix tile)).testBit bay = false → u.ptile tile = p →
         failed.logicalOf p = some tile.val → failed.reg (Reg.bySpareSparesUsed.ix tile |>.up (8 * bay)) ≠ 2 →
         u.residueFail tile bay row id =
           ((fence.ledger { kind := 1, place := p, bay := bay, index := named, source := 3 } fun (x : FlashSt) =>
             { x with bayRows := x.bayRows ++ [(p, bay.val, named)] }).raise
               (mkReport fcTileFailed 1 (tileUnit p bay named) 0 true)).repairMdr (!failed.flag Reg.fbLedgerFull)))

/-- STEP_SHARE_COMPLETE, once no stream item of the share is under way: a share that has failed completes at once, its list
stopping at the step; one with status OK once its items have all run and no read, move or write of it is outstanding: the tile has then completed its step, emits its token, and a list whose every step is complete ends
with OK. In a
list that a step not after this one has stopped, a share that can run no further item is dropped, or completes if it is of the
very step. Else only time passes (R167, R172,
R176).

What a share's end leaves: with OK its tile is free, keeps no token and no output, and stands at the next step; with
another status its list halts before the step after it, or halts earlier already (R167, R176).

SLAB_CREDIT_RETURN: the oldest slab that the tile has finished with is freed: complete, arrived, and read by no work item
still to run there; with none only time passes (R170). READ_CREDIT_RETURN: a returned read of the page frees its credit, a
stopped share's before the running one's, and reads that wait are issued with it (R177, R181); a corrected error is counted,
and an uncorrectable one is counted and reported and makes the share that asked for it fail with UNCORRECTABLE and its page
(R142, R299). QUANTUM_END: without a stop request the step goes on; with one, a list that is to end discards its share, and
another keeps it in the tile's context of its class (R179, R180).

NAMED_TOKEN_ARRIVAL: the first emission of the token that every tile of the emitting wing has made and that has not reached
this tile reaches it, setting the token; on a tile that has the token set it has no effect, and raises one SP_TOKEN note for
the emission (R172). TOKEN_TIMEOUT: Background lists that have waited through TOKEN_TICKS boundaries on the tile are to end
with TOKEN_TIMEOUT; TOKEN_TICKS 0 sets no limit (R175, and the model's reading of 0, assumption 2). BATCH_DEADLINE: the
wing's batches that have been open for DEADLINE_US are released (R189). -/
def Obligations.SharesEnd : Prop :=
  (∀ (t : Nat) (tile : Fin 16) (s : State), let a := s.at_ t
     let i : Instr := .stepShareComplete t tile
     (a.runningOn tile = none → Runs i s a) ∧
     (∀ w r st det, a.runningOn tile = some (w, r) → a.shareEnd w r = (st, det) →
       let waits := a.migrating w.id tile = true ∨ r.reads + r.unissued ≠ 0
       let stuck := (∃ h, w.halt = some h ∧ h.1 ≤ r.next + 1) ∧ (a.nextItem w r).isNone = true
       (a.scanFinished w.id tile = false → Runs i s a) ∧
       (a.scanFinished w.id tile = true →
         (st ≠ stOk → ∀ u, a.shareOver w tile st det = some u → Runs i s u) ∧
         (st = stOk → stuck → w.bound ≤ r.next → Runs i s (a.discardShare w.id r).dropMigrates) ∧
         (st = stOk → ¬(stuck ∧ w.bound ≤ r.next) → waits ∨ (a.itemsDone w tile = false ∧ ¬stuck) → Runs i s a) ∧
         (st = stOk → ¬(stuck ∧ w.bound ≤ r.next) → ¬waits → a.itemsDone w tile = true ∨ stuck →
           (∀ u, a.shareOver w tile stOk 0 = some u → Runs i s u) ∧
           (a.shareOver w tile stOk 0 = none → Runs i s a)))) ∧
     (∀ (x u : State) (w : Work) (r : TileRun) (st : Byte) (det : BitVec 32), x.mates w = [] → w.run? tile = some r →
       ((if st = stOk then x.shareOk w r else x.shareBad w r st det).forgetRemote tile).advance w.id tile (w.count + 1)
         = some u →
       x.shareOver w tile st det = some (u.listDone w.id).unpark.dropMigrates)) ∧
  (∀ (s : State) (w : Work) (r : TileRun),
     (∀ x ∈ (s.shareOk w r).wk.works, x.id = w.id → ∀ y ∈ x.tiles, y.tile = r.tile →
       y.busy = false ∧ y.stop = false ∧ y.emit = none ∧ y.out = [] ∧ y.undo = [] ∧
       ∃ v ∈ s.wk.works, v.id = w.id ∧ ∃ z ∈ v.tiles, z.tile = r.tile ∧ y.next = z.next + 1) ∧
     (∀ st det, ∀ x ∈ (s.shareBad w r st det).wk.works, x.id = w.id → ∃ h, x.halt = some h ∧ h.1 ≤ r.next + 1)) ∧
  (∀ (t : Nat) (tile : Fin 16) (loc : MemLoc) (s : State), let a := s.at_ t
     let first := a.wk.works.findSome? fun w => w.hands.findSome? fun h =>
       match h.tile? tile with
       | some x => if w.slabUsed h x then some (w.id, h.step) else none
       | none => none
     (first = none → Runs (.slabCreditReturn t tile) s a) ∧
     (∀ id i, first = some (id, i) → Runs (.slabCreditReturn t tile) s (a.mapWork id fun w =>
       { w with hands := w.hands.map fun (h : HandOff) => if h.step = i then
           { h with tiles := h.tiles.map fun (x : HandTile) => if x.tile = tile then { x with freed := x.freed + 1 } else x }
         else h })) ∧
     (∀ (w : Work) (h : HandOff) (x : HandTile), w.slabUsed h x = true → ∃ k p, x.slabs[x.freed]? = some k ∧
       w.plan? h.step = some p ∧ p.complete (k, k) = true ∧ w.delivered h x.tile (k, k) = true) ∧
     (∀ ecc, pageOf loc = none → Runs (.readCreditReturn t tile loc ecc) s a) ∧
     (∀ page, pageOf loc = some page →
       (∀ w r dva, a.readerOf tile page = some (w, r, dva) →
         let back := a.mapWork w.id fun w => w.mapTile tile fun (r : TileRun) =>
           { r with reads := r.reads - 1, pages := if r.reads + r.unissued ≤ 1 then [] else r.pages }
         Runs (.readCreditReturn t tile loc .ok) s (back.issueReads tile) ∧
         Runs (.readCreditReturn t tile loc .corrected) s ((back.countCorr loc).issueReads tile) ∧
         Runs (.readCreditReturn t tile loc .uncorrectable) s (((back.hitUncorr loc).issueReads tile).markShare w.id r.tile
           stUncorrectable (pageDetail (dva * 65536)))) ∧
       (a.readerOf tile page = none → ∀ b, a.orphanReturns tile page = some b →
         Runs (.readCreditReturn t tile loc .ok) s (b.issueReads tile) ∧
         Runs (.readCreditReturn t tile loc .corrected) s ((b.countCorr loc).issueReads tile) ∧
         Runs (.readCreditReturn t tile loc .uncorrectable) s ((b.hitUncorr loc).issueReads tile)) ∧
       (a.readerOf tile page = none → a.orphanReturns tile page = none → ∀ ecc,
         Runs (.readCreditReturn t tile loc ecc) s a)) ∧
     (a.runningOn tile = none → Runs (.quantumEnd t tile) s a) ∧
     (∀ w r, a.runningOn tile = some (w, r) →
       let b := { a with free := a.free + 1 }
       let ts := b.tileSt tile
       let ctx : Spill := { work := w.id, key := a.free }
       let kept := b.setTileSt tile { ts with bgCtx := if w.cls = .background then some ctx else ts.bgCtx,
                                              tickCtx := if w.cls = .tick then some ctx else ts.tickCtx }
       (r.stop = false → Runs (.quantumEnd t tile) s a) ∧
       (r.stop = true → w.ending.isSome = true → Runs (.quantumEnd t tile) s (a.discardShare w.id r)) ∧
       (r.stop = true → w.ending = none → Runs (.quantumEnd t tile) s (kept.mapWork w.id fun w => w.mapTile tile fun r =>
         { r with busy := false, stop := false, spilled := true })))) ∧
  (∀ (t : Nat) (tile : Fin 16) (tok : Fin 1024) (wing : Fin 4) (s : State), let a := s.at_ t
     let comes := fun (e : Emission) => e.token == tok.val && e.to_.contains tile.val && e.need.all fun x => e.from_.contains x
     let ts := a.tileSt tile
     let lim := a.reg Reg.spLimitsTokenTicks
     let again := tok.val ∈ ts.tokens
     let reached := fun (b : Bool) (k : Nat) => { a with wk := { a.wk with emissions :=
       (a.wk.emissions.zipIdx.map fun (e, j) => if j = k then
         ({ e with to_ := e.to_.filter (· != tile.val), noted := e.noted || b } : Emission) else e).filter fun e => !e.to_.isEmpty } }
     (a.wk.emissions.findIdx? comes = none → Runs (.namedTokenArrival t tile tok) s a) ∧
     (∀ k e, a.wk.emissions.findIdx? comes = some k → a.wk.emissions[k]? = some e →
       (¬again → Runs (.namedTokenArrival t tile tok) s ((reached false k).setTileSt tile { ts with tokens := sins ts.tokens tok })) ∧
       (again → e.noted = false → Runs (.namedTokenArrival t tile tok) s ((reached true k).note fcSpToken)) ∧
       (again → e.noted = true → Runs (.namedTokenArrival t tile tok) s (reached true k))) ∧
     (lim = 0 → Runs (.tokenTimeout t tile) s a) ∧
     (lim ≠ 0 → Runs (.tokenTimeout t tile) s (a.mapWorks fun w =>
       if w.cls == .background && w.tiles.any fun r => r.tile == tile.val && lim ≤ r.waited then w.end_ stTokenTimeout else w)) ∧
     Runs (.batchDeadline t wing) s (a.releaseWhere fun b =>
       b.wing == wing.val && b.since + a.reg (Reg.spBatchDeadlineUs.ix wing) * 1000 ≤ a.now))

/-- SCAN_ITEM_COMPLETE: the chunk that runs on the tile, once no read of it is outstanding, writes its carried-out state and
NEXT_SEQ, and its stream's held items are to be checked again; a write that fails, or a read that has failed, ends the item
with its status (R348, R349). STREAM_HOLD_TIMEOUT: every item of the tile held through its stream's HOLD_TICKS boundaries ends
with STREAM_AWAY_TIMEOUT where the stream is away, else STREAM_SEQ_TIMEOUT, and is counted (R354). An item that comes to start
fails, is held, or starts by the rows of R347. -/
def Obligations.StreamItems : Prop :=
  ∀ (t : Nat) (tile : Fin 16) (s : State), let a := s.at_ t
    let i : Instr := .scanItemComplete t tile
    (a.runningOn tile = none → Runs i s a) ∧
    (∀ w r, a.runningOn tile = some (w, r) →
      (a.scanShare w.id tile = none → Runs i s a) ∧
      (∀ sh, a.scanShare w.id tile = some sh →
        (sh.running = none ∨ r.reads + r.unissued ≠ 0 → Runs i s a) ∧
        (∀ it, sh.running = some it → r.reads + r.unissued = 0 →
          (r.status ≠ stOk → Runs i s (((a.closeItem sh).scanFail sh it r.status).mapWork w.id fun w =>
            w.mapTile tile fun (r : TileRun) => { r with status := stOk, detail := 0 })) ∧
          (r.status = stOk →
            (∀ b, runAcc a (writeCarry sh it) = (b, .ok ()) → Runs i s ((b.closeItem sh).streamChanged it.stream)) ∧
            (∀ b st d, runAcc a (writeCarry sh it) = (b, .error (.status st d)) →
              Runs i s ((b.closeItem sh).scanFail sh it st)) ∧
            (∀ b d k, runAcc a (writeCarry sh it) = (b, .error (.blocked d k)) → Runs i s b))))) ∧
    Runs (.streamHoldTimeout t tile) s (a.each (a.strm.shares.filter fun x => x.tile == tile.val) fun s sh =>
      s.each sh.held fun s it => s.holdTimeout sh it) ∧
    (∀ (u b : State) (sh : ScanShare) (it : ScanItem) (e : StreamEntry),
      runAcc u (readStream sh.who it.stream) = (b, .ok e) →
      (it.heldAt.getD 0 < u.holdLimit e → u.holdTimeout sh it = u) ∧
      (u.holdLimit e ≤ it.heldAt.getD 0 → u.holdTimeout sh it = (((((b.bump Reg.strmStatusTimeoutCnt).mapScan sh.work
        sh.tile fun x => { x with held := x.held.filter fun (i : ScanItem) => i.idx != it.idx })).scanFail sh it
          (if e.away then stStreamAwayTimeout else stStreamSeqTimeout)).scanTook sh it))) ∧
    (∀ (u : State) (sh : ScanShare) (f : ScanFields) (it : ScanItem) (e : StreamEntry),
      let fits := e.valid = true ∧ e.mode = f.mode ∧ e.chunk = f.chunk ∧ e.heads = f.heads ∧ e.pc = f.pc ∧ e.nc = f.nc ∧
        e.bc = f.bc
      let alone := it.dup = false ∧ u.chunkElsewhere it.stream sh.work sh.step = false
      let ahead := (it.seq.toNat + 2 ^ 32 - e.next) % 2 ^ 32
      (¬fits → itemGate u sh f it e = .fails stStreamInvalid) ∧
      (fits → ¬alone → itemGate u sh f it e = .fails stStreamBusy) ∧
      (fits → alone → 2 ^ 31 ≤ ahead → itemGate u sh f it e = .fails stStreamSeqStale) ∧
      (fits → alone → ahead < 2 ^ 31 → e.away = true ∨ ahead ≠ 0 → itemGate u sh f it e = .held) ∧
      (fits → alone → ahead = 0 → e.away = false → itemGate u sh f it e = .starts e))

/-- Every code of every format but a NaN, and INT2's code 2, is what its value converts back to, in both rounding modes
(R229, R243, R248 to R250). -/
def Obligations.CodesConvertBack : Prop :=
  ∀ (f : Fmt) (away : Bool) (code : Nat), code < 2 ^ f.bits → f.decode code ≠ .nan → ¬(f = .int2 ∧ code = 2) →
    f.encode away (f.decode code) = code

/-- A NaN converts to the canonical NaN of its target, and to 0 in the integer formats, FP6 and FP4 (R249); an infinity stays
one where the target has infinities, and saturates in all others, integers to their lowest or highest value; a finite value
never becomes infinite (R248).

Both rounding modes round to the nearest value, a value halfway going to the even neighbour or to the larger (R243). -/
def Obligations.ConversionsRound : Prop :=
  (∀ (f : Fmt) (away : Bool),
     f.encode away .nan = (match f with
       | .fp32 => 0x7FC00000 | .fp24 => 0x7FC000 | .bf16 => 0x7FC0 | .fp16 => 0x7E00 | .e5m2 => 0x7E | .e4m3 => 0x7F
       | _ => 0) ∧
     (∀ n, f ∈ [Fmt.fp32, .fp24, .bf16, .fp16, .e5m2] → f.decode (f.encode away (.inf n)) = .inf n) ∧
     (∀ n m e, (f.decode (f.encode away (.fin n m e))).isFin = true) ∧
     (∀ n, f ∈ [Fmt.e4m3, .e3m2, .e2m3, .e2m1] → f.encode away (.inf n) = b2n n * 2 ^ (f.bits - 1) + f.spec.maxCode) ∧
     (f ∈ [Fmt.int32, .int16, .int8, .int4, .uint8, .uint4] →
       f.decode (f.encode away (.inf true)) = (if f = .uint8 ∨ f = .uint4 then .fin false 0 0 else Fp.ofInt f.intRange.1) ∧
       f.decode (f.encode away (.inf false)) = (if f = .uint8 ∨ f = .uint4 then .fin false f.intRange.2.toNat 0 else
         Fp.ofInt f.intRange.2))) ∧
  (∀ (away : Bool) (m k : Nat), let r := roundShift away m k
     2 * (2 ^ k * r) ≤ 2 * m + 2 ^ k ∧ 2 * m ≤ 2 * (2 ^ k * r) + 2 ^ k ∧
     (0 < k → 2 * (2 ^ k * r) = 2 * m + 2 ^ k → away = true ∨ r % 2 = 0) ∧
     (0 < k → 2 * m = 2 * (2 ^ k * r) + 2 ^ k → away = false ∧ r % 2 = 0))

/-! ### Memory tiers and tenants (08_memory_tiers.md, 17_security.md) -/

/-- What is written to a byte store is read back, every byte outside stays, and the store keeps its canonical form.

A page that has been zeroed reads as zeros in its whole frame, every other byte of memory stays, and its entry is RESIDENT
under the current epoch at the same home and frame (R283).

What an access to a page meets, by its Deed entry (R270, R271, R302): a FAILED page fails; an UNHOMED one has no home; a
page in MOVING or ZEROING holds the access; a page of this device is scrub-pending where its STATE says so or its EPOCH is not
the current one, and else resident at its HOME and FRAME. -/
def Obligations.MemoryReadsBack : Prop :=
  (∀ (m : Mem) (k : Nat) (bs : List Byte), let w := mwrite m k bs
     mread w k bs.length = bs ∧ (∀ p, (p < k ∨ k + bs.length ≤ p) → tget w p 0 = tget m p 0) ∧
     (Mem.wf m = true → Mem.wf w = true)) ∧
  (∀ (s : State) (page : Nat), let e := s.deedOf page
     let z := s.zeroPage page
     let key := spaceKey (dHome e) (dFrame e * 65536)
     mread z.mem key 65536 = List.replicate 65536 0 ∧
     (∀ k, (k < key ∨ key + 65536 ≤ k) → tget z.mem k 0 = tget s.mem k 0) ∧
     dHome (z.deedOf page) = dHome e ∧ dFrame (z.deedOf page) = dFrame e ∧ dState (z.deedOf page) = 1 ∧
     (∀ q, q ≠ page → z.deedOf q = s.deedOf q)) ∧
  (∀ (s : State) (page : Nat), let e := s.deedOf page
     (dState e = 5 → s.pageView page = .failed) ∧
     (dState e = 0 → s.deedCorrupt e = false → s.pageView page = .unhomed) ∧
     (dState e = 2 ∨ dState e = 4 → s.deedCorrupt e = false → s.pageView page = .held) ∧
     (dHome e < 18 → s.deedCorrupt e = false → dState e = 3 ∨ (dState e = 1 ∧ dEpoch e ≠ s.epoch) →
       s.pageView page = .scrub (dHome e) (dFrame e)) ∧
     (dHome e < 18 → s.deedCorrupt e = false → dState e = 1 → dEpoch e = s.epoch →
       s.pageView page = .resident (dHome e) (dFrame e)))

/-- LOFT_BAND_CHANGE: TEMP shows the hotter of the slice's sensors that are not faulty; the band rises to that of 85 or 105 °C
and falls only 3 °C below a threshold (R258, R304). CELLAR_MR4_POLL: a fitted channel's REFMULT takes the code read, a change
to above 4x raising CEL_HOT (R261, R263). CELLAR_TRAINING_COMPLETE: every fitted channel is trained, the start is over and the
accesses held for pages that are at home again go on (R484, R486).

PAGE_MOVE_COMPLETE of a move on this device: the page's bytes stand at the new home, its entry is RESIDENT there (or
SCRUB_PENDING still), held accesses go on and the request goes on, mode 3 zeroing the page first; a unit of the source that is
uncorrectable is reported, and the page stays where it was (R278, R281); an entry that has failed meanwhile stays
FAILED (R302).

ZEROING_COMPLETE: the page is zero and RESIDENT under the current epoch, then the writes that waited are applied and the
mode 3 requests that waited go on (R283). SCRUB_PAGE: the next SCRUB_PENDING page upward from the last one, and from page 0
round, enters ZEROING; with none left nothing is done (R284; the unit that the scrubber finds uncorrectable is reported,
R299). -/
def Obligations.PagesMove : Prop :=
  (∀ (t : Nat) (sl : Fin 18) (t0 t1 : BitVec 16) (ch code : Fin 4) (s : State), let a := s.at_ t
     let bad := fun (i : Nat) => i ∈ a.pwr.sensBad
     let up := fun (h : Int) => if 105 ≤ h then 2 else if 85 ≤ h then 1 else 0
     let down := fun (h : Int) => if 102 < h then 2 else if 82 < h then 1 else 0
     let band := fun (h : Int) =>
       let b := (a.tempByte h).2.setReg (Reg.loftSliceTemp.ix sl) (a.tempByte h).1
       b.setReg (Reg.loftSliceBand.ix sl) (max (up h) (min (down h) (b.reg (Reg.loftSliceBand.ix sl))))
     let rate := a.setReg Reg.celStatusRefmult (putBits (a.reg Reg.celStatusRefmult) (2 * ch) 2 code)
     let was := bitsAt (a.reg Reg.celStatusRefmult) (2 * ch) 2
     let up' := (a.setReg Reg.celStatusTrained (maskOf a.celChannels))
     let trained := { up' with rst := { up'.rst with cellarWait := false } }
     let over_ := trained.setReg Reg.rstBootPhase (if trained.safeFloor then 7 else 0)
     (a.mainUp = true →
       (¬bad (2 * sl) → ¬bad (2 * sl + 1) → Runs (.loftBandChange t sl t0 t1) s (band (max t0.toInt t1.toInt))) ∧
       (¬bad (2 * sl) → bad (2 * sl + 1) → Runs (.loftBandChange t sl t0 t1) s (band t0.toInt)) ∧
       (bad (2 * sl) → ¬bad (2 * sl + 1) → Runs (.loftBandChange t sl t0 t1) s (band t1.toInt)) ∧
       (a.sty.up = true → a.celFitted ch = true →
         (code.val = 3 → was ≠ 3 → Runs (.cellarMr4Poll t ch code) s (rate.note fcCelHot ch)) ∧
         (code.val ≠ 3 ∨ was = 3 → Runs (.cellarMr4Poll t ch code) s rate)) ∧
       (a.rst.cellarWait = true → Runs (.cellarTrainingComplete t) s
         (over_.each ((over_.deed.held.map fun h => h.page).foldl sins []) fun s page =>
           match s.pageView page with
           | .held => s
           | _ => s.applyHeld page))) ∧
     (a.mainUp = false → Runs (.loftBandChange t sl t0 t1) s a ∧ Runs (.cellarMr4Poll t ch code) s a ∧
       Runs (.cellarTrainingComplete t) s a)) ∧
  (∀ (t : Nat) (page : BitVec 22) (bad : Option (Fin 1024)) (s : State), let a := s.at_ t
     let p := page.toNat
     let mine := fun (m : Move) => m.page == p && !m.remote
     (a.deed.moves.find? mine = none → Runs (.pageMoveComplete t page bad) s a) ∧
     (∀ m, a.deed.moves.find? mine = some m →
       let e := m.entry.toNat
       let b := match bad with
         | some u => a.markBad (dHome e) (dFrame e * 65536 + 64 * u.val)
         | none => a
       let l := b.badIn (dHome e) (dFrame e * 65536) 65536
       let c := b.copyFrame (dHome e) (dFrame e) m.home m.frame
       let now := c.deedOf p
       let d := (c.setDeed p (mkDeed m.home (if dState e = 3 then 3 else 1) (dClass now) (dArg now) (dEpoch e) m.frame)).dropMove p
       let z := d.setDeed p (putBits (d.deedOf p) 5 3 4)
       (dState (a.deedOf p) ≠ 2 → Runs (.pageMoveComplete t page bad) s (a.moveBack m fun p => p.failAt m.idx)) ∧
       (dState (a.deedOf p) = 2 → l ≠ [] → Runs (.pageMoveComplete t page bad) s ((b.reportBad (dHome e) l).moveBack m fun p => p.failAt m.idx)) ∧
       (dState (a.deedOf p) = 2 → l = [] → m.zero = true → ∀ id, m.job = some id → Runs (.pageMoveComplete t page bad) s
         { z with deed := { z.deed with zeroJobs := z.deed.zeroJobs ++ [(p, id, m.idx)] } }) ∧
       (dState (a.deedOf p) = 2 → l = [] → m.zero = false ∨ m.job = none → Runs (.pageMoveComplete t page bad) s ((d.applyHeld p).placeStep m.job)))) ∧
  (∀ (t : Nat) (page : BitVec 22) (bad : Option (Fin 1024)) (s : State), let a := s.at_ t
     let p := page.toNat
     let jobs := a.deed.zeroJobs.filter fun z => z.1 == p
     let z := { a.zeroPage p with deed := { (a.zeroPage p).deed with zeroJobs := a.deed.zeroJobs.filter fun z => z.1 != p } }
     let next := (a.scrubPages.find? fun p => a.deed.scrubPos.all fun q => q < p).or a.scrubPages.head?
     (a.mainUp = true → dState (a.deedOf p) = 4 → Runs (.zeroingComplete t page) s
       ((z.applyHeld p).each jobs fun s z => s.placeStep (some z.2.1))) ∧
     (a.mainUp = false ∨ dState (a.deedOf p) ≠ 4 → Runs (.zeroingComplete t page) s a) ∧
     (a.mainUp = true → next = none → Runs (.scrubPage t bad) s a) ∧
     (a.mainUp = true → ∀ q, next = some q →
       let e := a.deedOf q
       let b := match bad with
         | some u => a.markBad (dHome e) (dFrame e * 65536 + 64 * u.val)
         | none => a
       let z := (b.reportBad (dHome e) (b.badIn (dHome e) (dFrame e * 65536) 65536)).setDeed q (putBits e 5 3 4)
       Runs (.scrubPage t bad) s { z with deed := { z.deed with scrubPos := some q } }))

/-- TENANT_SWITCH: refused for an EXPECT_EPOCH other than the current epoch, and at epoch 0xFFFF, changing nothing else; else
admission closes, the window's rows are marked and all work stops with TENANT_STOPPED (R550, R552). WINDOW_SCRUB: outside a
switch the marked rows become zero; in a switch, once the epoch has advanced, the memory keys are back as well; before that
nothing is scrubbed (R107, R551). TENANT_SWITCH_COMPLETE: once no row is marked, the record holds OK and the new epoch,
admission opens and SEC_STATUS shows no switch (R551).

The power removal of a switch empties every Pantry, the translation caches, the tokens, tiles' contexts and batches (R553,
R554); rows that the scrub clears read as zeros at their homes, and no mark is left (R107). -/
def Obligations.TenantSwitches : Prop :=
  (∀ (t : Nat) (n : Fin 64) (d : BitVec 512) (s : State), let a := s.at_ t
     let f := bitsAt d.toNat
     let took := a.takeDesc n d.toNat
     let tk := a.ticketOf n d.toNat
     let busy := (({ took with sec := { took.sec with tsr := some { ticket := tk, t0 := took.now, rows := took.marked } } }).setFlag
       Reg.secStatusTsrBusy true).setReg Reg.secStatusTsrPhase 1
     (a.serves n d = true → f 16 8 = 0x0C →
       (f 192 16 ≠ took.epoch → Runs (.tenantSwitch t n) s (took.complete tk stTsrRefused)) ∧
       (f 192 16 = took.epoch → took.epoch = 0xFFFF → Runs (.tenantSwitch t n) s (took.complete tk stEpochExhausted)) ∧
       (f 192 16 = took.epoch → took.epoch ≠ 0xFFFF → Runs (.tenantSwitch t n) s (busy.markWindow.stopAll stTenantStopped))) ∧
     (a.mainUp = true → a.sec.tsr = none → Runs (.windowScrub t) s a.scrubWindow) ∧
     (a.mainUp = true → ∀ j, a.sec.tsr = some j →
       (j.advanced = false → Runs (.windowScrub t) s a ∧ Runs (.tenantSwitchComplete t) s a) ∧
       (j.advanced = true → Runs (.windowScrub t) s
         ((a.scrubWindow.setFlag Reg.secStatusMemKeys true).setReg Reg.secStatusTsrPhase 6)) ∧
       (j.advanced = true → a.fd.scrub ≠ [] → Runs (.tenantSwitchComplete t) s a) ∧
       (j.advanced = true → a.fd.scrub = [] →
         let b := { a with sec := { a.sec with tsr := none }, rg := { a.rg with closed := false } }
         let c := (b.setFlag Reg.secStatusTsrBusy false).setReg Reg.secStatusTsrPhase 0
         let e := (c.setFlag Reg.secStatusTsrByReset false).setFlag Reg.secStatusMemKeys true
         Runs (.tenantSwitchComplete t) s ((e.cause 7 15).complete j.ticket stOk (BitVec.ofNat 32 e.epoch))))) ∧
  (∀ (s : State) (ch : Fin 4) (bank : Fin 16) (row : Fin 8192),
     let u := s.tsrPowerOff
     u.wk.tiles = [] ∧ u.wk.emissions = [] ∧ u.wk.batches = [] ∧ u.xlat.caches = [] ∧ u.pw.cache = [] ∧
     (∀ (tile : Fin 16) (k : Nat), keySpace k = pantrySpace tile → tget u.mem k 0 = 0) ∧
     s.scrubWindow.fd.scrub = [] ∧
     ((∃ i ∈ s.fd.scrub, i.1 ≤ rowId ch bank row ∧ rowId ch bank row < i.2) →
       mread s.scrubWindow.mem (s.rowKey ch bank row) 2048 = List.replicate 2048 0))

/-! ### The Gallery (12_gallery.md) -/

/-- FRAME_START of a CSI port that receives: its header passes or fails; one that passes starts a frame on every enabled
stream whose PORT and VC match (R383, R386). A header that fails, also by another lane order than
LANE_MAP's, is counted, the second in the same order raising the order fault (R382, R407). A frame start ends the frame in progress; FRAME advances
by one, the new frame begins with the tick and vehicle time of this moment and carries LATE where the late event came, every output stream of it takes its registers, and the event 0x1000 + i is raised
(R386, R389, R403, R404). On a parallel port the pins of each clock are sampled on the edge that PCLK_EDGE selects (R384).

CSI_LINE and EMBEDDED_DATA_PACKET on a port that receives: packets of a data type that is not supported are discarded and
counted; a line whose header failed is a missing line of the streams it matches by PORT, VC and DT; a line whose CRC fails, or
that overflows, is counted; and every matching stream with a frame in progress takes it. Embedded data is matched by PORT and
VC (R381, R383, R385, R387, R390, R399). On a port that is off they are lost.

How a line joins a frame that has fewer than EXP_H lines: cut to EXP_W pixels, flagged LONG_LINE where it had more,
SHORT_LINE where it had fewer, CRC where its check failed; one lost with its header or to an overflow is missing. With EXP_H lines there, a line only counts
as one more (R387, R388).

FRAME_END of a CSI port ends the frame in progress of the streams it matches; FRAME_TIMEOUT does so once 2 × PERIOD_US, or
1 s with PERIOD_US 0, has passed since its start (R388). FRAME_LATE: at the late bound of R389 the stream raises one GAL_LATE
note and its event 0x3000 + i; else it does not. At its end a frame is,
for each output stream that takes it, dropped where LINE_POLICY drops short frames or the device is STOPPED, else written and
delivered; a write that fails counts and leaves a DROPPED record with WRITE_ERR (R388, R400, R405). -/
def Obligations.FramesMeasured : Prop :=
  (∀ (t : Nat) (h : CsiHeader) (s : State), let a := s.at_ t
     let p := h.port.val
     let q := a.galPort p
     let hdrErr := a.bump (Reg.galPortStatusHdrErrCsi.ix p)
     let order := Reg.galPortLaneMapCsi.ix p
     (a.portOn p = false → Runs (.frameStart t (.csi h)) s a) ∧
     (a.portOn p = true → ∀ b, a.header h = (b, false) → Runs (.frameStart t (.csi h)) s b) ∧
     (a.portOn p = true → ∀ b, a.header h = (b, true) →
       let c := b.setGalPort p { b.galPort p with faulted := false }
       Runs (.frameStart t (.csi h)) s (c.each ((List.range 24).filter fun i => c.flag (Reg.galInCtrlEnable.ix i) &&
         c.reg (Reg.galInCtrlPort.ix i) == p && c.reg (Reg.galInCtrlVc.ix i) == h.vc.toNat) State.streamStarts)) ∧
     (h.bad = true → a.header h = ((a.setGalPort p { q with wrong := none }).bump (Reg.galPortStatusHdrErrCsi.ix p), false)) ∧
     (a.inOrder p h.wires = true ↔
       ∀ l < 2 ^ min 2 (a.reg (Reg.galPortLanesCsi.ix p)), bitsAt h.wires.toNat (2 * l) 2 = bitsAt (a.reg order) (2 * l) 2) ∧
     (h.bad = false → a.inOrder p h.wires = true → a.header h = (a.setGalPort p { q with wrong := none }, true)) ∧
     (h.bad = false → a.inOrder p h.wires = false →
       (q.wrong = some h.wires → a.header h = (hdrErr.orderFault p h.wires, false)) ∧
       (q.wrong ≠ some h.wires → a.header h = (hdrErr.setGalPort p { q with wrong := some h.wires }, false))) ∧
     (∀ (b : State) (i : Nat), let e := b.endFrame i
       let late := if ((e.galIn i).lastStart.map fun t0 => t0 + (e.galIn i).lateAfter) = some e.now then e else e.frameIsLate i
       let g := late.loadIn i (late.galIn i)
       let n := late.reg (Reg.galFrameFrame.ix i) + 1
       let f : GalFrame := { start := late.now, tick := late.tick.number, vt := late.vehicleTime, frame := BitVec.ofNat 32 n,
                             late := g.lateDone }
       let c := (late.setReg (Reg.galFrameFrame.ix i) n).setGalIn i
         { g with cur := some f, lastStart := some late.now, lateDone := false }
       b.streamStarts i = (c.each (List.range 48) fun s o => s.outStarts i o).galEvent (0x1000 + i)) ∧
     (∀ (q : Fin 2) clocks, Runs (.frameStart t (.pins q clocks)) s (a.pinsArrive (12 + q) .good clocks)) ∧
     (∀ (b : State) (q : Fin 2) (kind : LineKind) (c : PinEdge × PinEdge) (r : List (PinEdge × PinEdge)),
       b.pinsArrive (12 + q) kind (c :: r) = (b.pinsArrive (12 + q) kind [c]).pinsArrive (12 + q) kind r ∧
       (b.portOn (12 + q) = false → b.pinsArrive (12 + q) kind [c] = b) ∧
       (b.portOn (12 + q) = true →
         let e := if b.flag (Reg.galPortPclkEdgeParallel.ix q) = true then c.2 else c.1
         let x := e.data.toNat % 2 ^ b.portWidth (12 + q)
         let d := b.each (b.parallel (12 + q)) fun s i =>
           s.setGalIn i { s.galIn i with cur := (s.galIn i).cur.map fun f => f.sampled x }
         b.pinsArrive (12 + q) kind [c] =
           if d.flag (Reg.galPortSyncParallel.ix q) = true then d.embeddedSync (12 + q) kind x
           else d.separate (12 + q) kind e x))) ∧
  (∀ (t : Nat) (h : CsiHeader) (kind : LineKind) (px : List Nat) (crcOk : Bool) (bs : List Byte) (s : State),
     let a := s.at_ t
     let p := h.port.val
     let line : Instr := .csiLine t (.csi h) kind px
     let data : Instr := .embeddedDataPacket t h { bytes := bs, crcOk := crcOk }
     let off := a.portOn p = false ∨ (a.galPort p).faulted = true
     let known := h.dt.toNat = 0x1E ∨ (dtBits h.dt.toNat).isSome = true
     let takers := fun (b : State) => b.streams fun g => g.port == p && g.vc == h.vc.toNat && g.dt == h.dt.toNat
     let keepers := fun (b : State) => b.streams fun g => g.port == p && g.vc == h.vc.toNat
     let crcErr := fun (b : State) => b.bump (Reg.galPortStatusCrcErrCsi.ix p)
     let counted := fun (b : State) => match kind with
       | .crc => crcErr b
       | .overflow => b.bump Reg.galStatusOverflow
       | .good => b
     (line.wellFormed = true → off → Runs line s a) ∧
     (line.wellFormed = true → ¬off → ∀ b ok, a.header h = (b, ok) →
       (¬known → ok = true → Runs line s
         (b.setGalPort p { b.galPort p with unsupported := (b.galPort p).unsupported + 1 })) ∧
       (¬known → ok = false → Runs line s b) ∧
       (known → ok = false → Runs line s (b.takeLines (takers b) true .good [])) ∧
       (known → ok = true → takers b = [] → Runs line s b) ∧
       (known → ok = true → takers b ≠ [] → Runs line s ((counted b).takeLines (takers b) false kind px))) ∧
     (data.wellFormed = true → off → Runs data s a) ∧
     (data.wellFormed = true → ¬off → ∀ b ok, a.header h = (b, ok) →
       (ok = false ∨ keepers b = [] → Runs data s b) ∧
       (ok = true → keepers b ≠ [] → Runs data s ((if crcOk then b else crcErr b).each (keepers b) fun s i =>
         match (s.galIn i).cur with
         | some f => s.setGalIn i { s.galIn i with cur := some { f with embedded := f.embedded ++ [bs] } }
         | none => s))) ∧
     (∀ (q : Fin 2) clocks, (Instr.csiLine t (.pins q clocks) kind px).wellFormed = true →
       Runs (.csiLine t (.pins q clocks) kind px) s (a.pinsArrive (12 + q) kind clocks)) ∧
     (∀ (b : State) (i : Nat) (r : List Nat) (lost : Bool), b.takeLines [] lost kind px = b ∧
       b.takeLines (i :: r) lost kind px = (match (b.galIn i).cur with
         | some f => b.setGalIn i { b.galIn i with cur := some (addLine (b.galIn i) f lost (kind == LineKind.overflow)
             (kind == LineKind.crc) px) }
         | none => b).takeLines r lost kind px)) ∧
  (∀ (g : GalIn) (f : GalFrame) (crc : Bool) (px : List Nat),
     let h := addLine g f false false crc px
     (f.lines.length < g.h → ∃ l, h.lines = f.lines ++ [l] ∧ h.extra = f.extra ∧ l.px = px.take g.w ∧
       (l.flags.getLsbD 0 = true ↔ px.length < g.w) ∧ (l.flags.getLsbD 1 = true ↔ g.w < px.length) ∧
       (l.flags.getLsbD 2 = true ↔ crc = true) ∧ l.flags.getLsbD 3 = false) ∧
     (g.h ≤ f.lines.length → h.lines = f.lines ∧ h.extra = f.extra + 1) ∧ h.lost = f.lost ∧
     h.frame = f.frame ∧ h.tick = f.tick ∧ h.vt = f.vt ∧ h.start = f.start ∧ h.embedded = f.embedded ∧
     (∀ lost over_, lost = true ∨ over_ = true → let x := addLine g f lost over_ crc px
       x.extra = f.extra ∧ x.lost = f.lost + (if over_ then 1 else 0) ∧ x.embedded = f.embedded ∧
       x.lines = if f.lines.length < g.h then f.lines ++ [{ px := [], flags := 8 }] else f.lines)) ∧
  (∀ (t : Nat) (i : Fin 24) (h : CsiHeader) (s : State), let a := s.at_ t
     let g := a.galIn i
     let p := h.port.val
     (a.portOn p = false → Runs (.frameEnd t (.csi h)) s a) ∧
     (a.portOn p = true → ∀ b, a.header h = (b, false) → Runs (.frameEnd t (.csi h)) s b) ∧
     (a.portOn p = true → ∀ b, a.header h = (b, true) → Runs (.frameEnd t (.csi h)) s
       (b.each (b.streams fun g => g.port == p && g.vc == h.vc.toNat) State.endFrame)) ∧
     (∀ (q : Fin 2) clocks, Runs (.frameEnd t (.pins q clocks)) s (a.pinsArrive (12 + q) .good clocks)) ∧
     (∀ f, g.cur = some f → a.galleryUp = true →
       let lim := if g.period = 0 then 1000000000 else 2000 * g.period
       (f.start + lim ≤ a.now → Runs (.frameTimeout t i) s (a.endFrame i)) ∧
       (a.now < f.start + lim → Runs (.frameTimeout t i) s a)) ∧
     (g.cur = none → Runs (.frameTimeout t i) s a ∧ a.endFrame i = a) ∧
     (∀ t0, g.lastStart = some t0 → g.period ≠ 0 →
       let due := a.galleryUp = true ∧ g.on = true ∧ g.lateDone = false ∧ t0 + g.period * (50 + g.tol) * 20 ≤ a.now
       (due → Runs (.frameLate t i) s (((a.setGalIn i { g with lateDone := true }).note fcGalLate i).galEvent (0x3000 + i))) ∧
       (¬due → Runs (.frameLate t i) s a)) ∧
     (g.lastStart = none ∨ g.period = 0 → Runs (.frameLate t i) s a) ∧
     (∀ (b c d : State) (n : Nat) (cfg : List (BitVec 32)) (x : GalEnd),
       let o := { b.galOut n with cfg := cfg }
       let e := x.frame.sum x.regs.h
       let drops := (e.short = true ∧ x.regs.drops = true) ∨ b.stopped = true
       let rows := runAcc b (writeRows o.slotDva (b.outRows x.regs o x.frame))
       (drops → b.putFrameRecord o x.frame e true false x.ended = (c, .ok ()) → b.outEnds n cfg x = (c, true)) ∧
       (¬drops → rows = (c, .ok ()) → c.putFrameRecord o x.frame e false false x.ended = (d, .ok ()) →
         b.outEnds n cfg x = (d.delivered n o, true)) ∧
       (¬drops → ∀ st det, rows = (c, .error (.status st det)) →
         c.putFrameRecord o x.frame e true true x.ended = (d, .ok ()) → b.outEnds n cfg x = (d.outFailed n, true))))

/-- A frame record holds, in the fields of R401, FRAME, the flags, BAD_LINES, TICK, VT_STAMP, LINES and DURATION_US; a
delivered frame takes the next slot, emits its token where TOKEN_EN asks so and raises the event 0x2000 + o (R400 to R403).

The wires of an enabled port while the Gallery runs: a lane in use that arrives inverted shows in POL_SWAP, with one note
for each enable (R406); two headers in one order other than LANE_MAP's set ORDER_FAULT and DET_ORDER, raise GAL_WIRE at L2 and
discard the port's packets (R407); a lane in use that misses HS sync sets its LANE_FAULT, a port without clock NO_CLOCK, each
with GAL_WIRE at L2 (R408). -/
def Obligations.FrameRecords : Prop :=
  ((∀ (f : GalFrame) (e : FrameEnd) (dropped werr : Bool) (now : Nat),
     let r := f.record e dropped werr now
     bitsAt r 0 32 = f.frame.toNat ∧ bitsAt r 32 1 = b2n dropped ∧ bitsAt r 33 1 = b2n e.anyShort ∧
     bitsAt r 34 1 = b2n e.anyLong ∧ bitsAt r 35 1 = b2n e.short ∧ bitsAt r 36 1 = b2n e.long_ ∧ bitsAt r 37 1 = b2n f.late ∧
     bitsAt r 38 1 = b2n e.anyCrc ∧ bitsAt r 39 1 = b2n (0 < f.lost) ∧ bitsAt r 40 1 = b2n werr ∧ bitsAt r 41 7 = 0 ∧
     bitsAt r 48 16 = min e.bad 65535 ∧ bitsAt r 64 64 = f.tick.toNat ∧ bitsAt r 128 64 = f.vt.toNat ∧
     bitsAt r 192 16 = e.received % 65536 ∧ bitsAt r 208 16 = 0 ∧ bitsAt r 224 32 = (now - f.start) / 1000 % 2 ^ 32) ∧
   (∀ (s : State) (n : Nat) (o : GalOut),
     let u := s.setGalOut n { s.galOut n with d := o.d + 1 }
     (o.f 0 28 1 = 1 → s.delivered n o = (u.galToken (o.f 5 16 10)).galEvent (0x2000 + n)) ∧
     (o.f 0 28 1 = 0 → s.delivered n o = u.galEvent (0x2000 + n)))) ∧
  (∀ (t : Nat) (p : Fin 12) (lane : Fin 4) (order : BitVec 8) (s : State), let a := s.at_ t
     let q := a.galPort p
     let swap := a.setReg (Reg.galPortStatusPolSwapCsi.ix p) (a.reg (Reg.galPortStatusPolSwapCsi.ix p) ||| 1 <<< lane.val)
     let seen := fun (b : State) => b.setGalPort p { q with noted := q.noted ||| 1#4 <<< lane.val }
     let twice : CsiHeader := { port := p, vc := 0, dt := 0, wires := order, bad := false }
     let once := (a.header twice).1
     let bad := a.setReg (Reg.galPortStatusLaneFaultCsi.ix p) (a.reg (Reg.galPortStatusLaneFaultCsi.ix p) ||| 1 <<< lane.val)
     let gone := a.setFlag (Reg.galPortStatusNoClockCsi.ix p) true
     let wire := mkReport fcGalWire 1 p 0 true
     let on := a.galleryUp = true ∧ a.flag (Reg.galPortEnable.ix p) = true
     let used := on ∧ a.usesLane p lane = true
     (used → q.noted = 0 → Runs (.lanePolarityInvert t p lane) s (seen (swap.note fcGalPolarity p))) ∧
     (used → q.noted ≠ 0 → Runs (.lanePolarityInvert t p lane) s (seen swap)) ∧
     (a.portOn p = false → Runs (.laneOrderFault t p order) s a) ∧
     (a.portOn p = true → once.portOn p = true → Runs (.laneOrderFault t p order) s (once.header twice).1) ∧
     (a.portOn p = true → once.portOn p = false → Runs (.laneOrderFault t p order) s once) ∧
     (∀ b : State,
       let ord := (b.setFlag (Reg.galPortStatusOrderFaultCsi.ix p) true).setReg (Reg.galPortStatusDetOrderCsi.ix p) order.toNat
       b.orderFault p order = (ord.setGalPort p { ord.galPort p with discard := true, wrong := none }).raise wire) ∧
     (a.usesLane p lane = true ↔ ∃ l < 2 ^ min 2 (a.reg (Reg.galPortLanesCsi.ix p)),
       bitsAt (a.reg (Reg.galPortLaneMapCsi.ix p)) (2 * l) 2 = lane) ∧
     (used → Runs (.laneFault t p lane) s ((bad.setGalPort p { q with faulted := true }).raise wire)) ∧
     (on → Runs (.noClock t p) s ((gone.setGalPort p { q with faulted := true }).raise wire)) ∧
     (¬used → Runs (.lanePolarityInvert t p lane) s a ∧ Runs (.laneFault t p lane) s a) ∧ (¬on → Runs (.noClock t p) s a))

/-! ### The Porch (13_porch.md) -/

/-- PORCH_SAMPLE while the Porch captures takes the PDM bits of one sample on every channel, and the feed goes on while the main die is up;
else only time passes (R425). SETTLING_END: after the 32 zero samples the end of settling is logged as event 2 (R426, R430).
POR_SAMPLE_LO_READ, with the aperture open, returns bits [31:0] and latches bits [63:32] (R444).

Each wire carries two channels, the even one at the rising edge of its clock and the odd one at the falling edge (R411).
What a sample leaves: POR_SAMPLE is one more; in frame n mod L of the pre-roll ring each channel of RING_MASK, ascending,
has its aligned 24-bit sample, little-endian, a muted, settling, unhealthy or unclocked channel a zero (R412, R420, R423,
R424, R430).

FEED_RECORD writes the feed record as the last 32 bytes of the feed buffer, after the frames that it counts (R440, R441);
without a feed nothing is written. -/
def Obligations.PorchSamples : Prop :=
  (∀ (t : Nat) (x : List (BitVec 8 × BitVec 8)) (s : State), let a := s.at_ t
     let b := a.porEvent 2
     (a.capturing = true → Runs (.porchSample t x) s (a.takeSample x).feedOn) ∧ (∀ b : State, b.mainUp = false → b.feedOn = b) ∧
     (a.capturing = false → Runs (.porchSample t x) s a) ∧
     (a.por.settle_ = 1 → Runs (.settlingEnd t) s { b with por := { b.por with settle_ := 0 } }) ∧
     (a.por.settle_ ≠ 1 → Runs (.settlingEnd t) s a) ∧
     (a.regOpen = true → Runs (.porSampleLoRead t) s
       { a with por := { a.por with sampleHi := a.por.sample.extractLsb' 32 32 },
                readData := BitVec.ofNat 32 a.por.sample.toNat }) ∧
     (a.regOpen = false → Runs (.porSampleLoRead t) s a)) ∧
  (∀ (s : State) (x : List (BitVec 8 × BitVec 8)) (i c : Nat),
     let u := s.takeSample x
     let n := s.por.sample.toNat
     (∀ (rise fall : BitVec 8), ∀ d < 8, (channelBits (rise, fall)).getLsbD (2 * d) = rise.getLsbD d ∧
       (channelBits (rise, fall)).getLsbD (2 * d + 1) = fall.getLsbD d) ∧
     u.por.sample = s.por.sample + 1 ∧
     (s.ringChans[i]? = some c →
       (s.silent c = true → lget u.por.newest c 0 = 0) ∧
       mread u.por.ring (s.ringAddr n i) 3 = toBytes 3 (lget u.por.newest c 0).toNat) ∧
     s.ringAddr n i = n % (4194304 / (3 * max 1 s.ringChans.length)) * (3 * s.ringChans.length) + 3 * i ∧
     u.mem = s.mem ∧ u.regs = s.regs) ∧
  (∀ (t : Nat) (s : State), let a := s.at_ t
     (a.por.feed = none → Runs (.feedRecord t) s a) ∧
     (∀ f, a.por.feed = some f →
       let write := wr whoBridge (f.base.toNat + f.pages * 65536 - 32) (toBytes 32 f.record)
       (∀ b u, runAcc a write = (b, .ok u) → Runs (.feedRecord t) s b) ∧
       (∀ b d k, runAcc a write = (b, .error (.blocked d k)) → Runs (.feedRecord t) s a) ∧
       bitsAt f.record 0 64 = f.written.toNat ∧ bitsAt f.record 64 64 = f.first.toNat ∧
       bitsAt f.record 128 64 = (f.next - 1).toNat ∧ bitsAt f.record 192 1 = b2n f.gap ∧ bitsAt f.record 193 1 = b2n f.muted))

/-- MIC_CHECK_WINDOW while the Porch captures judges every clocked channel by the window's observations (R419, R420); what it
judges: OPEN or STUCK at a density below 1/64 or above 63/64 as the wire follows the pulls or not, NO_DRIVER where the
channel equals its partner in at least 4,090 clocks, OK otherwise; a channel leaves OK at once and returns after four good
windows in a row. SWAP_TEST_WINDOW counts, on each clocked wire whose |Δ| is at least one sample, the windows in a row whose
lags show it swapped, and at the fourth judges it so, while the beam's level exceeds −DET_LEVEL (R421, R422). With fewer than MIN_BEAM channels of BEAM_MASK healthy
an L2 POR_MIC fault is held, and it ends once there are as many (R420; channels without a clock do not count as missing, by
the model's reading, assumption 35). -/
def Obligations.PorchChecks : Prop :=
  (∀ (t : Nat) (obs : List MicObs) (level : Nat) (lags : List Int) (s : State), let a := s.at_ t
    let judged := a.each (List.range 16) fun s c =>
      match obs[s.wireChannel c]? with
      | some o => s.micChannel c o
      | none => s
    let tested := a.each (List.range 8) fun s d =>
      if s.clockOff (2 * d) || (s.trimGap d).natAbs < 64 then s
      else
        let n := if s.looksSwapped d lags then lget s.por.swapRun d 0 + 1 else 0
        let t := { s with por := { s.por with swapRun := lput s.por.swapRun d (if 4 ≤ n then 0 else n) } }
        if 4 ≤ n then t.wireSwapped d else t
    ((Instr.micCheckWindow t obs).wellFormed = true → a.capturing = true → Runs (.micCheckWindow t obs) s judged.beamCheck) ∧
    ((Instr.micCheckWindow t obs).wellFormed = true → a.capturing = false → Runs (.micCheckWindow t obs) s a) ∧
    ((Instr.swapTestWindow t level lags).wellFormed = true → a.capturing = true → level < a.reg Reg.porCtrlDetLevel →
      Runs (.swapTestWindow t level lags) s tested) ∧
    ((Instr.swapTestWindow t level lags).wellFormed = true → a.capturing = false ∨ a.reg Reg.porCtrlDetLevel ≤ level →
      Runs (.swapTestWindow t level lags) s a)) ∧
  (∀ o : MicObs, let odd := 64 * o.ones < 4096 ∨ 63 * 4096 < 64 * o.ones
    (odd → o.follows = true → micJudge o = 1) ∧ (odd → o.follows = false → micJudge o = 2) ∧
    (¬odd → 4090 ≤ o.same → micJudge o = 3) ∧ (¬odd → o.same < 4090 → micJudge o = 0)) ∧
  (∀ (s : State) (c : Nat) (o : MicObs), s.clockOff c = false →
    (micJudge o ≠ 0 → (s.micChannel c o).regs = (s.setChState c (micJudge o)).regs) ∧
    (micJudge o = 0 → lget s.por.good c 0 + 1 < 4 → (s.micChannel c o).regs = s.regs) ∧
    (micJudge o = 0 → s.chState c ≠ 0 → 4 ≤ lget s.por.good c 0 + 1 → (s.micChannel c o).regs = (s.setChState c 0).regs)) ∧
  (∀ s : State,
    let n := ((maskBits 16 s.por.profBeam.toNat).filter fun c => s.chHealthy c || s.chState c == 4).length
    let low := n < s.reg Reg.porCtrlMinBeam
    let fault := fun (u : State) (b : Bool) => { u with por := { u.por with beamFault := b } }
    (low → s.por.beamFault = false → s.beamCheck = fault (s.raiseAon (mkReport fcPorMic 1 0 0 true)) true) ∧
    ((low ↔ s.por.beamFault = true) → s.beamCheck = s) ∧
    (¬low → s.por.beamFault = true → s.beamCheck =
      fault (s.endCondition fcPorMic fun r => 1 ≤ r.level && r.unit == 0) false))

/-- KEYHOLE_FRAME while the Porch captures: the frame is scored, and Porch changes that wait are applied where no partial match
is held then (R428, R432). PORCH_CHANGE_DEADLINE: 2.5 s after the earliest waiting change was requested the frame is scored,
partial matches end with records of cause RATE_CHANGE and the changes are applied (R429). PARTIAL_MATCH_TIMEOUT: a partial
match ends 2.5 s after its start, its phrase blocked until a frame scores below ARM × 256 (R432).

How a phrase is scored (R432, R433): without a partial match, a score below ARM × 256 only ends its blocking, and a blocked
phrase starts none; a held partial match, or one that starts now, keeps the highest score, matches where the score reaches
MATCH × 256 at the phrase end, and is dropped below ARM × 256; a match counts, ends the partial match, and writes a record of
cause MATCHED.

A wake record stands in slot q mod 16 with the fields of R434 and SEQ q; the next sequence number is one more, never 0.

CHAIN_STAGE_START: in S2 it wakes the main die; in Safe Floor the chain ends with END 5; once the main die is in S0 with its rings enabled the decision
word is written 0 and the stage's list posted; a decision word that cannot be written ends the chain with END 3 (the model's
reading, assumption 2); before that the chain waits (R436). CHAIN_STAGE_COMPLETE acts on the decision word as R437 gives;
another status than OK ends the chain with END 3, and a chain whose CHAIN_EN was cleared ends with END 7 (R438).
CHAIN_STAGE_TIMEOUT: TIMEOUT_MS after its first posting a stage ends the chain with END 4 (R437). -/
def Obligations.KeyholeAndChain : Prop :=
  (∀ (t : Nat) (xs : List KeyScore) (k : Fin 8) (s : State), let a := s.at_ t
     let f := a.scoreFrame xs
     let mark := fun (b : State) => { b with por := { b.por with frameState := b.pwr.state.code } }
     let late := ((a.scoreFrame xs).each (a.scoreFrame xs).por.partials fun s e => ((s.dropPartial e.1).wakeRecord e.1 1 e.2).2)
     ((Instr.keyholeFrame t xs).wellFormed = true →
       (a.capturing = false → Runs (.keyholeFrame t xs) s a) ∧
       (a.capturing = true → f.por.partials = [] → Runs (.keyholeFrame t xs) s (mark f.applyChanges)) ∧
       (a.capturing = true → f.por.partials ≠ [] → Runs (.keyholeFrame t xs) s (mark f))) ∧
     ((Instr.porchChangeDeadline t xs).wellFormed = true →
       (a.por.changes = [] → Runs (.porchChangeDeadline t xs) s a) ∧
       (∀ c t0 r, a.por.changes = (c, t0) :: r →
         (t0 + 2500000000 ≤ a.now → Runs (.porchChangeDeadline t xs) s (mark late.applyChanges)) ∧
         (a.now < t0 + 2500000000 → Runs (.porchChangeDeadline t xs) s a))) ∧
     (tfind a.por.partials k = none → Runs (.partialMatchTimeout t k) s a) ∧
     (∀ p, tfind a.por.partials k = some p →
       (p.start + 2500000000 ≤ a.now → Runs (.partialMatchTimeout t k) s
         { a with por := { a.por with partials := tdel a.por.partials k, blocked := sins a.por.blocked k } }) ∧
       (a.now < p.start + 2500000000 → Runs (.partialMatchTimeout t k) s a))) ∧
  (∀ (s : State) (k : Nat) (x : KeyScore),
     let v := x.score.toNat
     let arm := 256 * s.reg (Reg.keyPhraseArm.ix k)
     let full := 256 * s.reg (Reg.keyPhraseMatch.ix k)
     let meets := fun (p : Partial) =>
       let q := { p with score := max p.score v }
       let won := (s.bump Reg.keyStatusMatchCnt).dropPartial k
       (full ≤ v → x.ended = true → s.scorePhrase k x =
         (won.wakeRecord k 0 q).2.chainFor k (won.wakeRecord k 0 q).1 q.startSample) ∧
       (v < full ∨ x.ended = false → v < arm → s.scorePhrase k x = s.dropPartial k) ∧
       (v < full ∨ x.ended = false → arm ≤ v → s.scorePhrase k x =
         { s with por := { s.por with partials := tset s.por.partials k q } })
     (∀ p, tfind s.por.partials k = some p → meets p) ∧
     (tfind s.por.partials k = none →
       (v < arm → s.scorePhrase k x = { s with por := { s.por with blocked := s.por.blocked.filter (· != k) } }) ∧
       (arm ≤ v → k ∈ s.por.blocked → s.scorePhrase k x = s) ∧
       (arm ≤ v → k ∉ s.por.blocked →
         meets { start := s.now, startSample := s.frameFirst, startState := s.por.frameState, score := v }))) ∧
  (∀ (s : State) (phrase cause : Nat) (p : Partial),
     let q := s.por.seqNext
     let u := (s.wakeRecord phrase cause p).2
     let word := fun (i : Nat) => (u.word (0x18A00 + 0x20 * (q.toNat % 16) + 4 * i)).toNat
     (s.wakeRecord phrase cause p).1 = q ∧ word 0 = q.toNat ∧ bitsAt (word 1) 0 3 = phrase % 8 ∧
     bitsAt (word 1) 3 4 = cause % 16 ∧ bitsAt (word 1) 7 1 = b2n (cause == 0 && s.por.chain.isSome) ∧
     bitsAt (word 1) 8 3 = 1 ∧ bitsAt (word 1) 11 4 = 0 ∧
     word 2 + word 3 <<< 32 = p.startSample.toNat ∧ word 4 + word 5 <<< 32 = (s.por.sample - 1).toNat ∧
     bitsAt (word 6) 0 16 = min p.score 65535 ∧ bitsAt (word 6) 16 3 = p.startState % 8 ∧
     bitsAt (word 6) 19 3 = s.pwr.state.code % 8 ∧ word 7 = 0 ∧
     (u.por.seqNext ≠ 0 ∧ (q + 1 ≠ 0 → u.por.seqNext = q + 1)) ∧
     (∀ o, (o < 0x18A00 ∨ 0x18C00 ≤ o) → u.word o = s.word o)) ∧
  (∀ (t : Nat) (c : Chain) (s : State), let a := s.at_ t
     let dva := a.decideDva c.stage
     let zero := wr whoBridge dva (toBytes 8 0)
     let next := fun (b : State) (d : Chain) => { b with por := { b.por with chain := some d } }
     let lim := 1000000 * a.reg (stageReg Reg.porChain0TimeoutMs c.stage)
     a.por.chain = some c →
     (c.phase = .starting → a.pwr.state = .s2 → Runs (.chainStageStart t) s (a.wakeBy 1 c.seq)) ∧
     (c.phase = .starting → a.pwr.state ≠ .s2 → (a.safeFloor && a.mainUp) = true → Runs (.chainStageStart t) s (a.endChain 5)) ∧
     (c.phase = .starting → a.pwr.state ≠ .s2 → (a.safeFloor && a.mainUp) = false → a.stageMay c = false → Runs (.chainStageStart t) s a) ∧
     (c.phase = .starting → a.pwr.state ≠ .s2 → (a.safeFloor && a.mainUp) = false → a.stageMay c = true →
       (∀ b u, runAcc a zero = (b, .ok u) → Runs (.chainStageStart t) s (b.postStage c)) ∧
       (∀ b st d, runAcc a zero = (b, .error (.status st d)) → Runs (.chainStageStart t) s (b.endChain 3))) ∧
     (∀ st, c.phase = .ended st →
       (c.stopping = true → Runs (.chainStageComplete t) s (a.endChain 7)) ∧
       (c.stopping = false → st ≠ stOk → Runs (.chainStageComplete t) s (a.endChain 3)) ∧
       (c.stopping = false → st = stOk → a.mainUp = true → ∀ b v, runAcc a (rdNat whoBridge dva 8) = (b, .ok v) →
         (v = 1 → b.stageAfter c.stage = none → Runs (.chainStageComplete t) s (b.endChain 1)) ∧
         (v = 1 → ∀ j, b.stageAfter c.stage = some j → Runs (.chainStageComplete t) s
           (next b { c with stage := j, phase := .starting, firstPost := none })) ∧
         (v = 2 → Runs (.chainStageComplete t) s (next b { c with phase := .starting })) ∧
         (v ≠ 1 → v ≠ 2 → Runs (.chainStageComplete t) s (b.endChain 2)))) ∧
     (c.firstPost = none → Runs (.chainStageTimeout t) s a) ∧
     (∀ f, c.firstPost = some f →
       (f + lim ≤ a.now → Runs (.chainStageTimeout t) s (a.endChain 4)) ∧
       (a.now < f + lim → Runs (.chainStageTimeout t) s a)))

/-! ### Power and resets (14_power.md, 15_resets_and_retention.md) -/

/-- The level in force is the lowest of the requested level and the four caps (R461); a change downwards takes the clock down at
once, one upwards leaves it until the regulator has reported (R462); AVS_COMPLETE ends the change in progress, both voltage and
clock then at the level aimed at; while the main die waits for the voltage of its start, it starts (R450); else only time
passes.

The caps rise (R461): once the cause is over and the hold has passed, a cap in force rises one level, and then by one more
at each release step whatever its cause does since, until it no longer limits and is gone; before that, and with no cap in
force, only time passes.

POWER_CAP_EVALUATION shows the average power; with WATTS 0 there is no cap; above WATTS the cap falls to one level under
that in force and the fall is logged; else it stays (R461). -/
def Obligations.LevelsAndCaps : Prop :=
  ((∀ s : State, s.mainUp = true →
     s.level = min (min s.pwr.requested (s.reg Reg.pwrCapsSupply))
       (min (s.reg Reg.pwrCapsBatt) (min (s.reg Reg.pwrCapsTherm) (s.reg Reg.pwrCapsPower))) ∧
     (s.pwr.target ≠ s.level → s.relevel.pwr.clock = min s.pwr.clock s.level ∧ s.relevel.pwr.target = s.level ∧
       s.relevel.flag Reg.pwrStatusAvsBusy = true) ∧
     (s.pwr.target = s.level → s.relevel.pwr = s.pwr) ∧ s.relevel.reg Reg.pwrStatusLevel = s.level % 8) ∧
   (∀ (t : Nat) (s : State), let a := s.at_ t
     let b := a.setFlag Reg.pwrStatusAvsBusy false
     let c := { b with pwr := { b.pwr with startAvs := none, coreSet := true } }
     (a.pwr.startAvs = none → a.flag Reg.pwrStatusAvsBusy = false → Runs (.avsComplete t) s a) ∧
     (a.pwr.startAvs = none → a.flag Reg.pwrStatusAvsBusy = true →
       Runs (.avsComplete t) s { b with pwr := { b.pwr with reached := b.pwr.target, clock := b.pwr.target } }) ∧
     (∀ found, a.pwr.startAvs = some found → Runs (.avsComplete t) s (if c.mayStart then c.startMain found else c)))) ∧
  ((∀ (t : Nat) (c : Cap) (s : State), let a := s.at_ t
     let on := a.reg (capField c) ≠ 7 ∨ (c = .thermal ∧ a.pwr.thermOn = true)
     let first := on ∧ a.causeOver c = true ∧ a.riseDue c = true ∧ a.releasing c = false
     let next := on ∧ a.riseDue c = true ∧ a.releasing c = true
     (first → Runs (.capHoldExpiry t c) s ((if c = .supply then a.railsBack else a).raiseCap c)) ∧
     (¬first → Runs (.capHoldExpiry t c) s a) ∧
     (next → Runs (.capReleaseStep t c) s (a.raiseCap c)) ∧
     (¬next → Runs (.capReleaseStep t c) s a)) ∧
   (∀ (c : Cap) (s : State), let l := s.reg (capField c) + 1
     (s.raiseCap c).reg (capField c) = if 7 ≤ l ∨ s.pwr.requested ≤ l then 7 else l)) ∧
  (∀ (t : Nat) (watts : BitVec 10) (s : State), let a := s.at_ t
     let b := a.setReg Reg.pwrLimitAvgW watts.toNat
     let lim := b.reg Reg.pwrLimitWatts
     (a.mainUp = false → Runs (.powerCapEvaluation t watts) s a) ∧
     (a.mainUp = true →
       (lim = 0 → Runs (.powerCapEvaluation t watts) s ((b.setRise .power none).setCap .power 7)) ∧
       (lim ≠ 0 → lim < watts.toNat → Runs (.powerCapEvaluation t watts) s ((b.setCap .power (b.level - 1)).log 8 3)) ∧
       (watts.toNat ≤ lim → lim ≠ 0 → Runs (.powerCapEvaluation t watts) s b)))

/-- The supplies (R451, R452, R454). A powered rail at its warning threshold raises SUPPLY_WARN, is counted and puts the supply
cap at P3, which holds for 1 ms at least; above +6 % it raises SUPPLY_HIGH at L2; at its reset threshold a main-group rail
causes an MDR and the main group loses power, a Loft-group rail causes an MDR that loses the Loft's contents, or their loss
alone in S2, and a companion rail the loss of everything but fuses and flash. A rail that is off does nothing.

BATT_WARN_N (R455, R456): going low it is logged, shown in BATT_LOW and puts the battery cap at P3; returning high, logged
too, it starts the cap's hold of 1 ms and ends the stuck fault; low for BATT_STUCK_S seconds it raises one L2 fault, none with
BATT_STUCK_S 0.

The reference clocks (R460): without REFCLK_MAIN a CLOCK_LOST record of L3 is raised and the main die is held in MDR;
without REFCLK_AON, CLOCK_AON at L2; a clock that returns ends its record's condition, REFCLK_MAIN letting a pending start
write the voltage of START_LEVEL, whose completion it awaits (R450). -/
def Obligations.SuppliesAndClocks : Prop :=
  (∀ (t : Nat) (rail : Fin 11) (s : State), let a := s.at_ t
     let warn := a.raiseAon (mkReport fcSupplyWarn 0 rail 0 true)
     let noted := { warn with pwr := { warn.pwr with supplyBad := sins warn.pwr.supplyBad rail } }
     let capped := (noted.bump Reg.pwrCapsWarnCnt).setCap .supply 3
     let main := a.hardMdr 1 false
     let loft := a.hardMdr 2 true
     let asleep := (a.pwr.state == .s2 && !a.mainUp) = true
     (a.railOn rail = false → Runs (.supplyWarning t rail) s a ∧ Runs (.supplyHigh t rail) s a ∧
       Runs (.supplyResetThreshold t rail) s a) ∧
     (a.railOn rail = true →
       Runs (.supplyWarning t rail) s (capped.setRise .supply (some (capped.now + 1000000))) ∧
       Runs (.supplyHigh t rail) s (a.raiseAon (mkReport fcSupplyHigh 1 rail 0 true)) ∧
       (rail.val < 6 → Runs (.supplyResetThreshold t rail) s
         { main with pwr := { main.pwr with mainGood := false, coreSet := false, startAvs := none }
                     fb := { main.fb with collector := [] } }) ∧
       (6 ≤ rail.val → rail.val < 8 → asleep → Runs (.supplyResetThreshold t rail) s
         { a with pwr := { a.pwr with loftLost := true, loftGood := false } }) ∧
       (6 ≤ rail.val → rail.val < 8 → ¬asleep → Runs (.supplyResetThreshold t rail) s
         { loft with pwr := { loft.pwr with loftGood := false } }) ∧
       (8 ≤ rail.val → Runs (.supplyResetThreshold t rail) s a.powerLost))) ∧
  (∀ (t : Nat) (s : State), let a := s.at_ t
     let low := { a with pins := { a.pins with battWarnN := false }
                         pwr := { a.pwr with battLowSince := some a.now, battFaulted := false } }
     let back := { a with pins := { a.pins with battWarnN := true }
                          pwr := { a.pwr with battLowSince := none, battFaulted := false } }
     let lim := a.reg Reg.pwrCtrlBattStuckS
     (a.pwr.aonGood = true → a.pins.battWarnN = true → Runs (.battWarnAssert t) s
       (((low.setFlag Reg.pwrStatusBattLow true).log 3 1).setCap .battery 3)) ∧
     (a.pwr.aonGood = false ∨ a.pins.battWarnN = false → Runs (.battWarnAssert t) s a) ∧
     (a.pins.battWarnN = false → Runs (.battWarnRelease t) s
       (((((back.setFlag Reg.pwrStatusBattLow false).log 3 0)).setRise .battery (some (a.now + 1000000))).endCondition
         fcBattWarnStuck fun _ => true)) ∧
     (a.pins.battWarnN = true → Runs (.battWarnRelease t) s a) ∧
     (∀ t0, a.pwr.battLowSince = some t0 →
       let due := lim ≠ 0 ∧ a.pwr.battFaulted = false ∧ t0 + 1000000000 * lim ≤ a.now
       (due → Runs (.battWarnStuck t) s
         (({ a with pwr := { a.pwr with battFaulted := true } }).raiseAon (mkReport fcBattWarnStuck 1 0 0 true))) ∧
       (¬due → Runs (.battWarnStuck t) s a)) ∧
     (a.pwr.battLowSince = none → Runs (.battWarnStuck t) s a)) ∧
  (∀ (t : Nat) (found : List Finding) (s : State), let a := s.at_ t
     let lost := a.raiseAon (mkReport fcClockLost 2 0 0 true)
     let down := ({ lost with pwr := { lost.pwr with refMain := false } })
     let mdr := down.hardMdr 4 false
     let back := a.endCondition fcClockLost fun _ => true
     let freed := { back with pwr := { back.pwr with refMain := true }, rst := { back.rst with mdrHeld := false } }
     let goes := freed.mayStart = true ∧ freed.pwr.startAvs = none
     (a.pwr.aonGood = true → a.pwr.refMain = true → Runs (.refclkMainLost t) s
       { mdr with rst := { mdr.rst with mdrHeld := down.mainUp || down.rst.starting } }) ∧
     (a.pwr.aonGood = false ∨ a.pwr.refMain = false → Runs (.refclkMainLost t) s a) ∧
     (a.pwr.aonGood = true → a.pwr.refAon = true → Runs (.refclkAonLost t) s
       (({ a with pwr := { a.pwr with refAon := false } }).raiseAon (mkReport fcClockAon 1 0 0 true))) ∧
     (a.pwr.aonGood = false ∨ a.pwr.refAon = false → Runs (.refclkAonLost t) s a) ∧
     (goes → Runs (.clockReturn t true found) s
       (({ freed with pwr := { freed.pwr with startAvs := some found } }).setFlag Reg.pwrStatusAvsBusy true)) ∧
     (¬goes → Runs (.clockReturn t true found) s freed) ∧
     Runs (.clockReturn t false found) s (({ a with pwr := { a.pwr with refAon := true } }).endCondition fcClockAon fun _ => true))

/-- Temperatures (R466 to R468): a valid sensor at 115 °C or above puts the thermal cap at CAP_LEVEL, or leaves it lower; every
10 ms that a sensor reads 120 °C the cap falls one more level; the cap's coming to P0 raises an L2 fault; a sensor at 130 °C
trips: an L4 record, and the main and Loft groups off; once no sensor reads 105 °C and no L4 record is left, both groups start
again. A stack sensor's reading shows in its slice's register.

SENSOR_SCAN and RAIL_SCAN while the Study is up outside S3: every sensor's reading is taken, judged by R506 and shown, each
slice's hotter stack sensor in its register, the hottest valid one in PWR_THERM, and no sensor at 105 °C ends the trip's
condition (R304, R505, R506); every rail's voltage and measured current are shown, a rail that is off as 0, and a rail back
within its thresholds ends its records' condition (R507). -/
def Obligations.TemperaturesAndScans : Prop :=
  (∀ (t : Nat) (i : Fin 64) (temp : BitVec 16) (s : State), let a := s.at_ t
     let c := temp.toInt
     let taken : State := { a with pwr := { a.pwr with temps := lset a.pwr.temps i c } }
     let read := if i.val < 36 then taken.sliceTemp (i / 2) else taken
     let hot := read.noteAon fcThermalCap i
     let old := hot.reg Reg.pwrCapsTherm
     let l := min old (hot.reg Reg.pwrThermCapLevel)
     let fall := if hot.pwr.thermOn then hot.pwr.thermFall else some (hot.now + 10000000)
     let capped := (({ hot with pwr := { hot.pwr with thermFall := fall, thermOn := true } }).setCap .thermal l).log 8 1
     let k := a.reg Reg.pwrCapsTherm
     let stepped := (({ a with pwr := { a.pwr with thermFall := some (a.now + 10000000) } }).setCap .thermal (k - 1)).log 8 2
     let deep := fun (b : State) => b.raiseAon (mkReport fcThermal 1 0 0 true)
     let gone := read.raiseAon (mkReport fcThermalTrip 3 i 0 true)
     let down := (if gone.mainUp then gone.loseBuffers.mainDown else gone).mainPowerOff
     let dropped := { down with
       pwr := { down.pwr with tripped := true, loftGood := false, waking := none, loftLost := true }
       pins := { down.pins with pwrEnMain := false, pwrEnLoft := false, fdReady := false } }
     let again := { a with pwr := { a.pwr with tripped := false }, pins := { a.pins with pwrEnMain := true, pwrEnLoft := true } }
     let watched := a.pwr.aonGood = true ∧ a.pwr.state ≠ .s3
     let may := a.sty.up = true ∧ a.pwr.thermOn = true ∧ k ≠ 0 ∧ a.anyHot 120 = true ∧ ∀ f, a.pwr.thermFall = some f → f ≤ a.now
     let cool := a.pwr.tripped = true ∧ a.hasStop = false ∧ a.anyHot 105 = false ∧ a.rst.resetLow = false
     (watched → i.val ∉ a.pwr.sensBad → 115 ≤ c → Runs (.thermalCap t i temp) s (if l = 0 ∧ old ≠ 0 then deep capped else capped)) ∧
     (¬watched ∨ i.val ∈ a.pwr.sensBad ∨ c < 115 → Runs (.thermalCap t i temp) s a) ∧
     (may → Runs (.thermalCapStep t) s (if k = 1 then deep stepped else stepped)) ∧ (¬may → Runs (.thermalCapStep t) s a) ∧
     (watched → 130 ≤ c → Runs (.thermalTrip t i temp) s (dropped.pendStart 4 false true)) ∧
     (¬watched ∨ c < 130 → Runs (.thermalTrip t i temp) s a) ∧
     (cool → Runs (.tripRestart t) s ((again.pendStart 4 false true).mdrCause 5)) ∧ (¬cool → Runs (.tripRestart t) s a)) ∧
  (∀ (t : Nat) (temps : BitVec 1024) (mv : BitVec 176) (cur : BitVec 64) (s : State), let a := s.at_ t
     let l := (List.range 64).map fun i => signed 16 (bitsAt temps.toNat (16 * i) 16)
     let taken := { a with pwr := { a.pwr with temps := l }, sty := { a.sty with scans := a.sty.scans + 1 } }
     let judged := (taken.each (List.range 64) fun s i => s.judgeSensor l i).each (List.range 18) State.sliceTemp
     let shown := match judged.hottest with
       | some (x, i) => (((judged.tempByte x).2.setReg Reg.pwrThermHotMax (judged.tempByte x).1).setReg Reg.pwrThermHotId i)
       | none => judged
     let up := a.sty.up = true ∧ a.pwr.state ≠ .s3
     (¬up → Runs (.sensorScan t temps) s a ∧ Runs (.railScan t mv cur) s a) ∧
     (up → shown.anyHot 105 = true → Runs (.sensorScan t temps) s shown) ∧
     (up → shown.anyHot 105 = false → Runs (.sensorScan t temps) s (shown.endCondition fcThermalTrip fun _ => true)) ∧
     (up → Runs (.railScan t mv cur) s (a.each (List.range 11) fun s r =>
       let on := s.railOn r
       let c := match currentPlace r with
         | some i => if on then bitsAt cur.toNat (16 * i) 16 else 0
         | none => 0
       let s := (s.setReg (Reg.styRailMv.ix r) (if on then bitsAt mv.toNat (16 * r) 16 else 0)).setReg (Reg.styRailCurrent.ix r) c
       if s.railOn r then s.railRead r (if on then bitsAt mv.toNat (16 * r) 16 else 0) else s)))

/-- Sleep and wakes (R470 to R477): DOZE_US after the last work a running device with DOZE_EN dozes; GRACE_MS after the sleep
entry became irrevocable the device sleeps; S3_AFTER_MIN minutes in S2 lead to S3; WAKE_IN's changes show in PWR_STATUS and
the log, its rise being a wake; a MGMT_WAKE edge is a wake, and so is the wake timer, SECONDS after the sleep began.

POR: the companion group is good, time begins at 0, both power enables are high and a start of kind 1 is pending (R484).
RESET_N low holds both dies in reset, every record acknowledged and cleared; its release starts the companion die and leaves a
start of kind 2 pending (R485). GROUP_GOOD lets a pending start write the voltage of START_LEVEL, whose completion it awaits,
once it may start (R449, R450).

MDR_GRACE_EXPIRY: with every list ended and every record of an ordered MDR written, GRACE_MS after them the main die saves
its dirty sectors, goes down and starts again (R486). STUDY_RESTART_COMPLETE ends an STR, a PCR or MDR that an activation
ordered following (R483, R535); STUDY_WATCHDOG causes an STR, PORCH_WATCHDOG a PCR (R481, R504). -/
def Obligations.SleepAndStarts : Prop :=
  (∀ (t : Nat) (s : State), let a := s.at_ t
     let rise := { a with pins := { a.pins with wakeIn := true } }
     let fall := { a with pins := { a.pins with wakeIn := false } }
     let asleep := a.pwr.state = .s2 ∨ a.pwr.state = .s3
     (∀ t0, a.pwr.idleSince = some t0 →
       let due := a.mainUp = true ∧ a.pwr.state = .s0 ∧ a.flag Reg.pwrCtrlDozeEn = true ∧ t0 + a.reg Reg.pwrCtrlDozeUs * 1000 ≤ a.now
       (due → Runs (.dozeEntry t) s { a with pwr := { a.pwr with state := .s1 } }) ∧ (¬due → Runs (.dozeEntry t) s a)) ∧
     (a.pwr.idleSince = none → Runs (.dozeEntry t) s a) ∧
     (∀ to3, a.pwr.entry = .grace to3 →
       (a.pwr.irrevAt + a.reg Reg.pwrCtrlGraceMs * 1000000 ≤ a.now → Runs (.sleepGraceExpiry t) s (a.sleepDown to3)) ∧
       (a.now < a.pwr.irrevAt + a.reg Reg.pwrCtrlGraceMs * 1000000 → Runs (.sleepGraceExpiry t) s a)) ∧
     (let lim := 60 * a.reg Reg.pwrRetainS3AfterMin
      (a.pwr.state = .s2 → lim ≠ 0 → a.pwr.sleptAt + 1000 * lim * 1000000 ≤ a.now → Runs (.s3AfterTimeout t) s a.s3FromS2) ∧
      (a.pwr.state ≠ .s2 ∨ lim = 0 ∨ a.now < a.pwr.sleptAt + 1000 * lim * 1000000 → Runs (.s3AfterTimeout t) s a)) ∧
     (a.pins.wakeIn = false → a.pwr.aonGood = true → Runs (.wakeInRise t) s
       (((rise.setFlag Reg.pwrStatusWakeIn true).log 4 1).wakeBy 2)) ∧
     (a.pins.wakeIn = true → Runs (.wakeInRise t) s a) ∧
     (a.pins.wakeIn = true → a.pwr.aonGood = true → Runs (.wakeInFall t) s ((fall.setFlag Reg.pwrStatusWakeIn false).log 4 0)) ∧
     (a.pins.wakeIn = false → Runs (.wakeInFall t) s a) ∧
     (a.pwr.aonGood = true → Runs (.mgmtWakeEdge t) s (a.wakeBy 3)) ∧ (a.pwr.aonGood = false → Runs (.mgmtWakeEdge t) s a) ∧
     (let lim := a.reg Reg.pwrWakeTimerSeconds
      (a.pwr.aonGood = true → asleep → lim ≠ 0 → a.pwr.sleptAt + 1000 * lim * 1000000 ≤ a.now →
        Runs (.wakeTimerExpiry t) s (a.wakeBy 5)) ∧
      (¬asleep ∨ lim = 0 ∨ a.now < a.pwr.sleptAt + 1000 * lim * 1000000 → Runs (.wakeTimerExpiry t) s a))) ∧
  (∀ (t : Nat) (found : List Finding) (s : State), let a := s.at_ t
     let p := a.porNow
     let low := if a.mainUp then a.loseBuffers.mainDown else a
     let held := { low with pins := { low.pins with resetN := false, fdReady := false }
                            rst := { resetLow := true, mdrHeld := low.rst.mdrHeld }
                            pwr := { low.pwr with entry := .none, sleepTicket := none, waking := none, wakePending := none,
                                                  startAvs := none } }
     let quiet := { held with fb := { held.fb with collector := [], direct := [], test := none } }
     let off := ({ quiet.studyFresh with sty := { quiet.studyFresh.sty with up := false } })
     let slept := a.pwr.state = .s2 ∨ a.pwr.state = .s3
     let high := { a with pins := { a.pins with resetN := true }, rst := { a.rst with resetLow := false }
                          pwr := { a.pwr with state := .s0, loftLost := false }
                          tick := { a.tick with gapNext := a.tick.gapNext || decide slept } }
     let on := (high.companionStart 2).cause 2 0
     let fed := if on.pwr.tripped then on else { on with pins := { on.pins with pwrEnMain := true, pwrEnLoft := true } }
     let go := fun (b : State) => if b.mayStart = true ∧ b.pwr.startAvs = none then
       ({ b with pwr := { b.pwr with startAvs := some found } }).setFlag Reg.pwrStatusAvsBusy true else b
     Runs (.por t) s p ∧ p.pins.pwrEnMain = true ∧ p.pins.pwrEnLoft = true ∧ p.rst.starting = true ∧ p.rst.startKind = 1 ∧
     (a.pwr.aonGood = true → a.rst.resetLow = false → Runs (.resetNAssert t) s off.ackAll.clearRecords) ∧
     (a.pwr.aonGood = false ∨ a.rst.resetLow = true → Runs (.resetNAssert t) s a) ∧
     (a.rst.resetLow = true → Runs (.resetNRelease t found) s (go (fed.pendStart 2 false false))) ∧
     (a.rst.resetLow = false → Runs (.resetNRelease t found) s a) ∧
     (a.pins.pwrEnMain = true → Runs (.groupGood t .main found) s (go { a with pwr := { a.pwr with mainGood := true } })) ∧
     (a.pins.pwrEnMain = false → Runs (.groupGood t .main found) s a) ∧
     (a.pins.pwrEnLoft = true → Runs (.groupGood t .loft found) s (go { a with pwr := { a.pwr with loftGood := true } })) ∧
     (a.pins.pwrEnLoft = false → Runs (.groupGood t .loft found) s a)) ∧
  (∀ (t : Nat) (found : List Finding) (s : State), let a := s.at_ t
     let back := { a with sty := { a.sty with up := true }
                          rst := { a.rst with strBusy := false, afterPcr := false, afterMdr := false } }
     let pcr := if a.rst.afterPcr then back.pcr 11 else back
     (a.rst.mdr = none → Runs (.mdrGraceExpiry t found) s a) ∧
     (∀ j, a.rst.mdr = some j →
       let due := a.mainUp = true ∧ a.wk.works = [] ∧ (∀ o ∈ a.rg.owed, o.sq.isSome = true) ∧
         j.t0 + a.reg Reg.pwrCtrlGraceMs * 1000000 ≤ a.now
       let b := ((a.saveAll.mainDown).pendStart 4 true false).mdrCause j.source
       (due → Runs (.mdrGraceExpiry t found) s (if b.mayStart = true ∧ b.pwr.startAvs = none then
         ({ b with pwr := { b.pwr with startAvs := some found } }).setFlag Reg.pwrStatusAvsBusy true else b)) ∧
       (¬due → Runs (.mdrGraceExpiry t found) s a)) ∧
     (a.rst.strBusy = true → Runs (.studyRestartComplete t) s (if a.rst.afterMdr then pcr.orderMdr 11 else pcr)) ∧
     (a.rst.strBusy = false → Runs (.studyRestartComplete t) s a) ∧
     (a.sty.up = true → Runs (.studyWatchdog t) s (a.str 12)) ∧ (a.sty.up = false → Runs (.studyWatchdog t) s a) ∧
     (let on := a.pwr.aonGood = true ∧ a.rst.resetLow = false ∧ a.pwr.state ≠ .s3
      (on → Runs (.porchWatchdog t) s (a.pcr 13)) ∧ (¬on → Runs (.porchWatchdog t) s a)))

/-! ### Party-wall links and the Fusebox (18_party_wall.md, 19_fusebox.md) -/

/-- PORT_TRAINING of an enabled port in S0 with FD_READY: lanes newly found faulty enter the repair ledger, the port runs at the width that its faulty lanes leave, a peer whose
set or check value does not match is refused with PW_SET_MISMATCH at L2, and one that matches has its start count recorded
(R573). PACKET_NAK counts the replay on a port that is up (R575). PORT_DOWN: with another port to the peer PW_PORT_DOWN at L2;
else, and at PEER_LOST of a peer reached or counted on, the peer is lost (R588).

The width that a port's faulty lanes leave (R573, fourth step): none, eight lanes; one, the spare in its place; five at
most, four lanes; more, the port is down. A faulty lane enters the ledger, from where every later training excludes it, unless
the ledger is full. LINK_LANE_FAULT on a port that is up enters the lane; while lanes are left the port runs at that width, noting the first use of its spare, and raising PW_LANE at L2 when it falls to four lanes;
else it goes down (R574). -/
def Obligations.PortsTrain : Prop :=
  (∀ (t : Nat) (p pos : Fin 4) (r : Training) (s : State), let a := s.at_ t
     let may := a.linksUp = true ∧ (a.reg Reg.pwCtrlPortEn).testBit p = true ∧ a.pins.fdReady = true ∧ a.pwr.state = .s0 ∧
       a.sec.startOk = true
     let x := a.pwPort p
     let bad := (x.bad ||| r.bad).toNat
     let w := widthOf bad
     let noted := a.each (maskBits 9 (r.bad &&& ~~~x.bad).toNat) fun u l => u.linkRepair p l
     let b := noted.setReg (Reg.pwPortPeer.ix p) r.pos
     let ok := r.setId.toNat = b.reg Reg.pwSetSetId ∧ r.checkOk = true
     let down := a.setReg (Reg.pwPortState.ix p) 4
     (may → w.1 = 4 → Runs (.portTraining t p r) s (b.showPort p 4 bad w.2)) ∧
     (may → w.1 ≠ 4 → ok → Runs (.portTraining t p r) s
       (((b.showPort p w.1 bad w.2).setPwPort p { noted.pwPort p with peerPc := r.pc }).portBack p r.pos)) ∧
     (may → w.1 ≠ 4 → ¬ok → Runs (.portTraining t p r) s ((b.showPort p 5 bad w.2).raise (mkReport fcPwSetMismatch 1 p))) ∧
     (¬may → Runs (.portTraining t p r) s a) ∧
     (a.linksUp = true → a.portUp p = true → Runs (.packetNak t p) s (a.bump (Reg.pwPortReplays.ix p))) ∧
     (a.linksUp = false ∨ a.portUp p = false → Runs (.packetNak t p) s a) ∧
     (a.portUp p = false → Runs (.portDown t p) s a) ∧
     (a.portUp p = true → down.reaches (a.reg (Reg.pwPortPeer.ix p)) = true → Runs (.portDown t p) s
       (down.raise (mkReport fcPwPortDown 1 p 0 true))) ∧
     (a.portUp p = true → down.reaches (a.reg (Reg.pwPortPeer.ix p)) = false → Runs (.portDown t p) s
       (down.losePeer (a.reg (Reg.pwPortPeer.ix p)))) ∧
     (let known := a.linksUp = true ∧ pos.val ≠ a.reg Reg.pwIdPos ∧ (a.reaches pos = true ∨ a.jobsWith pos ≠ [])
      (known → Runs (.peerLost t pos) s (a.losePeer pos)) ∧ (¬known → Runs (.peerLost t pos) s a))) ∧
  ((∀ bad : Nat, let n := (maskBits 9 bad).length
     (n = 0 → widthOf bad = (2, false)) ∧ (n = 1 → widthOf bad = (2, !bad.testBit 8)) ∧
     (1 < n → n ≤ 5 → widthOf bad = (3, false)) ∧ (5 < n → widthOf bad = (4, false))) ∧
   (∀ (t : Nat) (p : Fin 4) (lane : Fin 9) (s : State), let a := s.at_ t
     let new := a.linksUp = true ∧ a.portUp p = true ∧ (a.reg (Reg.pwPortBadLanes.ix p)).testBit lane = false
     let b := a.linkRepair p lane
     let entry : Repair := { kind := 5, place := p, index := lane, source := 5, applied := true }
     (a.flag Reg.fbLedgerFull = true → b = a) ∧
     (a.flag Reg.fbLedgerFull = false → b.flash.ledger = a.flash.ledger ++ [entry.bits a.tick.number] ∧
       (b.pwPort p).bad = (a.pwPort p).bad ||| 1#9 <<< lane.val) ∧
     let bad := b.reg (Reg.pwPortBadLanes.ix p) ||| 1 <<< lane.val
     let w := widthOf bad
     let c := b.showPort p w.1 bad w.2
     let d := if w.2 = true ∧ a.flag (Reg.pwPortSpareUsed.ix p) = false then c.note fcPwLane p else c
     (new → w.1 = 4 → Runs (.linkLaneFault t p lane) s ((b.setReg (Reg.pwPortBadLanes.ix p) bad).losePort p)) ∧
     (new → w.1 ≠ 4 → Runs (.linkLaneFault t p lane) s
       (if w.1 = 3 ∧ a.reg (Reg.pwPortState.ix p) = 2 then d.raise (mkReport fcPwLane 1 p) else d)) ∧
     (¬new → Runs (.linkLaneFault t p lane) s a)))

/-- A received packet of a job's kinds: one that names no job open here, whose sender is no member, or whose key epoch is not
the recorded one is discarded and counted in RETIRED (R548); one whose tag fails in TAG_FAIL with PW_AUTH at L2; one whose SEQ
was accepted or lies too far below the highest in SEQ_DROP (R579); any other is acted on as its kind.

What a request meets at the device that it reaches (R581, R582, R587): a page homed elsewhere is answered with REDIRECT to
its home; an unhomed one with NO_HOME, a failed one with UNCORRECTABLE; a page in MOVING or ZEROING holds the request; a read
of a scrub-pending page answers zeros; a resident page is read or written and answered with OK, a read of a bad unit with
UNCORRECTABLE.

JOB_OPEN: one for a job that is opening here opens its sender where tag and fields agree; one for a number used under the
current key epoch is retired; one that comes before this device has opened the job is kept for it (R576, and the model's
reading of early packets, assumption 2). JOB_OPEN_TIMEOUT: a job still opening after 10 ms is BROKEN, with a note (R577).
REDIRECT_BACKOFF: a request that waited after three redirects starts again from this device's own entry (R582). -/
def Obligations.PacketsServed : Prop :=
  (∀ (t : Nat) (port : Fin 4) (p : Packet) (tagOk : Bool) (s : State), let a := s.at_ t
     let on := a.linksUp = true ∧ a.portUp port = true
     let acts := fun (i : Instr) (type : Nat) (f : State → Nat → State) => i.wellFormed = true →
       (p.type ≠ type → Runs i s a) ∧
       (p.type = type →
         (¬on → Runs i s a) ∧
         (on → a.jobNamed p = none → Runs i s (a.retire port)) ∧
         (on → ∀ j, a.jobNamed p = some j → (a.pwJob j).peers.find? (fun q => q.pos == p.src) = none → Runs i s (a.retire port)) ∧
         (on → ∀ j q, a.jobNamed p = some j → (a.pwJob j).peers.find? (fun q => q.pos == p.src) = some q →
           let taken := a.setPwJob j { a.pwJob j with peers := (a.pwJob j).peers.map fun r =>
             if r.pos = p.src then { r with recv := seqKeep r.recv p.seq } else r }
           (q.ke ≠ p.ke → Runs i s (a.retire port)) ∧
           (q.ke = p.ke → tagOk = false → Runs i s ((a.bump Reg.pwErrTagFail).raise (mkReport fcPwAuth 1 port))) ∧
           (q.ke = p.ke → tagOk = true → seqOld q.recv p.seq = true → Runs i s (a.bump Reg.pwErrSeqDrop)) ∧
           (q.ke = p.ke → tagOk = true → seqOld q.recv p.seq = false → Runs i s (f taken j))))
     acts (.readReq t port p tagOk) 2 (fun b j => b.serve j p false) ∧ acts (.readRsp t port p tagOk) 3 (fun b _ => b.readAnswered p) ∧
     acts (.writeReq t port p tagOk) 4 (fun b j => b.serve j p true) ∧ acts (.writeAck t port p tagOk) 5 (fun b _ => b.writeAnswered p) ∧
     acts (.moveData t port p tagOk) 6 (fun b j => b.moveDataArrives j p) ∧
     acts (.moveCommit t port p tagOk) 7 (fun b j => b.moveCommitArrives j p) ∧
     acts (.moveDone t port p tagOk) 8 (fun b _ => b.moveDoneArrives p) ∧
     acts (.redirect t port p tagOk) 9 (fun b _ => b.redirected p) ∧
     acts (.jobClose t port p tagOk) 10 (fun b j => b.closeJob j false)) ∧
  (∀ (s : State) (j : Nat) (p : Packet) (write : Bool),
     let reply := if write then 5 else 3
     let view := s.pageView p.page.toNat
     (∀ pos, view = .remote pos → s.serve j p write = s.answer j p 9 0 [] pos) ∧
     (view = .unhomed → s.serve j p write = s.answer j p reply stNoHome []) ∧
     (view = .failed → s.serve j p write = s.answer j p reply stUncorrectable []) ∧
     (view = .held → s.serve j p write = s.holdReq { p with type := if write then 4 else 2 }) ∧
     (∀ h f, view = .scrub h f → s.serve j p false = s.answer j p 3 stOk (List.replicate (64 * p.len) 0)) ∧
     (∀ h f, view = .resident h f → let at_ := f * 65536 + 64 * p.unit.toNat
       s.serve j p true = (s.mediaPut h at_ p.payload).answer j p 5 stOk [] ∧
       (s.badIn h at_ (64 * p.len) = [] → s.serve j p false = s.answer j p 3 stOk (mread s.mem (spaceKey h at_) (64 * p.len))) ∧
       (s.badIn h at_ (64 * p.len) ≠ [] → s.serve j p false =
         (s.reportBad h (s.badIn h at_ (64 * p.len))).answer j p 3 stUncorrectable []))) ∧
  (∀ (t : Nat) (port : Fin 4) (p : Packet) (tagOk : Bool) (members : BitVec 4) (base : BitVec 22) (pages : BitVec 23)
     (j : Fin 16) (tag : BitVec 16) (s : State), let a := s.at_ t
     let i := Instr.jobOpen t port p tagOk members base pages
     let here := firstSat 16 fun j => a.jobState j != 0 && a.reg (Reg.pwJob0J.ix j) == p.job.toNat
     let waits := fun (q : RemoteReq) => q.rtag == tag && q.waiting
     (i.wellFormed = true → p.type = 1 → a.linksUp = true → a.portUp port = true →
       (tagOk = false → Runs i s ((a.bump Reg.pwErrTagFail).raise (mkReport fcPwAuth 1 port))) ∧
       (tagOk = true → ∀ k, here = some k → a.jobState k = 1 → Runs i s
         (a.openPeer k p members.toNat base.toNat pages.toNat)) ∧
       (tagOk = true → ∀ k, here = some k → a.jobState k ≠ 1 → Runs i s (a.bump Reg.pwErrSeqDrop)) ∧
       (tagOk = true → here = none → p.job ∈ a.pw.used → Runs i s (a.retire port)) ∧
       (tagOk = true → here = none → p.job ∉ a.pw.used → Runs i s
         { a with pw := { a.pw with early := a.pw.early ++ [(p, members, base, pages)] } })) ∧
     (i.wellFormed = true → p.type ≠ 1 ∨ a.linksUp = false ∨ a.portUp port = false → Runs i s a) ∧
     (a.jobState j = 1 → (a.pwJob j).openAt + 10000000 ≤ a.now → Runs (.jobOpenTimeout t j) s
       ((a.setReg (Reg.pwJob0State.ix j) 3).note fcPwConfig j)) ∧
     (a.jobState j ≠ 1 ∨ a.now < (a.pwJob j).openAt + 10000000 → Runs (.jobOpenTimeout t j) s a) ∧
     (a.pw.reqs.find? waits = none → Runs (.redirectBackoff t tag) s a) ∧
     (∀ q, a.pw.reqs.find? waits = some q → Runs (.redirectBackoff t tag) s
       ((a.mapReq tag fun q => { q with redirects := 0, waiting := false }).resend { q with redirects := 0 })))

/-- FAULT_REPORT: the report leaves the queue where it waited, the classifier takes it, and a new L4 record stops the device
(R593, R602); with the companion die unpowered, or for a main-die block while the main die is, nothing happens.
FAULT_CONDITION_END: records of that class, unit and detail become inactive (R594); a rail whose warning ends is back, and with
the last one the supply cap's hold of 1 ms begins (R452).

The classifier (R593, R595): a report of a fault that an uncleared record shows as ACTIVE only counts there; else its level
is at least one above that of its class's earliest unacknowledged record, it merges into an unacknowledged inactive record of
its class and that level, or it takes the lowest free slot of slots 0 to 62; with none free it is counted as lost. -/
def Obligations.FaultsClassified : Prop :=
  (∀ (t : Nat) (r : Report) (cls : Byte) (unit : BitVec 16) (detail : BitVec 64) (s : State), let a := s.at_ t
     let taken := a.pwr.aonGood = true ∧ (a.pwr.mainGood = true ∨ aonClass r.cls = true ∨ r ∈ a.fb.direct)
     let b := if r ∈ a.fb.direct then { a with fb := { a.fb with direct := takeReport a.fb.direct r } }
       else if r ∈ a.fb.collector then { a with fb := { a.fb with collector := takeReport a.fb.collector r } }
       else { a with tick := { a.tick with l2 := a.tick.l2 || decide (1 ≤ r.level.val) } }
     let stops := fun (s : State) => (s.fb.recs.filter fun e => e.2.level == 3).length
     let over_ := { a with fb := { a.fb with recs := a.fb.recs.map fun e =>
       if e.2.cls == cls.toNat && (e.2.unit == unit && e.2.detail == detail) then (e.1, { e.2 with active := false }) else e } }
     let left := a.pwr.supplyBad.filter (· != unit.toNat)
     let back := { over_ with pwr := { over_.pwr with supplyBad := left } }
     let last := unit.toNat ∈ a.pwr.supplyBad ∧ left = [] ∧ a.reg Reg.pwrCapsSupply = 3
     (¬taken → Runs (.faultReport t r) s a) ∧
     (taken → stops b < stops (b.classify r) → Runs (.faultReport t r) s (b.classify r).stopNow) ∧
     (taken → stops (b.classify r) ≤ stops b → Runs (.faultReport t r) s (b.classify r)) ∧
     (cls ≠ fcSupplyWarn → Runs (.faultConditionEnd t cls unit detail) s over_) ∧
     (cls = fcSupplyWarn → last → Runs (.faultConditionEnd t cls unit detail) s (back.setRise .supply (some (a.now + 1000000)))) ∧
     (cls = fcSupplyWarn → ¬last → Runs (.faultConditionEnd t cls unit detail) s back)) ∧
  (∀ (s : State) (r : Report),
     let now := s.tick.number
     let lvl := match earliest s.fb.recs r.cls.toNat with
       | none => r.level.val
       | some e => min 3 (max r.level.val (e.level + 1))
     let b := { s with tick := { s.tick with l2 := s.tick.l2 || decide (r.level.val = 0 ∧ 1 ≤ lvl) } }
     let fresh : FaultRec := { cls := r.cls.toNat, level := lvl, active := r.persistent, escalated := decide (r.level.val < lvl),
                               unit := r.unit, first := now, last := now, detail := r.detail, born := s.fb.nextBorn }
     let older := { b with fb := { b.fb with nextBorn := b.fb.nextBorn + 1 } }
     (∀ i x, sameFault s.fb.recs r = some (i, x) →
       s.classify r = s.setRec i { x with count := satInc x.count, last := now }) ∧
     (sameFault s.fb.recs r = none → ∀ i x, mergeSlot s.fb.recs r.cls.toNat lvl = some (i, x) →
       s.classify r = b.setRec i { x with count := satInc x.count, last := now, unit := r.unit, detail := r.detail,
                                          active := r.persistent, escalated := x.escalated || decide (r.level.val < lvl) }) ∧
     (sameFault s.fb.recs r = none → mergeSlot s.fb.recs r.cls.toNat lvl = none → ∀ i, freeSlot s.fb.recs = some i →
       i < 63 ∧ tfind s.fb.recs i = none ∧ s.classify r = (older.setRec i fresh).recordMade fresh) ∧
     (sameFault s.fb.recs r = none → mergeSlot s.fb.recs r.cls.toNat lvl = none → freeSlot s.fb.recs = none →
       ∀ o, tfind s.fb.recs 63 = some o →
         s.classify r = (older.bump Reg.fbStatusLost).setRec 63 { o with count := satInc o.count, last := now }))

/-- A record slot holds, in the fields of R592, CLASS, LEVEL, ACKED, ACTIVE, ESCALATED, zeros, UNIT, COUNT, FIRST_TICK,
LAST_TICK and DETAIL.

A repair-ledger entry holds, in the fields of R615, KIND, WHERE, BAY, INDEX, SOURCE, APPLIED, zeros, TICK and CHECK. At a
start one of KIND 1 to 3 takes effect: its APPLIED becomes 1, everything else below CHECK stays; another stays as it is (R616).

ROTATING_TEST_COMPLETE: the test under way is counted, FB_TEST.SINCE is 0, the next P-tile and Pantry bank are due, and a
lane row or tile that it condemns is treated as failed (R606 to R609); without a test nothing happens. BOND_LANE_FAULT of a
lane not yet known: with a spare left it waits for a background phase; the third of its sub-channel stays in service with
LOFT_LANE at L2, and one more withdraws the slice with LOFT_SLICE at L3 (R612 to R614). -/
def Obligations.FaultRecordsAndUnits : Prop :=
  (∀ r : FaultRec, let x := r.bits
     bitsAt x 0 8 = r.cls % 256 ∧ bitsAt x 8 2 = r.level % 4 ∧ bitsAt x 10 1 = b2n r.acked ∧ bitsAt x 11 1 = b2n r.active ∧
     bitsAt x 12 1 = b2n r.escalated ∧ bitsAt x 13 3 = 0 ∧ bitsAt x 16 16 = r.unit.toNat ∧ bitsAt x 32 32 = r.count.toNat ∧
     bitsAt x 64 64 = r.first.toNat ∧ bitsAt x 128 64 = r.last.toNat ∧ bitsAt x 192 64 = r.detail.toNat) ∧
  ((∀ (r : Repair) (tick : BitVec 64), r.kind < 16 → r.place < 32 → r.bay < 4 → r.index < 8192 → r.source < 8 →
     let x := (r.bits tick).toNat
     bitsAt x 0 4 = r.kind ∧ bitsAt x 4 5 = r.place ∧ bitsAt x 9 2 = r.bay ∧ bitsAt x 11 13 = r.index ∧ bitsAt x 24 3 = r.source ∧
     bitsAt x 27 1 = b2n r.applied ∧ bitsAt x 28 4 = 0 ∧ bitsAt x 32 64 = tick.toNat ∧
     bitsAt x 96 32 = ofBytes (shake256 (toBytes 12 x) 4)) ∧
   (∀ e : BitVec 128, let x := e.toNat
     let y := (ledgerApplied e).toNat
     (bitsAt x 0 4 ≤ 3 → bitsAt y 27 1 = 1 ∧ bitsAt y 0 27 = bitsAt x 0 27 ∧ bitsAt y 28 68 = bitsAt x 28 68 ∧
       bitsAt y 96 32 = ofBytes (shake256 (toBytes 12 y) 4)) ∧
     (3 < bitsAt x 0 4 → ledgerApplied e = e))) ∧
  (∀ (t : Nat) (v : Verdict) (sl : Fin 18) (sub : Fin 8) (lane : Fin 146) (s : State), let a := s.at_ t
     let e := (sl.val, 146 * sub.val + lane.val)
     let known := a.mainUp = false ∨ e ∈ a.flash.bondBad ∨ e ∈ a.fb.bondBad
     let had := a.badLanes sl sub
     let entry : Repair := { kind := 4, place := sl, index := 144 * sub + lane, source := 4 }
     let b := a.ledger entry fun (f : FlashSt) => { f with bondBad := f.bondBad ++ [e] }
     let c := b.setReg (Reg.fbLoftUnrepaired.ix sl) (b.reg (Reg.fbLoftUnrepaired.ix sl) ||| 1 <<< sub.val)
     (a.fb.test = none → Runs (.rotatingTestComplete t v) s a) ∧
     (∀ x, a.fb.test = some x →
       let b := { a with fb := { a.fb with test := none, bank := (a.fb.bank + 1) % 48 } }
       let c := (b.bump Reg.fbTestDone).setReg Reg.fbTestSince 0
       let d := match v with
         | .pass => c
         | .laneRow bay r => c.laneRowFailed x.ptile bay r 2
         | .tile => c.tileFailed x.ptile 0 2
       Runs (.rotatingTestComplete t v) s (d.setReg Reg.fbTestNext ((d.testFrom ((x.ptile + 1) % 18)).getD 0))) ∧
     (known → Runs (.bondLaneFault t sl sub lane) s a) ∧
     (¬known → had < 2 → Runs (.bondLaneFault t sl sub lane) s { a with fb := { a.fb with bondBad := a.fb.bondBad ++ [e] } }) ∧
     (¬known → had = 2 → Runs (.bondLaneFault t sl sub lane) s
       (c.raise (mkReport fcLoftLane 1 (bondUnit sl sub lane) 0 true))) ∧
     (¬known → 2 < had → Runs (.bondLaneFault t sl sub lane) s
       ((c.setFlag (Reg.fbLoftWithdrawn.ix sl) true).raise (mkReport fcLoftSlice 2 (bondUnit sl sub lane) 0 true))))

/-! ### Set-up registers (00_scope.md R13, R14; 22_register_index.md) -/

/-- A host write of a register that stores every value: an RW field, and an RWL field while the set-up lock is clear, takes the
written bits; a W1C field loses the bits written 1; an RO or a WO field, and an RWL field while the lock is set, keeps its
value; no other register but RST_LOCK changes, and RST_LOCK's other fields stay (R13, R14).

A register write that the set-up lock keeps from changing one or more RWL fields counts once in RST_LOCK.IGNORED, which
saturates; a write whose value for every RWL field equals the value held does not count (R653). -/
def Obligations.RegisterFields : Prop :=
  (∀ (s : State) (off v : Nat) (f : Field), f ∈ Reg.fieldsAt off → f.off = off → f.lo + f.width ≤ 32 →
     (∀ g ∈ Reg.fieldsAt off, g = f ∨ g.lo + g.width ≤ f.lo ∨ f.lo + f.width ≤ g.lo) →
     (∀ n, normalise off n = n) → off ≠ 0x3018 →
     let x := (s.putWritten off v).reg f
     let old := s.reg f
     let new := bitsAt v f.lo f.width
     let lock := s.flag Reg.rstLockLocked
     (f.acc = .rw → x = new) ∧ (f.acc = .rwl → lock = false → x = new) ∧ (f.acc = .rwl → lock = true → x = old) ∧
     (f.acc = .ro → x = old) ∧ (f.acc = .wo → x = old) ∧
     (f.acc = .w1c → ∀ i < f.width, x.testBit i = (old.testBit i && !new.testBit i)) ∧
     (∀ o, o ≠ off → o ≠ 0x3018 → (s.putWritten off v).word o = s.word o) ∧
     (s.putWritten off v).flag Reg.rstLockLocked = lock) ∧
  (∀ (s : State) (off v : Nat), off ≠ 0x3018 →
     let old := (s.word off).toNat
     let differs := ∃ f ∈ Reg.fieldsAt off, f.acc = .rwl ∧
       bitsAt old f.lo f.width ≠ bitsAt (writtenWord off old v) f.lo f.width
     let n := s.reg Reg.rstLockIgnored
     ((s.flag Reg.rstLockLocked = true ∧ differs) →
       (s.putWritten off v).reg Reg.rstLockIgnored = min (n + 1) 0xFFFF) ∧
     (¬(s.flag Reg.rstLockLocked = true ∧ differs) → (s.putWritten off v).reg Reg.rstLockIgnored = n))

/-- The register-write commands. While the aperture is open each writes its register's fields and then does what the register
says; while it is closed, and for a register that this device does not have, nothing (R100, R104, R650). The counts of FD,
LOFT, PAN, VE, VIS and GAL clear (R112, R228, R304, R379, R410); a DEED_QUERY returns the entry of its page (R305); RST_REQ acts on
KEY 0x5A only (R502), the set-up lock on KEY 0x4C (R653), FB_ACK on KEY 0xA5 (R598); bits 20 and 21 of a job register open
and close its job (R577); a write of any other register does what `State.regWrote` gives for it.

What a write of the clearing bits leaves: every count that the register table names reads 0, and no other register changes
(R112, R228, R304, R379, R410, R651).

Ring set-up. Enabling a submission ring empties it, its error records that still wait kept (R134), and enabling a completion ring empties it too, its reservations kept;
where the base is misaligned or the ring lies outside the ring area the ENABLE reads 0 again and an RG_CONFIG note is raised
(R116, R117); a size that is written while the ring is enabled does not take and is noted (R117); a completion ring that is
disabled stops notifying (R148); a status row at an excluded offset is refused with a note (R146).

MUTE_WRITE writes POR_CTRL as it reads with MUTE as commanded; a change of MUTE stands at once and enters the event log, and
muting ends every partial that is held with the cause MUTED (R423). KEY_CTRL.ENABLE is refused at 8 and
24 kHz (R418). -/
def Obligations.RegisterWrites : Prop :=
  (∀ (t : Nat) (v : Word) (s : State), let a := s.at_ t
     let reg := fun (i : Instr) (off : Nat) (f : State → State) =>
       (a.regOpen = false → Runs i s a) ∧ (a.regAbsent off = true ∨ Reg.fieldsAt off = [] → Runs i s a) ∧
       (a.regOpen = true → a.regAbsent off = false → Reg.fieldsAt off ≠ [] → Runs i s (f (a.putWritten off v.toNat)))
     let key := bitsAt v.toNat 8 8
     let old := fun (off : Nat) => (a.word off).toNat
     let request := fun (b : State) =>
       if key = 0x5A then
         match bitsAt v.toNat 0 4 with
         | 1 => b.orderMdr 7
         | 2 => if b.present (bitsAt v.toNat 4 4) then b.tlr (bitsAt v.toNat 4 4) 7 else b.noteAon fcRstReq
         | 3 => b.str 7
         | 4 => b.pcr 7
         | 5 => b.revert.getD (b.noteAon fcRstReq)
         | _ => b
       else b.noteAon fcRstReq
     let ack := fun (b : State) =>
       if key = 0xA5 then
         if bitAt v.toNat 6 then b.ackAll
         else match tfind b.fb.recs (bitsAt v.toNat 0 6) with
           | some r => b.setRec (bitsAt v.toNat 0 6) { r with acked := true }
           | none => b
       else b
     let job := fun (j : Nat) (b : State) =>
       let b := if bitAt v.toNat 20 then b.openJob j else b
       if bitAt v.toNat 21 then b.closeJob j true else b
     reg (.fdClrCnt t v) 0x5000 (fun b => if bitAt v.toNat 8 then b.fdClear else b) ∧
     reg (.loftClrCnt t v) 0xD04C (fun b => if bitAt v.toNat 0 then b.loftClear else b) ∧
     reg (.panClrCnt t v) 0xF040 (fun b => if bitAt v.toNat 0 then b.panClear else b) ∧
     reg (.clrNan t v) 0xC040 (fun b => if bitAt v.toNat 0 then b.zeroRegs Reg.veNanCntCount.all else b) ∧
     reg (.visClrCnt t v) 0x14004 (fun b => if bitAt v.toNat 0 then b.zeroRegs [Reg.visBoxErrCount, Reg.visBoxErrSteps] else b) ∧
     reg (.galClrCnt t v) 0x16084 (fun b => if bitAt v.toNat 0 then b.galClear else b) ∧
     reg (.deedQuery t v) 0x10010 (fun b =>
       let e := b.deedOf (bitsAt v.toNat 0 22)
       (b.setReg Reg.deedResultLoEntryLo e).setReg Reg.deedResultHiEntryHi (e / 2 ^ 32)) ∧
     (∀ hi, reg (.mmuRootWrite t hi v) (if hi then 0x11004 else 0x11000) id) ∧
     reg (.attnStatusClear t v) 0x6020 id ∧
     reg (.rstReqMdr t v) 0x3004 request ∧ reg (.rstReqTlr t v) 0x3004 request ∧ reg (.rstReqStr t v) 0x3004 request ∧
     reg (.rstReqPcr t v) 0x3004 request ∧ reg (.rstReqRevert t v) 0x3004 request ∧
     reg (.setupLockSet t v) 0x3018 (fun b =>
       if bitAt v.toNat 1 = true ∧ key = 0x4C then b.setReg Reg.rstLockLocked 1 else b) ∧
     reg (.fbAckSlot t v) 0x2008 ack ∧ reg (.fbAckAll t v) 0x2008 ack ∧
     (∀ j : Fin 16, reg (.jobOpenWrite t j v) (0x15100 + 16 * j.val) (job j) ∧
       reg (.jobCloseWrite t j v) (0x15100 + 16 * j.val) (job j)) ∧
     (∀ n : Fin 64, reg (.rgSqCfgWrite t n v) (0x6104 + 8 * n.val) (fun b => b.sqWritten n (old (0x6104 + 8 * n.val))) ∧
       reg (.rgCqCfgWrite t n v) (0x6304 + 8 * n.val) (fun b => b.cqWritten n (old (0x6304 + 8 * n.val)))) ∧
     reg (.rgStatusRowWrite t v) 0x6004 State.rowWritten ∧
     (∀ w, reg (.galStreamWrite t w v) (0x16000 + 4 * w.val) fun b =>
       b.galWritten (0x16000 + 4 * w.val) (old (0x16000 + 4 * w.val)) v.toNat) ∧
     (∀ w, reg (.porCtrlWrite t w v) (0x18000 + 4 * w.val) fun b =>
       b.porWritten (0x18000 + 4 * w.val) (old (0x18000 + 4 * w.val))) ∧
     (∀ w, reg (.keyCtrlWrite t w v) (0x19000 + 4 * w.val) fun b =>
       if w.val = 0 then b.keyRateCheck (b.reg Reg.porCtrlRate) else b) ∧
     (∀ w, reg (.registerWrite t w v) (4 * w.val) fun b => b.regWrote (4 * w.val) (old (4 * w.val)) v.toNat)) ∧
  (∀ s : State,
     let clears := fun (b : State) (l : List Field) =>
       (∀ f ∈ l, b.reg f = 0) ∧ (∀ o, (∀ f ∈ l, f.off ≠ o) → b.word o = s.word o)
     clears s.fdClear (Reg.fdLinkErrCorr.all ++ Reg.fdLinkErrUncorr.all ++ [Reg.fdViolCount, Reg.fdViolChMask]) ∧
     clears s.loftClear (Reg.loftSliceCorr.all ++ [Reg.loftUncorrCount]) ∧
     clears s.panClear (Reg.celErrCorr.all ++ Reg.celErrUncorr.all ++ Reg.panErrCorr.all ++ Reg.panErrUncorr.all) ∧
     clears s.galClear (Reg.galPortStatusHdrErrCsi.all ++ Reg.galPortStatusCrcErrCsi.all ++
       [Reg.galStatusOverflow, Reg.galStatusWriteErr] ++ Reg.galFrameFrame.all) ∧
     (∀ p < 12, (s.galClear.galPort p).unsupported = 0)) ∧
  (∀ (s : State) (n : Fin 64) (old : Nat),
     let sq := s.baseWritten n old (bitAt old 5) (Reg.rgSqCfgLog2Entries.ix n)
     let cq := s.baseWritten n old (bitAt old 7) (Reg.rgCqCfgLog2Entries.ix n)
     let sqFits := ringFits (s.reg (Reg.rgSqBaseBase.ix n) * 2 ^ 11) (s.sqSlots n * 64) = true
     let cqFits := ringFits (s.reg (Reg.rgCqBaseBase.ix n) * 2 ^ 11) (s.cqSlots n * 32) = true
     let refused := fun (f : Field) => (s.setFlag f false).note fcRgConfig n
     (bitAt old 5 = false → s.sqOn n = false → s.sqWritten n old = s) ∧
     (bitAt old 5 = false → s.sqOn n = true → sqFits → s.sqWritten n old = (s.keepErrors n).setSq n {}) ∧
     (bitAt old 5 = false → s.sqOn n = true → sqFits → (s.sqWritten n old).sqSt n = {}) ∧
     (bitAt old 5 = false → s.sqOn n = true → ¬sqFits → s.sqWritten n old = refused (Reg.rgSqCfgEnable.ix n)) ∧
     (bitAt old 5 = true → s.sqWritten n old = sq) ∧
     (bitAt old 7 = false → s.cqOn n = true → cqFits →
       s.cqWritten n old = s.setCq n { reserved := (s.cqSt n).reserved }) ∧
     (bitAt old 7 = false → s.cqOn n = true → ¬cqFits → s.cqWritten n old = refused (Reg.rgCqCfgEnable.ix n)) ∧
     (bitAt old 7 = true → s.cqOn n = true → s.cqWritten n old = cq) ∧
     (bitAt old 7 = true → s.cqOn n = false → s.cqWritten n old = cq.setCq n (cq.cqSt n).hush) ∧
     (∀ f : Field, f.lo + f.width ≤ 32 → s.reg f ≠ bitsAt old f.lo f.width →
       s.baseWritten n old true f = (s.setReg f (bitsAt old f.lo f.width)).note fcRgConfig n) ∧
     (∀ f : Field, s.reg f = bitsAt old f.lo f.width → s.baseWritten n old true f = s) ∧
     (s.flag Reg.rgStatusRowValid = true → winExcluded (s.reg Reg.rgStatusRowRowOff * 2 ^ 11) = true →
       s.rowWritten = (s.setFlag Reg.rgStatusRowValid false).note fcRgConfig)) ∧
  (∀ (t : Nat) (m : Bool) (s : State), let a := s.at_ t
     let now := a.regValue 0x18000
     let v := BitVec.ofNat 32 (putBits now 1 1 (b2n m))
     (a.regOpen = true → Runs (.muteWrite t m) s ((a.putWritten 0x18000 v.toNat).porWritten 0x18000 (a.word 0x18000).toNat)) ∧
     (a.regOpen = false → Runs (.muteWrite t m) s a) ∧
     (s.flag Reg.porCtrlMute ≠ m →
       s.muteTo m = if m then ((s.setFlag Reg.porCtrlMute m).porEvent 3).cutPartials 2
         else (s.setFlag Reg.porCtrlMute m).porEvent 3) ∧
     (s.flag Reg.porCtrlMute = m → s.muteTo m = s) ∧
     (∀ r, r = 0 ∨ r = 2 → s.flag Reg.keyCtrlEnable = true →
       s.keyRateCheck r = (s.setFlag Reg.keyCtrlEnable false).noteAon fcPorConfig) ∧
     (∀ r, s.flag Reg.keyCtrlEnable = false ∨ (r ≠ 0 ∧ r ≠ 2) → s.keyRateCheck r = s))

/-! ### The Study and the reset (16_study.md, 17_security.md) -/

/-- What each management message comes to before its type matters: it does not arrive, or its TYPE is unknown (answered TYPE),
its session, tag or counter is refused (AUTH, in a reply without a tag), its header is malformed (ARG), or the mode does not
accept the type (MODE); IDENTITY to SENSOR_READ need no session, the others do, PROVISION_OWNER once a slot is used (R523 to
R526, R528; the bodies' layouts are the model's choice, assumption 8).

How a request's session is checked: an open message needs none; a session that is not held, a wrong tag and a counter not
above the last accepted one are refused, a wrong tag counting as a failure on its transport; else the counter and the time are
kept in the session. The eighth failure within 60 s on a transport makes it refuse AUTH for 60 s, with a note and a logbook
entry (R526).

A reply echoes TYPE, COUNTER and, within a session, SESSION, with the reply flag and the result code, and its tag there is
the session key's over header and body; an open reply has no tag (R523, R526). -/
def Obligations.MessagesAdmitted : Prop :=
  (∀ (t : Nat) (src : MsgSrc) (flashOk : Bool) (what : Staged) (s : State), let a := s.at_ t
     let gate := fun (i : Instr) (type : Nat) (open_ : Bool) => i.wellFormed = true →
       (∀ b, a.arrivedMsg src = (b, none) → Runs i s b) ∧
       (∀ b bs, a.arrivedMsg src = (b, some bs) → let m := readMsg bs
         (m.type ∉ messageTypes → Runs i s (b.reply src m none 1 [])) ∧
         (m.type = type → ∀ c, b.admitMsg m open_ (fromPort src) = (c, .refused) → Runs i s (c.reply src m none 2 [])) ∧
         (m.type = type → ∀ c k, b.admitMsg m open_ (fromPort src) = (c, .accepted k) →
           (m.ok = false → Runs i s (c.reply src m k 5 [])) ∧
           (m.ok = true → c.modeAccepts type = false → Runs i s (c.reply src m k 3 []))))
     gate (.identity t src) 0x01 true ∧ gate (.status t src) 0x02 true ∧ gate (.challenge t src) 0x03 true ∧
     gate (.auth t src) 0x04 true ∧ gate (.heartbeat t src) 0x05 true ∧ gate (.quote t src) 0x06 true ∧
     gate (.sensorRead t src) 0x10 true ∧ gate (.logRead t src) 0x11 false ∧ gate (.updateBegin t src) 0x20 false ∧
     gate (.updateData t src flashOk) 0x21 false ∧ gate (.updateVerify t src what) 0x22 false ∧
     gate (.updateCommit t src flashOk) 0x23 false ∧ gate (.updateActivate t src) 0x24 false ∧
     gate (.updateAbort t src) 0x25 false ∧ gate (.settingsRevert t src) 0x30 false ∧ gate (.reset t src) 0x40 false ∧
     gate (.sleepS3 t src) 0x41 false ∧ gate (.wake t src) 0x42 false ∧
     gate (.provisionOwner t src) 0x50 a.fuses.slots.isEmpty) ∧
  (∀ (s : State) (m : Msg) (open_ port : Bool),
     let held := fun (x : Session) => s.sty.sessions.find? (fun y => y.num == m.session) = some x
     let tagged := fun (x : Session) => m.tag = kmac256 x.key m.signed "SH16 MSG"
     let recent := s.sty.fails.filter fun f => decide (s.now < f.1 + 60000000000)
     let fails := recent ++ [(s.now, port)]
     let failed := s.authFails port
     (m.session = 0 → open_ = true → s.admitMsg m open_ port = (s, .accepted none)) ∧
     (m.session = 0 → open_ = false → s.admitMsg m open_ port = (s, .refused)) ∧
     (m.session ≠ 0 → (∀ x ∈ s.sty.sessions, x.num ≠ m.session) → s.admitMsg m open_ port = (s, .refused)) ∧
     (∀ x, m.session ≠ 0 → held x → ¬tagged x → s.admitMsg m open_ port = (failed, .refused)) ∧
     (∀ x, m.session ≠ 0 → held x → tagged x → m.counter ≤ x.counter → s.admitMsg m open_ port = (s, .refused)) ∧
     (∀ x, m.session ≠ 0 → held x → tagged x → x.counter < m.counter →
       let y := { x with counter := m.counter, last := s.now }
       s.admitMsg m open_ port =
         ({ s with sty := { s.sty with sessions := s.sty.sessions.map fun z => if z.num = x.num then y else z } },
          .accepted (some y))) ∧
     ((fails.filter fun f => f.2 == port).length < 8 → failed = { s with sty := { s.sty with fails := fails } }) ∧
     (8 ≤ (fails.filter fun f => f.2 == port).length → failed =
       ((({ s with sty := { s.sty with
             fails := fails.filter fun f => f.2 != port
             lockout := s.sty.lockout ++ [(s.now + 60000000000, port)] } }).noteAon fcMgmtAuth).log 10 (b2n port)))) ∧
  (∀ (m : Msg) (result : Nat) (body : List Byte) (x : Session),
     let head := fun (session : Nat) =>
       toBytes 2 m.type ++ [1, BitVec.ofNat 8 result] ++ toBytes 4 session ++ toBytes 8 m.counter
     sealed m none result body = head 0 ++ body ∧
     sealed m (some x) result body =
       head x.num ++ body ++ kmac256 x.key (head x.num ++ body) "SH16 MSG")

/-- The messages that read. IDENTITY returns the identity page, registers 0x000 to 0x07C; STATUS returns STY_MODE to
STY_UPDATE, RST_CAUSE and RST_GEN; CHALLENGE returns a nonce of 32 free bytes, which it keeps, those of more than 10 s ago
gone; HEARTBEAT counts itself and returns STATE and CHECK; QUOTE uses the next index of the attestation key and returns the
signed quote, or answers FLASH where that index's block is not reserved and cannot be (R560); SENSOR_READ returns STY_TEMP and STY_RAIL; LOG_READ returns up to 16 entries from the given SEQ on (R508, R525,
R528, R536, R563). A body of another length is answered ARG (assumption 8).

Layout of the heartbeat's STATE (R536): SCANS, TICK, HOT_MAX, CAPS, MODE, a zero, LOG_SEQ, HB_SEQ, zeros. -/
def Obligations.MessagesRead : Prop :=
  (∀ (t : Nat) (src : MsgSrc) (s c : State) (m : Msg) (k : Option Session), let a := s.at_ t
     let takes := fun (type : Nat) (open_ : Bool) => a.takesMsg src type open_ m k c
     let ok := fun (i : Instr) (b : State) (body : List Byte) =>
       i.wellFormed = true → Runs i s (b.reply src m k 0 body)
     let arg := fun (i : Instr) => i.wellFormed = true → Runs i s (c.reply src m k 5 [])
     let nonce := (List.range 4).flatMap fun i => toBytes 8 (Config.freeWord (c.free + i)).toNat
     let live := c.sty.nonces.filter fun x => decide (c.now ≤ x.2 + 10000000000)
     let beat := { c with sty := { c.sty with hbSeq := c.sty.hbSeq + 1, hbLast := c.now } }
     let usable := c.attIndex / 1024 ≤ c.sec.attHigh ∨ c.flash.recordOk = true
     (takes 0x01 true → m.body = [] → ok (.identity t src) c (c.regBytes 0 32)) ∧
     (takes 0x01 true → m.body ≠ [] → arg (.identity t src)) ∧
     (takes 0x02 true → m.body = [] →
       ok (.status t src) c (c.regBytes 0x10 8 ++ c.regBytes 0x3000 1 ++ c.regBytes 0x300C 1)) ∧
     (takes 0x02 true → m.body ≠ [] → arg (.status t src)) ∧
     (takes 0x03 true → m.body = [] → ok (.challenge t src)
       { c with free := c.free + 4, sty := { c.sty with nonces := live ++ [(nonce, c.now)] } } nonce) ∧
     (takes 0x03 true → m.body ≠ [] → arg (.challenge t src)) ∧
     (takes 0x05 true → m.body.length = 32 →
       ok (.heartbeat t src) beat (beat.heartState ++ shake256 (m.body ++ beat.heartState) 32)) ∧
     (takes 0x05 true → m.body.length ≠ 32 → arg (.heartbeat t src)) ∧
     (takes 0x06 true → m.body.length = 32 → usable → ok (.quote t src) c.useAttIndex (c.quoteReply m.body)) ∧
     (takes 0x06 true → m.body.length = 32 → ¬usable → (Instr.quote t src).wellFormed = true →
       Runs (.quote t src) s (c.reply src m k 9 [])) ∧
     (takes 0x06 true → m.body.length ≠ 32 → arg (.quote t src)) ∧
     (takes 0x10 true → m.body = [] → ok (.sensorRead t src) c (c.regBytes 0x100 64 ++ c.regBytes 0x200 11)) ∧
     (takes 0x10 true → m.body ≠ [] → arg (.sensorRead t src)) ∧
     (takes 0x11 false → m.body.length = 4 → ok (.logRead t src) c
       ((((c.flash.log ++ c.sty.tail).filter fun e => decide (ofBytes m.body ≤ entrySeq e)).take 16).flatMap fun e =>
         toBytes 64 e.toNat)) ∧
     (takes 0x11 false → m.body.length ≠ 4 → arg (.logRead t src))) ∧
  (∀ s : State, s.sty.scans < 2 ^ 32 → s.sty.logSeq < 2 ^ 32 → s.sty.hbSeq < 2 ^ 32 →
     let b := s.heartState
     let at_ := fun (i n : Nat) => ofBytes ((b.drop i).take n)
     b.length = 32 ∧ at_ 0 4 = s.sty.scans ∧ at_ 4 4 = s.tick.number.toNat % 2 ^ 32 ∧
     at_ 8 1 = s.reg Reg.pwrThermHotMax % 256 ∧ at_ 9 1 = (s.level + 16 * s.capsLimiting) % 256 ∧
     at_ 10 1 = s.regValue 0x10 % 256 ∧ at_ 11 1 = 0 ∧ at_ 12 4 = s.sty.logSeq ∧ at_ 16 4 = s.sty.hbSeq ∧ at_ 20 12 = 0)

/-- AUTH opens a session when its proof holds for a nonce still valid, which it uses up: the session idle longest closes for a
fifth, the key is the owner key's over nonce, client identity and the new number, and the reply carries that number; a proof
that does not hold, and a device without an owner, answer AUTH and count a failure; while the transport is locked out AUTH
answers AUTH (R524 to R526; the reply's body is the number, assumption 8).

PROVISION_OWNER, by the mailbox only: the secret goes into the next of four slots, the digest of the owner firmware key is
shown, and every session closes; by the port it answers MODE, with another body ARG, without a free slot FUSES (R524).
SESSION_TIMEOUT closes the sessions without a message for 600 s; AUTH_LOCKOUT_END ends the refusals whose 60 s have passed
(R526).

GPTP_SYNC_MESSAGE shows the offset, saturated, and counts messages within 1 µs in a row: the eighth reports
synchronisation, and an offset beyond 2 µs withdraws it; GPTP_SYNC_TIMEOUT withdraws it and begins the count anew (R531).
HOST_SILENT notes that three heartbeat periods have passed without one (R538). LOGBOOK_FLUSH moves the tail to flash, a full
log first losing its oldest 1,024 entries (R540). -/
def Obligations.SessionsAndTimes : Prop :=
  (∀ (t : Nat) (src : MsgSrc) (s c : State) (m : Msg) (k : Option Session), let a := s.at_ t
     let i : Instr := .auth t src
     let live := c.sty.nonces.filter fun x => decide (c.now ≤ x.2 + 10000000000)
     let proves := fun (key : List Byte) (x : List Byte × Nat) =>
       kmac256 key (x.1 ++ m.body.take 8) "SH16 AUTH" == m.body.drop 8
     let failed := (c.authFails (fromPort src)).reply src m k 2 []
     i.wellFormed = true → a.takesMsg src 0x04 true m k c →
     (m.body.length ≠ 40 → Runs i s (c.reply src m k 5 [])) ∧
     (m.body.length = 40 → c.authRefused (fromPort src) = true → Runs i s (c.reply src m k 2 [])) ∧
     (m.body.length = 40 → c.authRefused (fromPort src) = false → c.fuses.slots = [] → Runs i s failed) ∧
     (∀ o, m.body.length = 40 → c.authRefused (fromPort src) = false → c.fuses.slots.getLast? = some o →
       let key := toBytes 32 o.toNat
       ((∀ x ∈ live, proves key x = false) → Runs i s failed) ∧
       (∀ x, live.find? (proves key) = some x →
         let d := ({ c with sty := { c.sty with nonces := live.filter fun y => y != x } }).roomForSession
         let e := { d with free := d.free + 1 }
         let num := e.newSession d.free
         let y : Session :=
           { num := num, key := kmac256 key (x.1 ++ m.body.take 8 ++ toBytes 4 num) "SH16 SESSION", last := e.now }
         Runs i s ((({ e with sty := { e.sty with sessions := e.sty.sessions ++ [y] } }).log 10 2).reply src m k 0
           (toBytes 4 num))))) ∧
  (∀ (t : Nat) (src : MsgSrc) (s c : State) (m : Msg) (k : Option Session), let a := s.at_ t
     let i : Instr := .provisionOwner t src
     let owned := { c with fuses := { c.fuses with
       slots := c.fuses.slots ++ [BitVec.ofNat 256 (ofBytes (m.body.take 32))] } }
     let shown := owned.each (List.range 8) fun s w =>
       s.setReg (Reg.secOkeyDigest.ix w) (ofBytes (((m.body.drop 32).drop (4 * w)).take 4))
     (i.wellFormed = true → a.takesMsg src 0x50 a.fuses.slots.isEmpty m k c →
       (fromPort src = true → Runs i s (c.reply src m k 3 [])) ∧
       (fromPort src = false → m.body.length ≠ 64 → Runs i s (c.reply src m k 5 [])) ∧
       (fromPort src = false → m.body.length = 64 → 4 ≤ c.fuses.slots.length → Runs i s (c.reply src m k 10 [])) ∧
       (fromPort src = false → m.body.length = 64 → c.fuses.slots.length < 4 →
         Runs i s ((shown.each (shown.sty.sessions.map fun x => x.num) State.closeSession).reply src m k 0 []))) ∧
     Runs (.sessionTimeout t) s
       (a.each (a.sty.sessions.filter fun x => decide (x.last + 600000000000 ≤ a.now)) fun s x => s.closeSession x.num) ∧
     Runs (.authLockoutEnd t) s
       { a with sty := { a.sty with lockout := a.sty.lockout.filter fun l => decide (a.now < l.1) } } ∧
     (∀ (n : Nat) (u : State), a.closeSession n = u →
       (∀ x ∈ u.sty.sessions, x.num ≠ n) ∧ ((∀ y, a.sty.update = some y → y.session ≠ n) → u.sty.update = a.sty.update) ∧
       (∀ y, a.sty.update = some y → y.session = n → u.sty.update = none))) ∧
  (∀ (t : Nat) (o : Int) (vt : BitVec 64) (s : State), let a := s.at_ t
     let on_ := a.sty.up = true ∧ a.flag Reg.styNetGptpEn = true
     let b := a.setReg Reg.stySyncOffsetNs (signedSat 16 o)
     let good := if -1000 ≤ o ∧ o ≤ 1000 then b.sty.gptpGood + 1 else 0
     let c := { b with sty := { b.sty with gptpGood := good } }
     let far := o < -2000 ∨ 2000 < o
     let p := a.reg Reg.styHbPeriodMs
     let silent := a.sty.up = true ∧ p ≠ 0 ∧ a.sty.hbLast + 3 * p * 1000000 ≤ a.now
     let d := { a with sty := { a.sty with hbLast := a.now } }
     let flushes := a.sty.up = true ∧ ¬(a.safeFloor = true ∧ a.reg Reg.styModeSfReason = 1) ∧ a.sty.tail ≠ []
     let old := if 490496 < a.flash.log.length + a.sty.tail.length then a.flash.log.drop 1024 else a.flash.log
     (on_ → c.tick.vtSync = true → far → Runs (.gptpSyncMessage t o vt) s c.unsynced) ∧
     (on_ → c.tick.vtSync = true → ¬far → Runs (.gptpSyncMessage t o vt) s c) ∧
     (on_ → c.tick.vtSync = false → 8 ≤ good → Runs (.gptpSyncMessage t o vt) s (c.synced vt.toNat)) ∧
     (on_ → c.tick.vtSync = false → good < 8 → Runs (.gptpSyncMessage t o vt) s c) ∧
     (on_ → Runs (.gptpSyncTimeout t) s ({ a with sty := { a.sty with gptpGood := 0 } }).unsynced) ∧
     (¬on_ → Runs (.gptpSyncMessage t o vt) s a ∧ Runs (.gptpSyncTimeout t) s a) ∧
     (silent → Runs (.hostSilent t) s (((d.noteAon fcHostSilent).log 9 0).bump Reg.styHbMissed)) ∧
     (¬silent → Runs (.hostSilent t) s a) ∧
     (flushes → Runs (.logbookFlush t) s
       { a with flash := { a.flash with log := old ++ a.sty.tail }, sty := { a.sty with tail := [] } }) ∧
     (¬flushes → Runs (.logbookFlush t) s a))

/-- The update path (R532 to R535). UPDATE_BEGIN starts staging, its slot emptied; another update under way answers BUSY, a
settings update during a trial MODE, a kind, length or body out of range ARG. UPDATE_DATA writes its bytes at any offset
within the length; UPDATE_VERIFY enters verified, or answers why not and stays in staging; UPDATE_COMMIT makes an image's slot
the active one and raises the anti-rollback counter to the image's FLOOR, unless a running image would fall below it
(ROLLBACK), stages a settings generation, or has the Keyhole's image loaded; UPDATE_ABORT empties the slot. Without an update
of its session or in another phase each answers BUSY or MODE.

UPDATE_ACTIVATE, from committed only: of an image, the set is judged as at a start and, the reply out, what changed
restarts; of a settings generation STAGED above the current one, it enters TRIAL with its own counts of starts and ticks and,
the reply out, an MDR with a PCR is ordered; otherwise MODE. SETTINGS_REVERT rejects the current generation for the other
SETTLED one, RESET orders an STR, MDR or PCR as its body names, SLEEP_S3 takes S2 to S3, and WAKE, by the port only, is wake
source 4; each acts once its reply is out (R497, R500, R528, R535, R475, R477). -/
def Obligations.UpdatesAndOrders : Prop :=
  (∀ (t : Nat) (src : MsgSrc) (flashOk : Bool) (what : Staged) (s c : State) (m : Msg) (k : Option Session), let a := s.at_ t
     let takes := fun (type : Nat) => a.takesMsg src type false m k c
     let answers := fun (i : Instr) (b : State) (result : Nat) => i.wellFormed = true → Runs i s (b.reply src m k result [])
     let kind := ofBytes (m.body.take 1)
     let len := ofBytes ((m.body.drop 1).take 4)
     let off := ofBytes (m.body.take 4)
     let bs := m.body.drop 4
     let fits := m.body.length = 37 ∧ 1 ≤ kind ∧ kind ≤ 5 ∧ len ≠ 0 ∧ len ≤ updateLimit kind
     let refusedMode := (c.safeFloor = true ∧ c.reg Reg.styModeSfReason = 1 ∧ kind ≠ 1) ∨ (kind = 4 ∧ c.inTrial = true)
     let new : Update := { kind := kind, length := len, digest := m.body.drop 5, session := m.session }
     let e := c.emptySlot kind
     let phased := fun (i : Instr) (type : Nat) (phases : List Nat) => takes type →
       (c.sty.update = none → answers i c 3) ∧
       (∀ u, c.sty.update = some u → u.session ≠ m.session → answers i c 4) ∧
       (∀ u, c.sty.update = some u → u.session = m.session → u.phase ∉ phases → answers i c 3)
     let mine := fun (u : Update) (type : Nat) (phases : List Nat) =>
       takes type ∧ c.sty.update = some u ∧ u.session = m.session ∧ u.phase ∈ phases
     let done := fun (b : State) (u : Update) => (b.setUpdate { u with phase := 3 }).log 5 3
     let badKey := match what with
       | .keyhole i => !((i.level == 1 || i.level == 2) && i.phrases.length ≤ 8 && i.phrases.all (· ≤ 2000) &&
           i.size ≤ 524288 && i.digestOk)
       | _ => false
     let begin_ : Instr := .updateBegin t src
     let data : Instr := .updateData t src flashOk
     let verify : Instr := .updateVerify t src what
     let commit : Instr := .updateCommit t src flashOk
     let abort : Instr := .updateAbort t src
     (takes 0x20 → c.sty.update.isSome = true → answers begin_ c 4) ∧
     (takes 0x20 → c.sty.update = none → ¬fits → answers begin_ c 5) ∧
     (takes 0x20 → c.sty.update = none → fits → refusedMode → answers begin_ c 3) ∧
     (takes 0x20 → c.sty.update = none → fits → ¬refusedMode →
       answers begin_ (({ e with sty := { e.sty with update := some new } }).log 5 1) 0) ∧
     phased data 0x21 [1] ∧ phased verify 0x22 [1] ∧ phased commit 0x23 [2] ∧ phased abort 0x25 [1, 2] ∧
     (∀ u, mine u 0x21 [1] →
       let misfit := bs = [] ∨ u.length < off + bs.length ∨ (fromPort src = true ∧ 1024 < bs.length)
       (misfit → answers data c 5) ∧
       (¬misfit → u.kind ≠ 5 → flashOk = false → answers data c 9) ∧
       (¬misfit → u.kind = 5 ∨ flashOk = true → answers data (c.setUpdate { u with data := mwrite u.data off bs }) 0)) ∧
     (∀ u, mine u 0x22 [1] →
       (m.body ≠ [] → answers verify c 5) ∧
       (m.body = [] → c.verdictOf u.kind what = 0 →
         answers verify ((c.setUpdate { u with phase := 2, what := some what }).log 5 2) 0) ∧
       (m.body = [] → c.verdictOf u.kind what ≠ 0 →
         answers verify (if u.kind = 5 ∧ badKey = true then c.noteAon fcKeyImage else c) (c.verdictOf u.kind what))) ∧
     (∀ u, mine u 0x23 [2] →
       (m.body ≠ [] → answers commit c 5) ∧
       (∀ ok x, m.body = [] → u.what = some (.image ok x) →
         let count := max c.fuses.rollback x.floor
         let bars := c.fuses.rollback < count ∧ c.riseBars count = true
         (bars → answers commit c 7) ∧ (¬bars → flashOk = false → answers commit c 9) ∧
         (¬bars → flashOk = true → answers commit (done (c.commitImage u.kind x count) u) 0)) ∧
       (∀ ok g, m.body = [] → u.what = some (.generation ok g) →
         (flashOk = false → answers commit c 9) ∧
         (flashOk = true → answers commit (done ((c.commitGen g).log 6 1) u) 0)) ∧
       (∀ i, m.body = [] → u.what = some (.keyhole i) →
         answers commit (done (c.requestChange (.image i.level i.phrases.length)) u) 0)) ∧
     (∀ u, mine u 0x25 [1, 2] → (m.body ≠ [] → answers abort c 5) ∧ (m.body = [] → answers abort c.endUpdate 0))) ∧
  (∀ (t : Nat) (src : MsgSrc) (s c : State) (m : Msg) (k : Option Session), let a := s.at_ t
     let takes := fun (type : Nat) => a.takesMsg src type false m k c
     let answers := fun (i : Instr) (b : State) (result : Nat) => i.wellFormed = true → Runs i s (b.reply src m k result [])
     let orders := fun (i : Instr) (b : State) (f : State → State) =>
       i.wellFormed = true → Runs i s (f ((b.reply src m k 0 []).replyNow src))
     let ends := fun (b : State) => ({ b with sty := { b.sty with update := none } }).log 5 4
     let act : Instr := .updateActivate t src
     let revert : Instr := .settingsRevert t src
     let reset : Instr := .reset t src
     let sleep : Instr := .sleepS3 t src
     let wake : Instr := .wake t src
     (takes 0x24 → c.sty.update = none → answers act c 3) ∧
     (∀ u, takes 0x24 → c.sty.update = some u → u.session ≠ m.session → answers act c 4) ∧
     (∀ u, takes 0x24 → c.sty.update = some u → u.session = m.session → u.phase ≠ 3 → answers act c 3) ∧
     (∀ u, takes 0x24 → c.sty.update = some u → u.session = m.session → u.phase = 3 →
       (m.body ≠ [] → answers act c 5) ∧
       (∀ ok x, m.body = [] → u.what = some (.image ok x) →
         let b := c.runSet
         let changed := fun (j : Nat) => c.safeFloor != b.safeFloor || lget c.sty.set_ j 0 != lget b.sty.set_ j 0
         orders act (ends b) fun x => x.restartImages (changed 0) (changed 1) (changed 2)) ∧
       (∀ ok g, m.body = [] → u.what = some (.generation ok g) →
         let slot := c.stageSlot 4
         let newer := c.genStateAt slot = .staged ∧ ∀ x, c.currentGen = some x → x.number < g.number
         (¬newer → answers act c 3) ∧
         let x := c.setGenState slot .trial
         let y := (({ x with flash := { x.flash with
           startsLeft := g.starts, ticksLeft := g.ticks, reverted := false } }).setReg Reg.rstGenClean 0).showGens.log 6 2
         (newer → orders act (ends (if y.safeFloor then y.runSet else y)) fun b => b.orderMdr 9 .pcr false)) ∧
       (∀ i, m.body = [] → u.what = some (.keyhole i) → answers act (ends c) 0)) ∧
     (takes 0x30 → m.body = [] → c.revert = none → answers revert (c.noteAon fcRstReq) 3) ∧
     (∀ r, takes 0x30 → m.body = [] → c.revert = some r → orders revert c fun b => b.revert.getD b) ∧
     (takes 0x30 → m.body ≠ [] → answers revert c 5) ∧
     (takes 0x40 → m.body = [1] → orders reset c fun b => b.ackAll.orderMdr 8) ∧
     (takes 0x40 → m.body = [3] → orders reset c fun b => b.str 8) ∧
     (takes 0x40 → m.body = [4] → orders reset c fun b => b.pcr 8) ∧
     (takes 0x40 → m.body ∉ [[1], [3], [4]] → answers reset c 5) ∧
     (takes 0x41 → m.body = [] → c.pwr.state = .s2 ∧ c.pwr.entry = .none ∧ c.pwr.waking = none →
       orders sleep c State.s3FromS2) ∧
     (takes 0x41 → m.body = [] → ¬(c.pwr.state = .s2 ∧ c.pwr.entry = .none ∧ c.pwr.waking = none) → answers sleep c 3) ∧
     (takes 0x42 → m.body = [] → fromPort src = true → orders wake c fun b => b.wakeBy 4) ∧
     (takes 0x42 → m.body = [] → fromPort src = false → answers wake c 3) ∧
     (takes 0x41 → m.body ≠ [] → answers sleep c 5) ∧ (takes 0x42 → m.body ≠ [] → answers wake c 5))

/-- A register field after the power-on reset: a field whose Reset column gives a value holds it (R15), but for MEM_KEYS, which
the start-up that `State.reset` has completed set, BG_PHASE, which shows the background phase that a start begins (R50), and
of POR_CH the STATE of the channels 8 to 15, whose clock is off (R412), and SWAP_UNTESTABLE, which every TRIM of 0 shows
(R421).

The machine after the power-on reset, its start-up complete (the model's choice, assumption 6): the tick number is 0 (R48),
the epoch 0 (R556), no work, no open fault record, no byte written, an empty queue, FD_READY high; memory and registers are
canonical and the pins agree with what drives them. -/
def Obligations.ResetState : Prop :=
  (∀ f ∈ Reg.allFields, f ≠ Reg.secStatusMemKeys → f ≠ Reg.tkStatusBgPhase →
     ∀ n, f.rst = .val n → ∀ g ∈ f.all, State.reset.reg g =
       if 8 ≤ f.all.findIdx (· == g) ∧ f = Reg.porChState then 4 else if f = Reg.porChSwapUntestable then 1 else n) ∧
  (let r := State.reset
   r.tick.number = 0 ∧ r.epoch = 0 ∧ r.pending = [] ∧ r.mem = [] ∧ r.wk.works = [] ∧ r.fb.recs = [] ∧
   r.canonical = true ∧ r.pinsFollow = true ∧ r.pins.fdReady = true)
end

