-- ==== Sys2Proof/Laws/State.lean ====
section
/-! SUPPORT. Which fields of the state each small update leaves: one lemma per update and field, so that no proof unfolds a
record update. -/

namespace Sys2Proof.Laws
open Sys2Proof Sys2Proof.Machine

variable (s : State)

@[simp] theorem at_pending (t : Nat) : (s.at_ t).pending = s.pending := (rfl)
@[simp] theorem at_free (t : Nat) : (s.at_ t).free = s.free := (rfl)
@[simp] theorem at_regs (t : Nat) : (s.at_ t).regs = s.regs := (rfl)
@[simp] theorem at_readData (t : Nat) : (s.at_ t).readData = s.readData := (rfl)
@[simp] theorem at_mem (t : Nat) : (s.at_ t).mem = s.mem := (rfl)
@[simp] theorem at_badUnits (t : Nat) : (s.at_ t).badUnits = s.badUnits := (rfl)
@[simp] theorem at_pins (t : Nat) : (s.at_ t).pins = s.pins := (rfl)
@[simp] theorem at_tick (t : Nat) : (s.at_ t).tick = s.tick := (rfl)
@[simp] theorem at_fd (t : Nat) : (s.at_ t).fd = s.fd := (rfl)
@[simp] theorem at_rg (t : Nat) : (s.at_ t).rg = s.rg := (rfl)
@[simp] theorem at_wk (t : Nat) : (s.at_ t).wk = s.wk := (rfl)
@[simp] theorem at_deed (t : Nat) : (s.at_ t).deed = s.deed := (rfl)
@[simp] theorem at_xlat (t : Nat) : (s.at_ t).xlat = s.xlat := (rfl)
@[simp] theorem at_att (t : Nat) : (s.at_ t).att = s.att := (rfl)
@[simp] theorem at_strm (t : Nat) : (s.at_ t).strm = s.strm := (rfl)
@[simp] theorem at_gal (t : Nat) : (s.at_ t).gal = s.gal := (rfl)
@[simp] theorem at_por (t : Nat) : (s.at_ t).por = s.por := (rfl)
@[simp] theorem at_pwr (t : Nat) : (s.at_ t).pwr = s.pwr := (rfl)
@[simp] theorem at_rst (t : Nat) : (s.at_ t).rst = s.rst := (rfl)
@[simp] theorem at_flash (t : Nat) : (s.at_ t).flash = s.flash := (rfl)
@[simp] theorem at_fuses (t : Nat) : (s.at_ t).fuses = s.fuses := (rfl)
@[simp] theorem at_sty (t : Nat) : (s.at_ t).sty = s.sty := (rfl)
@[simp] theorem at_sec (t : Nat) : (s.at_ t).sec = s.sec := (rfl)
@[simp] theorem at_pw (t : Nat) : (s.at_ t).pw = s.pw := (rfl)
@[simp] theorem at_fb (t : Nat) : (s.at_ t).fb = s.fb := (rfl)

@[simp] theorem setWord_pending (off : Nat) (w : Word) : (s.setWord off w).pending = s.pending := (rfl)
@[simp] theorem setWord_now (off : Nat) (w : Word) : (s.setWord off w).now = s.now := (rfl)
@[simp] theorem setWord_free (off : Nat) (w : Word) : (s.setWord off w).free = s.free := (rfl)
@[simp] theorem setWord_readData (off : Nat) (w : Word) : (s.setWord off w).readData = s.readData := (rfl)
@[simp] theorem setWord_mem (off : Nat) (w : Word) : (s.setWord off w).mem = s.mem := (rfl)
@[simp] theorem setWord_badUnits (off : Nat) (w : Word) : (s.setWord off w).badUnits = s.badUnits := (rfl)
@[simp] theorem setWord_pins (off : Nat) (w : Word) : (s.setWord off w).pins = s.pins := (rfl)
@[simp] theorem setWord_tick (off : Nat) (w : Word) : (s.setWord off w).tick = s.tick := (rfl)
@[simp] theorem setWord_fd (off : Nat) (w : Word) : (s.setWord off w).fd = s.fd := (rfl)
@[simp] theorem setWord_rg (off : Nat) (w : Word) : (s.setWord off w).rg = s.rg := (rfl)
@[simp] theorem setWord_wk (off : Nat) (w : Word) : (s.setWord off w).wk = s.wk := (rfl)
@[simp] theorem setWord_deed (off : Nat) (w : Word) : (s.setWord off w).deed = s.deed := (rfl)
@[simp] theorem setWord_xlat (off : Nat) (w : Word) : (s.setWord off w).xlat = s.xlat := (rfl)
@[simp] theorem setWord_att (off : Nat) (w : Word) : (s.setWord off w).att = s.att := (rfl)
@[simp] theorem setWord_strm (off : Nat) (w : Word) : (s.setWord off w).strm = s.strm := (rfl)
@[simp] theorem setWord_gal (off : Nat) (w : Word) : (s.setWord off w).gal = s.gal := (rfl)
@[simp] theorem setWord_por (off : Nat) (w : Word) : (s.setWord off w).por = s.por := (rfl)
@[simp] theorem setWord_pwr (off : Nat) (w : Word) : (s.setWord off w).pwr = s.pwr := (rfl)
@[simp] theorem setWord_rst (off : Nat) (w : Word) : (s.setWord off w).rst = s.rst := (rfl)
@[simp] theorem setWord_flash (off : Nat) (w : Word) : (s.setWord off w).flash = s.flash := (rfl)
@[simp] theorem setWord_fuses (off : Nat) (w : Word) : (s.setWord off w).fuses = s.fuses := (rfl)
@[simp] theorem setWord_sty (off : Nat) (w : Word) : (s.setWord off w).sty = s.sty := (rfl)
@[simp] theorem setWord_sec (off : Nat) (w : Word) : (s.setWord off w).sec = s.sec := (rfl)
@[simp] theorem setWord_pw (off : Nat) (w : Word) : (s.setWord off w).pw = s.pw := (rfl)
@[simp] theorem setWord_fb (off : Nat) (w : Word) : (s.setWord off w).fb = s.fb := (rfl)

@[simp] theorem setReg_pending (f : Field) (v : Nat) : (s.setReg f v).pending = s.pending := (rfl)
@[simp] theorem setReg_now (f : Field) (v : Nat) : (s.setReg f v).now = s.now := (rfl)
@[simp] theorem setReg_free (f : Field) (v : Nat) : (s.setReg f v).free = s.free := (rfl)
@[simp] theorem setReg_readData (f : Field) (v : Nat) : (s.setReg f v).readData = s.readData := (rfl)
@[simp] theorem setReg_mem (f : Field) (v : Nat) : (s.setReg f v).mem = s.mem := (rfl)
@[simp] theorem setReg_badUnits (f : Field) (v : Nat) : (s.setReg f v).badUnits = s.badUnits := (rfl)
@[simp] theorem setReg_pins (f : Field) (v : Nat) : (s.setReg f v).pins = s.pins := (rfl)
@[simp] theorem setReg_tick (f : Field) (v : Nat) : (s.setReg f v).tick = s.tick := (rfl)
@[simp] theorem setReg_fd (f : Field) (v : Nat) : (s.setReg f v).fd = s.fd := (rfl)
@[simp] theorem setReg_rg (f : Field) (v : Nat) : (s.setReg f v).rg = s.rg := (rfl)
@[simp] theorem setReg_wk (f : Field) (v : Nat) : (s.setReg f v).wk = s.wk := (rfl)
@[simp] theorem setReg_deed (f : Field) (v : Nat) : (s.setReg f v).deed = s.deed := (rfl)
@[simp] theorem setReg_xlat (f : Field) (v : Nat) : (s.setReg f v).xlat = s.xlat := (rfl)
@[simp] theorem setReg_att (f : Field) (v : Nat) : (s.setReg f v).att = s.att := (rfl)
@[simp] theorem setReg_strm (f : Field) (v : Nat) : (s.setReg f v).strm = s.strm := (rfl)
@[simp] theorem setReg_gal (f : Field) (v : Nat) : (s.setReg f v).gal = s.gal := (rfl)
@[simp] theorem setReg_por (f : Field) (v : Nat) : (s.setReg f v).por = s.por := (rfl)
@[simp] theorem setReg_pwr (f : Field) (v : Nat) : (s.setReg f v).pwr = s.pwr := (rfl)
@[simp] theorem setReg_rst (f : Field) (v : Nat) : (s.setReg f v).rst = s.rst := (rfl)
@[simp] theorem setReg_flash (f : Field) (v : Nat) : (s.setReg f v).flash = s.flash := (rfl)
@[simp] theorem setReg_fuses (f : Field) (v : Nat) : (s.setReg f v).fuses = s.fuses := (rfl)
@[simp] theorem setReg_sty (f : Field) (v : Nat) : (s.setReg f v).sty = s.sty := (rfl)
@[simp] theorem setReg_sec (f : Field) (v : Nat) : (s.setReg f v).sec = s.sec := (rfl)
@[simp] theorem setReg_pw (f : Field) (v : Nat) : (s.setReg f v).pw = s.pw := (rfl)
@[simp] theorem setReg_fb (f : Field) (v : Nat) : (s.setReg f v).fb = s.fb := (rfl)

@[simp] theorem setFlag_pending (f : Field) (b : Bool) : (s.setFlag f b).pending = s.pending := (rfl)
@[simp] theorem setFlag_now (f : Field) (b : Bool) : (s.setFlag f b).now = s.now := (rfl)
@[simp] theorem setFlag_free (f : Field) (b : Bool) : (s.setFlag f b).free = s.free := (rfl)
@[simp] theorem setFlag_readData (f : Field) (b : Bool) : (s.setFlag f b).readData = s.readData := (rfl)
@[simp] theorem setFlag_mem (f : Field) (b : Bool) : (s.setFlag f b).mem = s.mem := (rfl)
@[simp] theorem setFlag_badUnits (f : Field) (b : Bool) : (s.setFlag f b).badUnits = s.badUnits := (rfl)
@[simp] theorem setFlag_pins (f : Field) (b : Bool) : (s.setFlag f b).pins = s.pins := (rfl)
@[simp] theorem setFlag_tick (f : Field) (b : Bool) : (s.setFlag f b).tick = s.tick := (rfl)
@[simp] theorem setFlag_fd (f : Field) (b : Bool) : (s.setFlag f b).fd = s.fd := (rfl)
@[simp] theorem setFlag_rg (f : Field) (b : Bool) : (s.setFlag f b).rg = s.rg := (rfl)
@[simp] theorem setFlag_wk (f : Field) (b : Bool) : (s.setFlag f b).wk = s.wk := (rfl)
@[simp] theorem setFlag_deed (f : Field) (b : Bool) : (s.setFlag f b).deed = s.deed := (rfl)
@[simp] theorem setFlag_xlat (f : Field) (b : Bool) : (s.setFlag f b).xlat = s.xlat := (rfl)
@[simp] theorem setFlag_att (f : Field) (b : Bool) : (s.setFlag f b).att = s.att := (rfl)
@[simp] theorem setFlag_strm (f : Field) (b : Bool) : (s.setFlag f b).strm = s.strm := (rfl)
@[simp] theorem setFlag_gal (f : Field) (b : Bool) : (s.setFlag f b).gal = s.gal := (rfl)
@[simp] theorem setFlag_por (f : Field) (b : Bool) : (s.setFlag f b).por = s.por := (rfl)
@[simp] theorem setFlag_pwr (f : Field) (b : Bool) : (s.setFlag f b).pwr = s.pwr := (rfl)
@[simp] theorem setFlag_rst (f : Field) (b : Bool) : (s.setFlag f b).rst = s.rst := (rfl)
@[simp] theorem setFlag_flash (f : Field) (b : Bool) : (s.setFlag f b).flash = s.flash := (rfl)
@[simp] theorem setFlag_fuses (f : Field) (b : Bool) : (s.setFlag f b).fuses = s.fuses := (rfl)
@[simp] theorem setFlag_sty (f : Field) (b : Bool) : (s.setFlag f b).sty = s.sty := (rfl)
@[simp] theorem setFlag_sec (f : Field) (b : Bool) : (s.setFlag f b).sec = s.sec := (rfl)
@[simp] theorem setFlag_pw (f : Field) (b : Bool) : (s.setFlag f b).pw = s.pw := (rfl)
@[simp] theorem setFlag_fb (f : Field) (b : Bool) : (s.setFlag f b).fb = s.fb := (rfl)

@[simp] theorem bump_pending (f : Field) (n : Nat) : (s.bump f n).pending = s.pending := (rfl)
@[simp] theorem bump_now (f : Field) (n : Nat) : (s.bump f n).now = s.now := (rfl)
@[simp] theorem bump_free (f : Field) (n : Nat) : (s.bump f n).free = s.free := (rfl)
@[simp] theorem bump_readData (f : Field) (n : Nat) : (s.bump f n).readData = s.readData := (rfl)
@[simp] theorem bump_mem (f : Field) (n : Nat) : (s.bump f n).mem = s.mem := (rfl)
@[simp] theorem bump_badUnits (f : Field) (n : Nat) : (s.bump f n).badUnits = s.badUnits := (rfl)
@[simp] theorem bump_pins (f : Field) (n : Nat) : (s.bump f n).pins = s.pins := (rfl)
@[simp] theorem bump_tick (f : Field) (n : Nat) : (s.bump f n).tick = s.tick := (rfl)
@[simp] theorem bump_fd (f : Field) (n : Nat) : (s.bump f n).fd = s.fd := (rfl)
@[simp] theorem bump_rg (f : Field) (n : Nat) : (s.bump f n).rg = s.rg := (rfl)
@[simp] theorem bump_wk (f : Field) (n : Nat) : (s.bump f n).wk = s.wk := (rfl)
@[simp] theorem bump_deed (f : Field) (n : Nat) : (s.bump f n).deed = s.deed := (rfl)
@[simp] theorem bump_xlat (f : Field) (n : Nat) : (s.bump f n).xlat = s.xlat := (rfl)
@[simp] theorem bump_att (f : Field) (n : Nat) : (s.bump f n).att = s.att := (rfl)
@[simp] theorem bump_strm (f : Field) (n : Nat) : (s.bump f n).strm = s.strm := (rfl)
@[simp] theorem bump_gal (f : Field) (n : Nat) : (s.bump f n).gal = s.gal := (rfl)
@[simp] theorem bump_por (f : Field) (n : Nat) : (s.bump f n).por = s.por := (rfl)
@[simp] theorem bump_pwr (f : Field) (n : Nat) : (s.bump f n).pwr = s.pwr := (rfl)
@[simp] theorem bump_rst (f : Field) (n : Nat) : (s.bump f n).rst = s.rst := (rfl)
@[simp] theorem bump_flash (f : Field) (n : Nat) : (s.bump f n).flash = s.flash := (rfl)
@[simp] theorem bump_fuses (f : Field) (n : Nat) : (s.bump f n).fuses = s.fuses := (rfl)
@[simp] theorem bump_sty (f : Field) (n : Nat) : (s.bump f n).sty = s.sty := (rfl)
@[simp] theorem bump_sec (f : Field) (n : Nat) : (s.bump f n).sec = s.sec := (rfl)
@[simp] theorem bump_pw (f : Field) (n : Nat) : (s.bump f n).pw = s.pw := (rfl)
@[simp] theorem bump_fb (f : Field) (n : Nat) : (s.bump f n).fb = s.fb := (rfl)

@[simp] theorem setTileSt_pending (t : Nat) (x : TileSt) : (s.setTileSt t x).pending = s.pending := (rfl)
@[simp] theorem setTileSt_now (t : Nat) (x : TileSt) : (s.setTileSt t x).now = s.now := (rfl)
@[simp] theorem setTileSt_free (t : Nat) (x : TileSt) : (s.setTileSt t x).free = s.free := (rfl)
@[simp] theorem setTileSt_regs (t : Nat) (x : TileSt) : (s.setTileSt t x).regs = s.regs := (rfl)
@[simp] theorem setTileSt_readData (t : Nat) (x : TileSt) : (s.setTileSt t x).readData = s.readData := (rfl)
@[simp] theorem setTileSt_mem (t : Nat) (x : TileSt) : (s.setTileSt t x).mem = s.mem := (rfl)
@[simp] theorem setTileSt_badUnits (t : Nat) (x : TileSt) : (s.setTileSt t x).badUnits = s.badUnits := (rfl)
@[simp] theorem setTileSt_pins (t : Nat) (x : TileSt) : (s.setTileSt t x).pins = s.pins := (rfl)
@[simp] theorem setTileSt_tick (t : Nat) (x : TileSt) : (s.setTileSt t x).tick = s.tick := (rfl)
@[simp] theorem setTileSt_fd (t : Nat) (x : TileSt) : (s.setTileSt t x).fd = s.fd := (rfl)
@[simp] theorem setTileSt_rg (t : Nat) (x : TileSt) : (s.setTileSt t x).rg = s.rg := (rfl)
@[simp] theorem setTileSt_deed (t : Nat) (x : TileSt) : (s.setTileSt t x).deed = s.deed := (rfl)
@[simp] theorem setTileSt_xlat (t : Nat) (x : TileSt) : (s.setTileSt t x).xlat = s.xlat := (rfl)
@[simp] theorem setTileSt_att (t : Nat) (x : TileSt) : (s.setTileSt t x).att = s.att := (rfl)
@[simp] theorem setTileSt_strm (t : Nat) (x : TileSt) : (s.setTileSt t x).strm = s.strm := (rfl)
@[simp] theorem setTileSt_gal (t : Nat) (x : TileSt) : (s.setTileSt t x).gal = s.gal := (rfl)
@[simp] theorem setTileSt_por (t : Nat) (x : TileSt) : (s.setTileSt t x).por = s.por := (rfl)
@[simp] theorem setTileSt_pwr (t : Nat) (x : TileSt) : (s.setTileSt t x).pwr = s.pwr := (rfl)
@[simp] theorem setTileSt_rst (t : Nat) (x : TileSt) : (s.setTileSt t x).rst = s.rst := (rfl)
@[simp] theorem setTileSt_flash (t : Nat) (x : TileSt) : (s.setTileSt t x).flash = s.flash := (rfl)
@[simp] theorem setTileSt_fuses (t : Nat) (x : TileSt) : (s.setTileSt t x).fuses = s.fuses := (rfl)
@[simp] theorem setTileSt_sty (t : Nat) (x : TileSt) : (s.setTileSt t x).sty = s.sty := (rfl)
@[simp] theorem setTileSt_sec (t : Nat) (x : TileSt) : (s.setTileSt t x).sec = s.sec := (rfl)
@[simp] theorem setTileSt_pw (t : Nat) (x : TileSt) : (s.setTileSt t x).pw = s.pw := (rfl)
@[simp] theorem setTileSt_fb (t : Nat) (x : TileSt) : (s.setTileSt t x).fb = s.fb := (rfl)

@[simp] theorem raise_pending (r : Report) : (s.raise r).pending = s.pending := (rfl)
@[simp] theorem raise_now (r : Report) : (s.raise r).now = s.now := (rfl)
@[simp] theorem raise_free (r : Report) : (s.raise r).free = s.free := (rfl)
@[simp] theorem raise_regs (r : Report) : (s.raise r).regs = s.regs := (rfl)
@[simp] theorem raise_readData (r : Report) : (s.raise r).readData = s.readData := (rfl)
@[simp] theorem raise_mem (r : Report) : (s.raise r).mem = s.mem := (rfl)
@[simp] theorem raise_badUnits (r : Report) : (s.raise r).badUnits = s.badUnits := (rfl)
@[simp] theorem raise_pins (r : Report) : (s.raise r).pins = s.pins := (rfl)
@[simp] theorem raise_fd (r : Report) : (s.raise r).fd = s.fd := (rfl)
@[simp] theorem raise_rg (r : Report) : (s.raise r).rg = s.rg := (rfl)
@[simp] theorem raise_wk (r : Report) : (s.raise r).wk = s.wk := (rfl)
@[simp] theorem raise_deed (r : Report) : (s.raise r).deed = s.deed := (rfl)
@[simp] theorem raise_xlat (r : Report) : (s.raise r).xlat = s.xlat := (rfl)
@[simp] theorem raise_att (r : Report) : (s.raise r).att = s.att := (rfl)
@[simp] theorem raise_strm (r : Report) : (s.raise r).strm = s.strm := (rfl)
@[simp] theorem raise_gal (r : Report) : (s.raise r).gal = s.gal := (rfl)
@[simp] theorem raise_por (r : Report) : (s.raise r).por = s.por := (rfl)
@[simp] theorem raise_pwr (r : Report) : (s.raise r).pwr = s.pwr := (rfl)
@[simp] theorem raise_rst (r : Report) : (s.raise r).rst = s.rst := (rfl)
@[simp] theorem raise_flash (r : Report) : (s.raise r).flash = s.flash := (rfl)
@[simp] theorem raise_fuses (r : Report) : (s.raise r).fuses = s.fuses := (rfl)
@[simp] theorem raise_sty (r : Report) : (s.raise r).sty = s.sty := (rfl)
@[simp] theorem raise_sec (r : Report) : (s.raise r).sec = s.sec := (rfl)
@[simp] theorem raise_pw (r : Report) : (s.raise r).pw = s.pw := (rfl)

@[simp] theorem raiseAon_pending (r : Report) : (s.raiseAon r).pending = s.pending := (rfl)
@[simp] theorem raiseAon_now (r : Report) : (s.raiseAon r).now = s.now := (rfl)
@[simp] theorem raiseAon_free (r : Report) : (s.raiseAon r).free = s.free := (rfl)
@[simp] theorem raiseAon_regs (r : Report) : (s.raiseAon r).regs = s.regs := (rfl)
@[simp] theorem raiseAon_readData (r : Report) : (s.raiseAon r).readData = s.readData := (rfl)
@[simp] theorem raiseAon_mem (r : Report) : (s.raiseAon r).mem = s.mem := (rfl)
@[simp] theorem raiseAon_badUnits (r : Report) : (s.raiseAon r).badUnits = s.badUnits := (rfl)
@[simp] theorem raiseAon_pins (r : Report) : (s.raiseAon r).pins = s.pins := (rfl)
@[simp] theorem raiseAon_fd (r : Report) : (s.raiseAon r).fd = s.fd := (rfl)
@[simp] theorem raiseAon_rg (r : Report) : (s.raiseAon r).rg = s.rg := (rfl)
@[simp] theorem raiseAon_wk (r : Report) : (s.raiseAon r).wk = s.wk := (rfl)
@[simp] theorem raiseAon_deed (r : Report) : (s.raiseAon r).deed = s.deed := (rfl)
@[simp] theorem raiseAon_xlat (r : Report) : (s.raiseAon r).xlat = s.xlat := (rfl)
@[simp] theorem raiseAon_att (r : Report) : (s.raiseAon r).att = s.att := (rfl)
@[simp] theorem raiseAon_strm (r : Report) : (s.raiseAon r).strm = s.strm := (rfl)
@[simp] theorem raiseAon_gal (r : Report) : (s.raiseAon r).gal = s.gal := (rfl)
@[simp] theorem raiseAon_por (r : Report) : (s.raiseAon r).por = s.por := (rfl)
@[simp] theorem raiseAon_pwr (r : Report) : (s.raiseAon r).pwr = s.pwr := (rfl)
@[simp] theorem raiseAon_rst (r : Report) : (s.raiseAon r).rst = s.rst := (rfl)
@[simp] theorem raiseAon_flash (r : Report) : (s.raiseAon r).flash = s.flash := (rfl)
@[simp] theorem raiseAon_fuses (r : Report) : (s.raiseAon r).fuses = s.fuses := (rfl)
@[simp] theorem raiseAon_sty (r : Report) : (s.raiseAon r).sty = s.sty := (rfl)
@[simp] theorem raiseAon_sec (r : Report) : (s.raiseAon r).sec = s.sec := (rfl)
@[simp] theorem raiseAon_pw (r : Report) : (s.raiseAon r).pw = s.pw := (rfl)

@[simp] theorem note_pending (c : Byte) (u : Nat) : (s.note c u).pending = s.pending := (rfl)
@[simp] theorem note_now (c : Byte) (u : Nat) : (s.note c u).now = s.now := (rfl)
@[simp] theorem note_free (c : Byte) (u : Nat) : (s.note c u).free = s.free := (rfl)
@[simp] theorem note_regs (c : Byte) (u : Nat) : (s.note c u).regs = s.regs := (rfl)
@[simp] theorem note_readData (c : Byte) (u : Nat) : (s.note c u).readData = s.readData := (rfl)
@[simp] theorem note_mem (c : Byte) (u : Nat) : (s.note c u).mem = s.mem := (rfl)
@[simp] theorem note_badUnits (c : Byte) (u : Nat) : (s.note c u).badUnits = s.badUnits := (rfl)
@[simp] theorem note_pins (c : Byte) (u : Nat) : (s.note c u).pins = s.pins := (rfl)
@[simp] theorem note_tick (c : Byte) (u : Nat) : (s.note c u).tick = s.tick := by simp [State.note, State.raise, State.markL2, mkReport]
@[simp] theorem note_fd (c : Byte) (u : Nat) : (s.note c u).fd = s.fd := (rfl)
@[simp] theorem note_rg (c : Byte) (u : Nat) : (s.note c u).rg = s.rg := (rfl)
@[simp] theorem note_wk (c : Byte) (u : Nat) : (s.note c u).wk = s.wk := (rfl)
@[simp] theorem note_deed (c : Byte) (u : Nat) : (s.note c u).deed = s.deed := (rfl)
@[simp] theorem note_xlat (c : Byte) (u : Nat) : (s.note c u).xlat = s.xlat := (rfl)
@[simp] theorem note_att (c : Byte) (u : Nat) : (s.note c u).att = s.att := (rfl)
@[simp] theorem note_strm (c : Byte) (u : Nat) : (s.note c u).strm = s.strm := (rfl)
@[simp] theorem note_gal (c : Byte) (u : Nat) : (s.note c u).gal = s.gal := (rfl)
@[simp] theorem note_por (c : Byte) (u : Nat) : (s.note c u).por = s.por := (rfl)
@[simp] theorem note_pwr (c : Byte) (u : Nat) : (s.note c u).pwr = s.pwr := (rfl)
@[simp] theorem note_rst (c : Byte) (u : Nat) : (s.note c u).rst = s.rst := (rfl)
@[simp] theorem note_flash (c : Byte) (u : Nat) : (s.note c u).flash = s.flash := (rfl)
@[simp] theorem note_fuses (c : Byte) (u : Nat) : (s.note c u).fuses = s.fuses := (rfl)
@[simp] theorem note_sty (c : Byte) (u : Nat) : (s.note c u).sty = s.sty := (rfl)
@[simp] theorem note_sec (c : Byte) (u : Nat) : (s.note c u).sec = s.sec := (rfl)
@[simp] theorem note_pw (c : Byte) (u : Nat) : (s.note c u).pw = s.pw := (rfl)

@[simp] theorem noteAon_pending (c : Byte) (u : Nat) : (s.noteAon c u).pending = s.pending := (rfl)
@[simp] theorem noteAon_now (c : Byte) (u : Nat) : (s.noteAon c u).now = s.now := (rfl)
@[simp] theorem noteAon_free (c : Byte) (u : Nat) : (s.noteAon c u).free = s.free := (rfl)
@[simp] theorem noteAon_regs (c : Byte) (u : Nat) : (s.noteAon c u).regs = s.regs := (rfl)
@[simp] theorem noteAon_readData (c : Byte) (u : Nat) : (s.noteAon c u).readData = s.readData := (rfl)
@[simp] theorem noteAon_mem (c : Byte) (u : Nat) : (s.noteAon c u).mem = s.mem := (rfl)
@[simp] theorem noteAon_badUnits (c : Byte) (u : Nat) : (s.noteAon c u).badUnits = s.badUnits := (rfl)
@[simp] theorem noteAon_pins (c : Byte) (u : Nat) : (s.noteAon c u).pins = s.pins := (rfl)
@[simp] theorem noteAon_tick (c : Byte) (u : Nat) : (s.noteAon c u).tick = s.tick := by simp [State.noteAon, State.raiseAon, State.markL2, mkReport]
@[simp] theorem noteAon_fd (c : Byte) (u : Nat) : (s.noteAon c u).fd = s.fd := (rfl)
@[simp] theorem noteAon_rg (c : Byte) (u : Nat) : (s.noteAon c u).rg = s.rg := (rfl)
@[simp] theorem noteAon_wk (c : Byte) (u : Nat) : (s.noteAon c u).wk = s.wk := (rfl)
@[simp] theorem noteAon_deed (c : Byte) (u : Nat) : (s.noteAon c u).deed = s.deed := (rfl)
@[simp] theorem noteAon_xlat (c : Byte) (u : Nat) : (s.noteAon c u).xlat = s.xlat := (rfl)
@[simp] theorem noteAon_att (c : Byte) (u : Nat) : (s.noteAon c u).att = s.att := (rfl)
@[simp] theorem noteAon_strm (c : Byte) (u : Nat) : (s.noteAon c u).strm = s.strm := (rfl)
@[simp] theorem noteAon_gal (c : Byte) (u : Nat) : (s.noteAon c u).gal = s.gal := (rfl)
@[simp] theorem noteAon_por (c : Byte) (u : Nat) : (s.noteAon c u).por = s.por := (rfl)
@[simp] theorem noteAon_pwr (c : Byte) (u : Nat) : (s.noteAon c u).pwr = s.pwr := (rfl)
@[simp] theorem noteAon_rst (c : Byte) (u : Nat) : (s.noteAon c u).rst = s.rst := (rfl)
@[simp] theorem noteAon_flash (c : Byte) (u : Nat) : (s.noteAon c u).flash = s.flash := (rfl)
@[simp] theorem noteAon_fuses (c : Byte) (u : Nat) : (s.noteAon c u).fuses = s.fuses := (rfl)
@[simp] theorem noteAon_sty (c : Byte) (u : Nat) : (s.noteAon c u).sty = s.sty := (rfl)
@[simp] theorem noteAon_sec (c : Byte) (u : Nat) : (s.noteAon c u).sec = s.sec := (rfl)
@[simp] theorem noteAon_pw (c : Byte) (u : Nat) : (s.noteAon c u).pw = s.pw := (rfl)

@[simp] theorem log_pending (k c d : Nat) : (s.log k c d).pending = s.pending := by simp only [State.log]
@[simp] theorem log_now (k c d : Nat) : (s.log k c d).now = s.now := by simp only [State.log]
@[simp] theorem log_free (k c d : Nat) : (s.log k c d).free = s.free := by simp only [State.log]
@[simp] theorem log_regs (k c d : Nat) : (s.log k c d).regs = s.regs := by simp only [State.log]
@[simp] theorem log_readData (k c d : Nat) : (s.log k c d).readData = s.readData := by simp only [State.log]
@[simp] theorem log_mem (k c d : Nat) : (s.log k c d).mem = s.mem := by simp only [State.log]
@[simp] theorem log_badUnits (k c d : Nat) : (s.log k c d).badUnits = s.badUnits := by simp only [State.log]
@[simp] theorem log_pins (k c d : Nat) : (s.log k c d).pins = s.pins := by simp only [State.log]
@[simp] theorem log_tick (k c d : Nat) : (s.log k c d).tick = s.tick := by simp only [State.log]
@[simp] theorem log_fd (k c d : Nat) : (s.log k c d).fd = s.fd := by simp only [State.log]
@[simp] theorem log_rg (k c d : Nat) : (s.log k c d).rg = s.rg := by simp only [State.log]
@[simp] theorem log_wk (k c d : Nat) : (s.log k c d).wk = s.wk := by simp only [State.log]
@[simp] theorem log_deed (k c d : Nat) : (s.log k c d).deed = s.deed := by simp only [State.log]
@[simp] theorem log_xlat (k c d : Nat) : (s.log k c d).xlat = s.xlat := by simp only [State.log]
@[simp] theorem log_att (k c d : Nat) : (s.log k c d).att = s.att := by simp only [State.log]
@[simp] theorem log_strm (k c d : Nat) : (s.log k c d).strm = s.strm := by simp only [State.log]
@[simp] theorem log_gal (k c d : Nat) : (s.log k c d).gal = s.gal := by simp only [State.log]
@[simp] theorem log_por (k c d : Nat) : (s.log k c d).por = s.por := by simp only [State.log]
@[simp] theorem log_pwr (k c d : Nat) : (s.log k c d).pwr = s.pwr := by simp only [State.log]
@[simp] theorem log_rst (k c d : Nat) : (s.log k c d).rst = s.rst := by simp only [State.log]
@[simp] theorem log_flash (k c d : Nat) : (s.log k c d).flash = s.flash := by simp only [State.log]
@[simp] theorem log_fuses (k c d : Nat) : (s.log k c d).fuses = s.fuses := by simp only [State.log]
@[simp] theorem log_sec (k c d : Nat) : (s.log k c d).sec = s.sec := by simp only [State.log]
@[simp] theorem log_pw (k c d : Nat) : (s.log k c d).pw = s.pw := by simp only [State.log]
@[simp] theorem log_fb (k c d : Nat) : (s.log k c d).fb = s.fb := by simp only [State.log]

@[simp] theorem setRec_pending (i : Nat) (r : FaultRec) : (s.setRec i r).pending = s.pending := (rfl)
@[simp] theorem setRec_now (i : Nat) (r : FaultRec) : (s.setRec i r).now = s.now := (rfl)
@[simp] theorem setRec_free (i : Nat) (r : FaultRec) : (s.setRec i r).free = s.free := (rfl)
@[simp] theorem setRec_regs (i : Nat) (r : FaultRec) : (s.setRec i r).regs = s.regs := (rfl)
@[simp] theorem setRec_readData (i : Nat) (r : FaultRec) : (s.setRec i r).readData = s.readData := (rfl)
@[simp] theorem setRec_mem (i : Nat) (r : FaultRec) : (s.setRec i r).mem = s.mem := (rfl)
@[simp] theorem setRec_badUnits (i : Nat) (r : FaultRec) : (s.setRec i r).badUnits = s.badUnits := (rfl)
@[simp] theorem setRec_pins (i : Nat) (r : FaultRec) : (s.setRec i r).pins = s.pins := (rfl)
@[simp] theorem setRec_tick (i : Nat) (r : FaultRec) : (s.setRec i r).tick = s.tick := (rfl)
@[simp] theorem setRec_fd (i : Nat) (r : FaultRec) : (s.setRec i r).fd = s.fd := (rfl)
@[simp] theorem setRec_rg (i : Nat) (r : FaultRec) : (s.setRec i r).rg = s.rg := (rfl)
@[simp] theorem setRec_wk (i : Nat) (r : FaultRec) : (s.setRec i r).wk = s.wk := (rfl)
@[simp] theorem setRec_deed (i : Nat) (r : FaultRec) : (s.setRec i r).deed = s.deed := (rfl)
@[simp] theorem setRec_xlat (i : Nat) (r : FaultRec) : (s.setRec i r).xlat = s.xlat := (rfl)
@[simp] theorem setRec_att (i : Nat) (r : FaultRec) : (s.setRec i r).att = s.att := (rfl)
@[simp] theorem setRec_strm (i : Nat) (r : FaultRec) : (s.setRec i r).strm = s.strm := (rfl)
@[simp] theorem setRec_gal (i : Nat) (r : FaultRec) : (s.setRec i r).gal = s.gal := (rfl)
@[simp] theorem setRec_por (i : Nat) (r : FaultRec) : (s.setRec i r).por = s.por := (rfl)
@[simp] theorem setRec_pwr (i : Nat) (r : FaultRec) : (s.setRec i r).pwr = s.pwr := (rfl)
@[simp] theorem setRec_rst (i : Nat) (r : FaultRec) : (s.setRec i r).rst = s.rst := (rfl)
@[simp] theorem setRec_flash (i : Nat) (r : FaultRec) : (s.setRec i r).flash = s.flash := (rfl)
@[simp] theorem setRec_fuses (i : Nat) (r : FaultRec) : (s.setRec i r).fuses = s.fuses := (rfl)
@[simp] theorem setRec_sty (i : Nat) (r : FaultRec) : (s.setRec i r).sty = s.sty := (rfl)
@[simp] theorem setRec_sec (i : Nat) (r : FaultRec) : (s.setRec i r).sec = s.sec := (rfl)
@[simp] theorem setRec_pw (i : Nat) (r : FaultRec) : (s.setRec i r).pw = s.pw := (rfl)

@[simp] theorem settle_pending : (s.settle).pending = s.pending := (rfl)
@[simp] theorem settle_now : (s.settle).now = s.now := (rfl)
@[simp] theorem settle_free : (s.settle).free = s.free := (rfl)
@[simp] theorem settle_regs : (s.settle).regs = s.regs := (rfl)
@[simp] theorem settle_readData : (s.settle).readData = s.readData := (rfl)
@[simp] theorem settle_mem : (s.settle).mem = s.mem := (rfl)
@[simp] theorem settle_badUnits : (s.settle).badUnits = s.badUnits := (rfl)
@[simp] theorem settle_tick : (s.settle).tick = s.tick := (rfl)
@[simp] theorem settle_fd : (s.settle).fd = s.fd := (rfl)
@[simp] theorem settle_rg : (s.settle).rg = s.rg := (rfl)
@[simp] theorem settle_wk : (s.settle).wk = s.wk := (rfl)
@[simp] theorem settle_deed : (s.settle).deed = s.deed := (rfl)
@[simp] theorem settle_xlat : (s.settle).xlat = s.xlat := (rfl)
@[simp] theorem settle_att : (s.settle).att = s.att := (rfl)
@[simp] theorem settle_strm : (s.settle).strm = s.strm := (rfl)
@[simp] theorem settle_gal : (s.settle).gal = s.gal := (rfl)
@[simp] theorem settle_por : (s.settle).por = s.por := (rfl)
@[simp] theorem settle_pwr : (s.settle).pwr = s.pwr := (rfl)
@[simp] theorem settle_rst : (s.settle).rst = s.rst := (rfl)
@[simp] theorem settle_flash : (s.settle).flash = s.flash := (rfl)
@[simp] theorem settle_fuses : (s.settle).fuses = s.fuses := (rfl)
@[simp] theorem settle_sty : (s.settle).sty = s.sty := (rfl)
@[simp] theorem settle_sec : (s.settle).sec = s.sec := (rfl)
@[simp] theorem settle_pw : (s.settle).pw = s.pw := (rfl)
@[simp] theorem settle_fb : (s.settle).fb = s.fb := (rfl)

@[simp] theorem setChan_pending (c : Nat) (x : FdChan) : (s.setChan c x).pending = s.pending := (rfl)
@[simp] theorem setChan_now (c : Nat) (x : FdChan) : (s.setChan c x).now = s.now := (rfl)
@[simp] theorem setChan_free (c : Nat) (x : FdChan) : (s.setChan c x).free = s.free := (rfl)
@[simp] theorem setChan_regs (c : Nat) (x : FdChan) : (s.setChan c x).regs = s.regs := (rfl)
@[simp] theorem setChan_readData (c : Nat) (x : FdChan) : (s.setChan c x).readData = s.readData := (rfl)
@[simp] theorem setChan_mem (c : Nat) (x : FdChan) : (s.setChan c x).mem = s.mem := (rfl)
@[simp] theorem setChan_badUnits (c : Nat) (x : FdChan) : (s.setChan c x).badUnits = s.badUnits := (rfl)
@[simp] theorem setChan_pins (c : Nat) (x : FdChan) : (s.setChan c x).pins = s.pins := (rfl)
@[simp] theorem setChan_tick (c : Nat) (x : FdChan) : (s.setChan c x).tick = s.tick := (rfl)
@[simp] theorem setChan_rg (c : Nat) (x : FdChan) : (s.setChan c x).rg = s.rg := (rfl)
@[simp] theorem setChan_wk (c : Nat) (x : FdChan) : (s.setChan c x).wk = s.wk := (rfl)
@[simp] theorem setChan_deed (c : Nat) (x : FdChan) : (s.setChan c x).deed = s.deed := (rfl)
@[simp] theorem setChan_xlat (c : Nat) (x : FdChan) : (s.setChan c x).xlat = s.xlat := (rfl)
@[simp] theorem setChan_att (c : Nat) (x : FdChan) : (s.setChan c x).att = s.att := (rfl)
@[simp] theorem setChan_strm (c : Nat) (x : FdChan) : (s.setChan c x).strm = s.strm := (rfl)
@[simp] theorem setChan_gal (c : Nat) (x : FdChan) : (s.setChan c x).gal = s.gal := (rfl)
@[simp] theorem setChan_por (c : Nat) (x : FdChan) : (s.setChan c x).por = s.por := (rfl)
@[simp] theorem setChan_pwr (c : Nat) (x : FdChan) : (s.setChan c x).pwr = s.pwr := (rfl)
@[simp] theorem setChan_rst (c : Nat) (x : FdChan) : (s.setChan c x).rst = s.rst := (rfl)
@[simp] theorem setChan_flash (c : Nat) (x : FdChan) : (s.setChan c x).flash = s.flash := (rfl)
@[simp] theorem setChan_fuses (c : Nat) (x : FdChan) : (s.setChan c x).fuses = s.fuses := (rfl)
@[simp] theorem setChan_sty (c : Nat) (x : FdChan) : (s.setChan c x).sty = s.sty := (rfl)
@[simp] theorem setChan_sec (c : Nat) (x : FdChan) : (s.setChan c x).sec = s.sec := (rfl)
@[simp] theorem setChan_pw (c : Nat) (x : FdChan) : (s.setChan c x).pw = s.pw := (rfl)
@[simp] theorem setChan_fb (c : Nat) (x : FdChan) : (s.setChan c x).fb = s.fb := (rfl)

@[simp] theorem setDeed_pending (page e : Nat) : (s.setDeed page e).pending = s.pending := (rfl)
@[simp] theorem setDeed_now (page e : Nat) : (s.setDeed page e).now = s.now := (rfl)
@[simp] theorem setDeed_free (page e : Nat) : (s.setDeed page e).free = s.free := (rfl)
@[simp] theorem setDeed_regs (page e : Nat) : (s.setDeed page e).regs = s.regs := (rfl)
@[simp] theorem setDeed_readData (page e : Nat) : (s.setDeed page e).readData = s.readData := (rfl)
@[simp] theorem setDeed_mem (page e : Nat) : (s.setDeed page e).mem = s.mem := (rfl)
@[simp] theorem setDeed_badUnits (page e : Nat) : (s.setDeed page e).badUnits = s.badUnits := (rfl)
@[simp] theorem setDeed_pins (page e : Nat) : (s.setDeed page e).pins = s.pins := (rfl)
@[simp] theorem setDeed_tick (page e : Nat) : (s.setDeed page e).tick = s.tick := (rfl)
@[simp] theorem setDeed_fd (page e : Nat) : (s.setDeed page e).fd = s.fd := (rfl)
@[simp] theorem setDeed_rg (page e : Nat) : (s.setDeed page e).rg = s.rg := (rfl)
@[simp] theorem setDeed_wk (page e : Nat) : (s.setDeed page e).wk = s.wk := (rfl)
@[simp] theorem setDeed_xlat (page e : Nat) : (s.setDeed page e).xlat = s.xlat := (rfl)
@[simp] theorem setDeed_att (page e : Nat) : (s.setDeed page e).att = s.att := (rfl)
@[simp] theorem setDeed_strm (page e : Nat) : (s.setDeed page e).strm = s.strm := (rfl)
@[simp] theorem setDeed_gal (page e : Nat) : (s.setDeed page e).gal = s.gal := (rfl)
@[simp] theorem setDeed_por (page e : Nat) : (s.setDeed page e).por = s.por := (rfl)
@[simp] theorem setDeed_pwr (page e : Nat) : (s.setDeed page e).pwr = s.pwr := (rfl)
@[simp] theorem setDeed_rst (page e : Nat) : (s.setDeed page e).rst = s.rst := (rfl)
@[simp] theorem setDeed_flash (page e : Nat) : (s.setDeed page e).flash = s.flash := (rfl)
@[simp] theorem setDeed_fuses (page e : Nat) : (s.setDeed page e).fuses = s.fuses := (rfl)
@[simp] theorem setDeed_sty (page e : Nat) : (s.setDeed page e).sty = s.sty := (rfl)
@[simp] theorem setDeed_sec (page e : Nat) : (s.setDeed page e).sec = s.sec := (rfl)
@[simp] theorem setDeed_pw (page e : Nat) : (s.setDeed page e).pw = s.pw := (rfl)
@[simp] theorem setDeed_fb (page e : Nat) : (s.setDeed page e).fb = s.fb := (rfl)

@[simp] theorem setSq_pending (n : Nat) (x : SqSt) : (s.setSq n x).pending = s.pending := (rfl)
@[simp] theorem setSq_now (n : Nat) (x : SqSt) : (s.setSq n x).now = s.now := (rfl)
@[simp] theorem setSq_free (n : Nat) (x : SqSt) : (s.setSq n x).free = s.free := (rfl)
@[simp] theorem setSq_regs (n : Nat) (x : SqSt) : (s.setSq n x).regs = s.regs := (rfl)
@[simp] theorem setSq_readData (n : Nat) (x : SqSt) : (s.setSq n x).readData = s.readData := (rfl)
@[simp] theorem setSq_mem (n : Nat) (x : SqSt) : (s.setSq n x).mem = s.mem := (rfl)
@[simp] theorem setSq_badUnits (n : Nat) (x : SqSt) : (s.setSq n x).badUnits = s.badUnits := (rfl)
@[simp] theorem setSq_pins (n : Nat) (x : SqSt) : (s.setSq n x).pins = s.pins := (rfl)
@[simp] theorem setSq_tick (n : Nat) (x : SqSt) : (s.setSq n x).tick = s.tick := (rfl)
@[simp] theorem setSq_fd (n : Nat) (x : SqSt) : (s.setSq n x).fd = s.fd := (rfl)
@[simp] theorem setSq_wk (n : Nat) (x : SqSt) : (s.setSq n x).wk = s.wk := (rfl)
@[simp] theorem setSq_deed (n : Nat) (x : SqSt) : (s.setSq n x).deed = s.deed := (rfl)
@[simp] theorem setSq_xlat (n : Nat) (x : SqSt) : (s.setSq n x).xlat = s.xlat := (rfl)
@[simp] theorem setSq_att (n : Nat) (x : SqSt) : (s.setSq n x).att = s.att := (rfl)
@[simp] theorem setSq_strm (n : Nat) (x : SqSt) : (s.setSq n x).strm = s.strm := (rfl)
@[simp] theorem setSq_gal (n : Nat) (x : SqSt) : (s.setSq n x).gal = s.gal := (rfl)
@[simp] theorem setSq_por (n : Nat) (x : SqSt) : (s.setSq n x).por = s.por := (rfl)
@[simp] theorem setSq_pwr (n : Nat) (x : SqSt) : (s.setSq n x).pwr = s.pwr := (rfl)
@[simp] theorem setSq_rst (n : Nat) (x : SqSt) : (s.setSq n x).rst = s.rst := (rfl)
@[simp] theorem setSq_flash (n : Nat) (x : SqSt) : (s.setSq n x).flash = s.flash := (rfl)
@[simp] theorem setSq_fuses (n : Nat) (x : SqSt) : (s.setSq n x).fuses = s.fuses := (rfl)
@[simp] theorem setSq_sty (n : Nat) (x : SqSt) : (s.setSq n x).sty = s.sty := (rfl)
@[simp] theorem setSq_sec (n : Nat) (x : SqSt) : (s.setSq n x).sec = s.sec := (rfl)
@[simp] theorem setSq_pw (n : Nat) (x : SqSt) : (s.setSq n x).pw = s.pw := (rfl)
@[simp] theorem setSq_fb (n : Nat) (x : SqSt) : (s.setSq n x).fb = s.fb := (rfl)

@[simp] theorem setCq_pending (n : Nat) (x : CqSt) : (s.setCq n x).pending = s.pending := (rfl)
@[simp] theorem setCq_now (n : Nat) (x : CqSt) : (s.setCq n x).now = s.now := (rfl)
@[simp] theorem setCq_free (n : Nat) (x : CqSt) : (s.setCq n x).free = s.free := (rfl)
@[simp] theorem setCq_regs (n : Nat) (x : CqSt) : (s.setCq n x).regs = s.regs := (rfl)
@[simp] theorem setCq_readData (n : Nat) (x : CqSt) : (s.setCq n x).readData = s.readData := (rfl)
@[simp] theorem setCq_mem (n : Nat) (x : CqSt) : (s.setCq n x).mem = s.mem := (rfl)
@[simp] theorem setCq_badUnits (n : Nat) (x : CqSt) : (s.setCq n x).badUnits = s.badUnits := (rfl)
@[simp] theorem setCq_pins (n : Nat) (x : CqSt) : (s.setCq n x).pins = s.pins := (rfl)
@[simp] theorem setCq_tick (n : Nat) (x : CqSt) : (s.setCq n x).tick = s.tick := (rfl)
@[simp] theorem setCq_fd (n : Nat) (x : CqSt) : (s.setCq n x).fd = s.fd := (rfl)
@[simp] theorem setCq_wk (n : Nat) (x : CqSt) : (s.setCq n x).wk = s.wk := (rfl)
@[simp] theorem setCq_deed (n : Nat) (x : CqSt) : (s.setCq n x).deed = s.deed := (rfl)
@[simp] theorem setCq_xlat (n : Nat) (x : CqSt) : (s.setCq n x).xlat = s.xlat := (rfl)
@[simp] theorem setCq_att (n : Nat) (x : CqSt) : (s.setCq n x).att = s.att := (rfl)
@[simp] theorem setCq_strm (n : Nat) (x : CqSt) : (s.setCq n x).strm = s.strm := (rfl)
@[simp] theorem setCq_gal (n : Nat) (x : CqSt) : (s.setCq n x).gal = s.gal := (rfl)
@[simp] theorem setCq_por (n : Nat) (x : CqSt) : (s.setCq n x).por = s.por := (rfl)
@[simp] theorem setCq_pwr (n : Nat) (x : CqSt) : (s.setCq n x).pwr = s.pwr := (rfl)
@[simp] theorem setCq_rst (n : Nat) (x : CqSt) : (s.setCq n x).rst = s.rst := (rfl)
@[simp] theorem setCq_flash (n : Nat) (x : CqSt) : (s.setCq n x).flash = s.flash := (rfl)
@[simp] theorem setCq_fuses (n : Nat) (x : CqSt) : (s.setCq n x).fuses = s.fuses := (rfl)
@[simp] theorem setCq_sty (n : Nat) (x : CqSt) : (s.setCq n x).sty = s.sty := (rfl)
@[simp] theorem setCq_sec (n : Nat) (x : CqSt) : (s.setCq n x).sec = s.sec := (rfl)
@[simp] theorem setCq_pw (n : Nat) (x : CqSt) : (s.setCq n x).pw = s.pw := (rfl)
@[simp] theorem setCq_fb (n : Nat) (x : CqSt) : (s.setCq n x).fb = s.fb := (rfl)

@[simp] theorem reserve_pending (n : Nat) : (s.reserve n).pending = s.pending := (rfl)
@[simp] theorem reserve_now (n : Nat) : (s.reserve n).now = s.now := (rfl)
@[simp] theorem reserve_free (n : Nat) : (s.reserve n).free = s.free := (rfl)
@[simp] theorem reserve_regs (n : Nat) : (s.reserve n).regs = s.regs := (rfl)
@[simp] theorem reserve_readData (n : Nat) : (s.reserve n).readData = s.readData := (rfl)
@[simp] theorem reserve_mem (n : Nat) : (s.reserve n).mem = s.mem := (rfl)
@[simp] theorem reserve_badUnits (n : Nat) : (s.reserve n).badUnits = s.badUnits := (rfl)
@[simp] theorem reserve_pins (n : Nat) : (s.reserve n).pins = s.pins := (rfl)
@[simp] theorem reserve_tick (n : Nat) : (s.reserve n).tick = s.tick := (rfl)
@[simp] theorem reserve_fd (n : Nat) : (s.reserve n).fd = s.fd := (rfl)
@[simp] theorem reserve_wk (n : Nat) : (s.reserve n).wk = s.wk := (rfl)
@[simp] theorem reserve_deed (n : Nat) : (s.reserve n).deed = s.deed := (rfl)
@[simp] theorem reserve_xlat (n : Nat) : (s.reserve n).xlat = s.xlat := (rfl)
@[simp] theorem reserve_att (n : Nat) : (s.reserve n).att = s.att := (rfl)
@[simp] theorem reserve_strm (n : Nat) : (s.reserve n).strm = s.strm := (rfl)
@[simp] theorem reserve_gal (n : Nat) : (s.reserve n).gal = s.gal := (rfl)
@[simp] theorem reserve_por (n : Nat) : (s.reserve n).por = s.por := (rfl)
@[simp] theorem reserve_pwr (n : Nat) : (s.reserve n).pwr = s.pwr := (rfl)
@[simp] theorem reserve_rst (n : Nat) : (s.reserve n).rst = s.rst := (rfl)
@[simp] theorem reserve_flash (n : Nat) : (s.reserve n).flash = s.flash := (rfl)
@[simp] theorem reserve_fuses (n : Nat) : (s.reserve n).fuses = s.fuses := (rfl)
@[simp] theorem reserve_sty (n : Nat) : (s.reserve n).sty = s.sty := (rfl)
@[simp] theorem reserve_sec (n : Nat) : (s.reserve n).sec = s.sec := (rfl)
@[simp] theorem reserve_pw (n : Nat) : (s.reserve n).pw = s.pw := (rfl)
@[simp] theorem reserve_fb (n : Nat) : (s.reserve n).fb = s.fb := (rfl)

@[simp] theorem release_pending (n : Nat) : (s.release n).pending = s.pending := (rfl)
@[simp] theorem release_now (n : Nat) : (s.release n).now = s.now := (rfl)
@[simp] theorem release_free (n : Nat) : (s.release n).free = s.free := (rfl)
@[simp] theorem release_regs (n : Nat) : (s.release n).regs = s.regs := (rfl)
@[simp] theorem release_readData (n : Nat) : (s.release n).readData = s.readData := (rfl)
@[simp] theorem release_mem (n : Nat) : (s.release n).mem = s.mem := (rfl)
@[simp] theorem release_badUnits (n : Nat) : (s.release n).badUnits = s.badUnits := (rfl)
@[simp] theorem release_pins (n : Nat) : (s.release n).pins = s.pins := (rfl)
@[simp] theorem release_tick (n : Nat) : (s.release n).tick = s.tick := (rfl)
@[simp] theorem release_fd (n : Nat) : (s.release n).fd = s.fd := (rfl)
@[simp] theorem release_wk (n : Nat) : (s.release n).wk = s.wk := (rfl)
@[simp] theorem release_deed (n : Nat) : (s.release n).deed = s.deed := (rfl)
@[simp] theorem release_xlat (n : Nat) : (s.release n).xlat = s.xlat := (rfl)
@[simp] theorem release_att (n : Nat) : (s.release n).att = s.att := (rfl)
@[simp] theorem release_strm (n : Nat) : (s.release n).strm = s.strm := (rfl)
@[simp] theorem release_gal (n : Nat) : (s.release n).gal = s.gal := (rfl)
@[simp] theorem release_por (n : Nat) : (s.release n).por = s.por := (rfl)
@[simp] theorem release_pwr (n : Nat) : (s.release n).pwr = s.pwr := (rfl)
@[simp] theorem release_rst (n : Nat) : (s.release n).rst = s.rst := (rfl)
@[simp] theorem release_flash (n : Nat) : (s.release n).flash = s.flash := (rfl)
@[simp] theorem release_fuses (n : Nat) : (s.release n).fuses = s.fuses := (rfl)
@[simp] theorem release_sty (n : Nat) : (s.release n).sty = s.sty := (rfl)
@[simp] theorem release_sec (n : Nat) : (s.release n).sec = s.sec := (rfl)
@[simp] theorem release_pw (n : Nat) : (s.release n).pw = s.pw := (rfl)
@[simp] theorem release_fb (n : Nat) : (s.release n).fb = s.fb := (rfl)

@[simp] theorem mapWork_pending (id : Nat) (f : Work → Work) : (s.mapWork id f).pending = s.pending := (rfl)
@[simp] theorem mapWork_now (id : Nat) (f : Work → Work) : (s.mapWork id f).now = s.now := (rfl)
@[simp] theorem mapWork_free (id : Nat) (f : Work → Work) : (s.mapWork id f).free = s.free := (rfl)
@[simp] theorem mapWork_regs (id : Nat) (f : Work → Work) : (s.mapWork id f).regs = s.regs := (rfl)
@[simp] theorem mapWork_readData (id : Nat) (f : Work → Work) : (s.mapWork id f).readData = s.readData := (rfl)
@[simp] theorem mapWork_mem (id : Nat) (f : Work → Work) : (s.mapWork id f).mem = s.mem := (rfl)
@[simp] theorem mapWork_badUnits (id : Nat) (f : Work → Work) : (s.mapWork id f).badUnits = s.badUnits := (rfl)
@[simp] theorem mapWork_pins (id : Nat) (f : Work → Work) : (s.mapWork id f).pins = s.pins := (rfl)
@[simp] theorem mapWork_tick (id : Nat) (f : Work → Work) : (s.mapWork id f).tick = s.tick := (rfl)
@[simp] theorem mapWork_fd (id : Nat) (f : Work → Work) : (s.mapWork id f).fd = s.fd := (rfl)
@[simp] theorem mapWork_rg (id : Nat) (f : Work → Work) : (s.mapWork id f).rg = s.rg := (rfl)
@[simp] theorem mapWork_deed (id : Nat) (f : Work → Work) : (s.mapWork id f).deed = s.deed := (rfl)
@[simp] theorem mapWork_xlat (id : Nat) (f : Work → Work) : (s.mapWork id f).xlat = s.xlat := (rfl)
@[simp] theorem mapWork_att (id : Nat) (f : Work → Work) : (s.mapWork id f).att = s.att := (rfl)
@[simp] theorem mapWork_strm (id : Nat) (f : Work → Work) : (s.mapWork id f).strm = s.strm := (rfl)
@[simp] theorem mapWork_gal (id : Nat) (f : Work → Work) : (s.mapWork id f).gal = s.gal := (rfl)
@[simp] theorem mapWork_por (id : Nat) (f : Work → Work) : (s.mapWork id f).por = s.por := (rfl)
@[simp] theorem mapWork_pwr (id : Nat) (f : Work → Work) : (s.mapWork id f).pwr = s.pwr := (rfl)
@[simp] theorem mapWork_rst (id : Nat) (f : Work → Work) : (s.mapWork id f).rst = s.rst := (rfl)
@[simp] theorem mapWork_flash (id : Nat) (f : Work → Work) : (s.mapWork id f).flash = s.flash := (rfl)
@[simp] theorem mapWork_fuses (id : Nat) (f : Work → Work) : (s.mapWork id f).fuses = s.fuses := (rfl)
@[simp] theorem mapWork_sty (id : Nat) (f : Work → Work) : (s.mapWork id f).sty = s.sty := (rfl)
@[simp] theorem mapWork_sec (id : Nat) (f : Work → Work) : (s.mapWork id f).sec = s.sec := (rfl)
@[simp] theorem mapWork_pw (id : Nat) (f : Work → Work) : (s.mapWork id f).pw = s.pw := (rfl)
@[simp] theorem mapWork_fb (id : Nat) (f : Work → Work) : (s.mapWork id f).fb = s.fb := (rfl)

@[simp] theorem mapWorks_pending (f : Work → Work) : (s.mapWorks f).pending = s.pending := (rfl)
@[simp] theorem mapWorks_now (f : Work → Work) : (s.mapWorks f).now = s.now := (rfl)
@[simp] theorem mapWorks_free (f : Work → Work) : (s.mapWorks f).free = s.free := (rfl)
@[simp] theorem mapWorks_regs (f : Work → Work) : (s.mapWorks f).regs = s.regs := (rfl)
@[simp] theorem mapWorks_readData (f : Work → Work) : (s.mapWorks f).readData = s.readData := (rfl)
@[simp] theorem mapWorks_mem (f : Work → Work) : (s.mapWorks f).mem = s.mem := (rfl)
@[simp] theorem mapWorks_badUnits (f : Work → Work) : (s.mapWorks f).badUnits = s.badUnits := (rfl)
@[simp] theorem mapWorks_pins (f : Work → Work) : (s.mapWorks f).pins = s.pins := (rfl)
@[simp] theorem mapWorks_tick (f : Work → Work) : (s.mapWorks f).tick = s.tick := (rfl)
@[simp] theorem mapWorks_fd (f : Work → Work) : (s.mapWorks f).fd = s.fd := (rfl)
@[simp] theorem mapWorks_rg (f : Work → Work) : (s.mapWorks f).rg = s.rg := (rfl)
@[simp] theorem mapWorks_deed (f : Work → Work) : (s.mapWorks f).deed = s.deed := (rfl)
@[simp] theorem mapWorks_xlat (f : Work → Work) : (s.mapWorks f).xlat = s.xlat := (rfl)
@[simp] theorem mapWorks_att (f : Work → Work) : (s.mapWorks f).att = s.att := (rfl)
@[simp] theorem mapWorks_strm (f : Work → Work) : (s.mapWorks f).strm = s.strm := (rfl)
@[simp] theorem mapWorks_gal (f : Work → Work) : (s.mapWorks f).gal = s.gal := (rfl)
@[simp] theorem mapWorks_por (f : Work → Work) : (s.mapWorks f).por = s.por := (rfl)
@[simp] theorem mapWorks_pwr (f : Work → Work) : (s.mapWorks f).pwr = s.pwr := (rfl)
@[simp] theorem mapWorks_rst (f : Work → Work) : (s.mapWorks f).rst = s.rst := (rfl)
@[simp] theorem mapWorks_flash (f : Work → Work) : (s.mapWorks f).flash = s.flash := (rfl)
@[simp] theorem mapWorks_fuses (f : Work → Work) : (s.mapWorks f).fuses = s.fuses := (rfl)
@[simp] theorem mapWorks_sty (f : Work → Work) : (s.mapWorks f).sty = s.sty := (rfl)
@[simp] theorem mapWorks_sec (f : Work → Work) : (s.mapWorks f).sec = s.sec := (rfl)
@[simp] theorem mapWorks_pw (f : Work → Work) : (s.mapWorks f).pw = s.pw := (rfl)
@[simp] theorem mapWorks_fb (f : Work → Work) : (s.mapWorks f).fb = s.fb := (rfl)

@[simp] theorem addWork_pending (w : Work) : (s.addWork w).pending = s.pending := (rfl)
@[simp] theorem addWork_now (w : Work) : (s.addWork w).now = s.now := (rfl)
@[simp] theorem addWork_free (w : Work) : (s.addWork w).free = s.free := (rfl)
@[simp] theorem addWork_regs (w : Work) : (s.addWork w).regs = s.regs := (rfl)
@[simp] theorem addWork_readData (w : Work) : (s.addWork w).readData = s.readData := (rfl)
@[simp] theorem addWork_mem (w : Work) : (s.addWork w).mem = s.mem := (rfl)
@[simp] theorem addWork_badUnits (w : Work) : (s.addWork w).badUnits = s.badUnits := (rfl)
@[simp] theorem addWork_pins (w : Work) : (s.addWork w).pins = s.pins := (rfl)
@[simp] theorem addWork_tick (w : Work) : (s.addWork w).tick = s.tick := (rfl)
@[simp] theorem addWork_fd (w : Work) : (s.addWork w).fd = s.fd := (rfl)
@[simp] theorem addWork_rg (w : Work) : (s.addWork w).rg = s.rg := (rfl)
@[simp] theorem addWork_deed (w : Work) : (s.addWork w).deed = s.deed := (rfl)
@[simp] theorem addWork_xlat (w : Work) : (s.addWork w).xlat = s.xlat := (rfl)
@[simp] theorem addWork_att (w : Work) : (s.addWork w).att = s.att := (rfl)
@[simp] theorem addWork_strm (w : Work) : (s.addWork w).strm = s.strm := (rfl)
@[simp] theorem addWork_gal (w : Work) : (s.addWork w).gal = s.gal := (rfl)
@[simp] theorem addWork_por (w : Work) : (s.addWork w).por = s.por := (rfl)
@[simp] theorem addWork_pwr (w : Work) : (s.addWork w).pwr = s.pwr := (rfl)
@[simp] theorem addWork_rst (w : Work) : (s.addWork w).rst = s.rst := (rfl)
@[simp] theorem addWork_flash (w : Work) : (s.addWork w).flash = s.flash := (rfl)
@[simp] theorem addWork_fuses (w : Work) : (s.addWork w).fuses = s.fuses := (rfl)
@[simp] theorem addWork_sty (w : Work) : (s.addWork w).sty = s.sty := (rfl)
@[simp] theorem addWork_sec (w : Work) : (s.addWork w).sec = s.sec := (rfl)
@[simp] theorem addWork_pw (w : Work) : (s.addWork w).pw = s.pw := (rfl)
@[simp] theorem addWork_fb (w : Work) : (s.addWork w).fb = s.fb := (rfl)

@[simp] theorem addPlace_pending (p : PlaceJob) : (s.addPlace p).pending = s.pending := (rfl)
@[simp] theorem addPlace_now (p : PlaceJob) : (s.addPlace p).now = s.now := (rfl)
@[simp] theorem addPlace_free (p : PlaceJob) : (s.addPlace p).free = s.free := (rfl)
@[simp] theorem addPlace_regs (p : PlaceJob) : (s.addPlace p).regs = s.regs := (rfl)
@[simp] theorem addPlace_readData (p : PlaceJob) : (s.addPlace p).readData = s.readData := (rfl)
@[simp] theorem addPlace_mem (p : PlaceJob) : (s.addPlace p).mem = s.mem := (rfl)
@[simp] theorem addPlace_badUnits (p : PlaceJob) : (s.addPlace p).badUnits = s.badUnits := (rfl)
@[simp] theorem addPlace_pins (p : PlaceJob) : (s.addPlace p).pins = s.pins := (rfl)
@[simp] theorem addPlace_tick (p : PlaceJob) : (s.addPlace p).tick = s.tick := (rfl)
@[simp] theorem addPlace_fd (p : PlaceJob) : (s.addPlace p).fd = s.fd := (rfl)
@[simp] theorem addPlace_rg (p : PlaceJob) : (s.addPlace p).rg = s.rg := (rfl)
@[simp] theorem addPlace_deed (p : PlaceJob) : (s.addPlace p).deed = s.deed := (rfl)
@[simp] theorem addPlace_xlat (p : PlaceJob) : (s.addPlace p).xlat = s.xlat := (rfl)
@[simp] theorem addPlace_att (p : PlaceJob) : (s.addPlace p).att = s.att := (rfl)
@[simp] theorem addPlace_strm (p : PlaceJob) : (s.addPlace p).strm = s.strm := (rfl)
@[simp] theorem addPlace_gal (p : PlaceJob) : (s.addPlace p).gal = s.gal := (rfl)
@[simp] theorem addPlace_por (p : PlaceJob) : (s.addPlace p).por = s.por := (rfl)
@[simp] theorem addPlace_pwr (p : PlaceJob) : (s.addPlace p).pwr = s.pwr := (rfl)
@[simp] theorem addPlace_rst (p : PlaceJob) : (s.addPlace p).rst = s.rst := (rfl)
@[simp] theorem addPlace_flash (p : PlaceJob) : (s.addPlace p).flash = s.flash := (rfl)
@[simp] theorem addPlace_fuses (p : PlaceJob) : (s.addPlace p).fuses = s.fuses := (rfl)
@[simp] theorem addPlace_sty (p : PlaceJob) : (s.addPlace p).sty = s.sty := (rfl)
@[simp] theorem addPlace_sec (p : PlaceJob) : (s.addPlace p).sec = s.sec := (rfl)
@[simp] theorem addPlace_pw (p : PlaceJob) : (s.addPlace p).pw = s.pw := (rfl)
@[simp] theorem addPlace_fb (p : PlaceJob) : (s.addPlace p).fb = s.fb := (rfl)

@[simp] theorem setGalPort_pending (p : Nat) (g : GalPort) : (s.setGalPort p g).pending = s.pending := (rfl)
@[simp] theorem setGalPort_now (p : Nat) (g : GalPort) : (s.setGalPort p g).now = s.now := (rfl)
@[simp] theorem setGalPort_free (p : Nat) (g : GalPort) : (s.setGalPort p g).free = s.free := (rfl)
@[simp] theorem setGalPort_regs (p : Nat) (g : GalPort) : (s.setGalPort p g).regs = s.regs := (rfl)
@[simp] theorem setGalPort_readData (p : Nat) (g : GalPort) : (s.setGalPort p g).readData = s.readData := (rfl)
@[simp] theorem setGalPort_mem (p : Nat) (g : GalPort) : (s.setGalPort p g).mem = s.mem := (rfl)
@[simp] theorem setGalPort_badUnits (p : Nat) (g : GalPort) : (s.setGalPort p g).badUnits = s.badUnits := (rfl)
@[simp] theorem setGalPort_pins (p : Nat) (g : GalPort) : (s.setGalPort p g).pins = s.pins := (rfl)
@[simp] theorem setGalPort_tick (p : Nat) (g : GalPort) : (s.setGalPort p g).tick = s.tick := (rfl)
@[simp] theorem setGalPort_fd (p : Nat) (g : GalPort) : (s.setGalPort p g).fd = s.fd := (rfl)
@[simp] theorem setGalPort_rg (p : Nat) (g : GalPort) : (s.setGalPort p g).rg = s.rg := (rfl)
@[simp] theorem setGalPort_wk (p : Nat) (g : GalPort) : (s.setGalPort p g).wk = s.wk := (rfl)
@[simp] theorem setGalPort_deed (p : Nat) (g : GalPort) : (s.setGalPort p g).deed = s.deed := (rfl)
@[simp] theorem setGalPort_xlat (p : Nat) (g : GalPort) : (s.setGalPort p g).xlat = s.xlat := (rfl)
@[simp] theorem setGalPort_att (p : Nat) (g : GalPort) : (s.setGalPort p g).att = s.att := (rfl)
@[simp] theorem setGalPort_strm (p : Nat) (g : GalPort) : (s.setGalPort p g).strm = s.strm := (rfl)
@[simp] theorem setGalPort_por (p : Nat) (g : GalPort) : (s.setGalPort p g).por = s.por := (rfl)
@[simp] theorem setGalPort_pwr (p : Nat) (g : GalPort) : (s.setGalPort p g).pwr = s.pwr := (rfl)
@[simp] theorem setGalPort_rst (p : Nat) (g : GalPort) : (s.setGalPort p g).rst = s.rst := (rfl)
@[simp] theorem setGalPort_flash (p : Nat) (g : GalPort) : (s.setGalPort p g).flash = s.flash := (rfl)
@[simp] theorem setGalPort_fuses (p : Nat) (g : GalPort) : (s.setGalPort p g).fuses = s.fuses := (rfl)
@[simp] theorem setGalPort_sty (p : Nat) (g : GalPort) : (s.setGalPort p g).sty = s.sty := (rfl)
@[simp] theorem setGalPort_sec (p : Nat) (g : GalPort) : (s.setGalPort p g).sec = s.sec := (rfl)
@[simp] theorem setGalPort_pw (p : Nat) (g : GalPort) : (s.setGalPort p g).pw = s.pw := (rfl)
@[simp] theorem setGalPort_fb (p : Nat) (g : GalPort) : (s.setGalPort p g).fb = s.fb := (rfl)

@[simp] theorem setGalIn_pending (i : Nat) (g : GalIn) : (s.setGalIn i g).pending = s.pending := (rfl)
@[simp] theorem setGalIn_now (i : Nat) (g : GalIn) : (s.setGalIn i g).now = s.now := (rfl)
@[simp] theorem setGalIn_free (i : Nat) (g : GalIn) : (s.setGalIn i g).free = s.free := (rfl)
@[simp] theorem setGalIn_regs (i : Nat) (g : GalIn) : (s.setGalIn i g).regs = s.regs := (rfl)
@[simp] theorem setGalIn_readData (i : Nat) (g : GalIn) : (s.setGalIn i g).readData = s.readData := (rfl)
@[simp] theorem setGalIn_mem (i : Nat) (g : GalIn) : (s.setGalIn i g).mem = s.mem := (rfl)
@[simp] theorem setGalIn_badUnits (i : Nat) (g : GalIn) : (s.setGalIn i g).badUnits = s.badUnits := (rfl)
@[simp] theorem setGalIn_pins (i : Nat) (g : GalIn) : (s.setGalIn i g).pins = s.pins := (rfl)
@[simp] theorem setGalIn_tick (i : Nat) (g : GalIn) : (s.setGalIn i g).tick = s.tick := (rfl)
@[simp] theorem setGalIn_fd (i : Nat) (g : GalIn) : (s.setGalIn i g).fd = s.fd := (rfl)
@[simp] theorem setGalIn_rg (i : Nat) (g : GalIn) : (s.setGalIn i g).rg = s.rg := (rfl)
@[simp] theorem setGalIn_wk (i : Nat) (g : GalIn) : (s.setGalIn i g).wk = s.wk := (rfl)
@[simp] theorem setGalIn_deed (i : Nat) (g : GalIn) : (s.setGalIn i g).deed = s.deed := (rfl)
@[simp] theorem setGalIn_xlat (i : Nat) (g : GalIn) : (s.setGalIn i g).xlat = s.xlat := (rfl)
@[simp] theorem setGalIn_att (i : Nat) (g : GalIn) : (s.setGalIn i g).att = s.att := (rfl)
@[simp] theorem setGalIn_strm (i : Nat) (g : GalIn) : (s.setGalIn i g).strm = s.strm := (rfl)
@[simp] theorem setGalIn_por (i : Nat) (g : GalIn) : (s.setGalIn i g).por = s.por := (rfl)
@[simp] theorem setGalIn_pwr (i : Nat) (g : GalIn) : (s.setGalIn i g).pwr = s.pwr := (rfl)
@[simp] theorem setGalIn_rst (i : Nat) (g : GalIn) : (s.setGalIn i g).rst = s.rst := (rfl)
@[simp] theorem setGalIn_flash (i : Nat) (g : GalIn) : (s.setGalIn i g).flash = s.flash := (rfl)
@[simp] theorem setGalIn_fuses (i : Nat) (g : GalIn) : (s.setGalIn i g).fuses = s.fuses := (rfl)
@[simp] theorem setGalIn_sty (i : Nat) (g : GalIn) : (s.setGalIn i g).sty = s.sty := (rfl)
@[simp] theorem setGalIn_sec (i : Nat) (g : GalIn) : (s.setGalIn i g).sec = s.sec := (rfl)
@[simp] theorem setGalIn_pw (i : Nat) (g : GalIn) : (s.setGalIn i g).pw = s.pw := (rfl)
@[simp] theorem setGalIn_fb (i : Nat) (g : GalIn) : (s.setGalIn i g).fb = s.fb := (rfl)

@[simp] theorem setGalOut_pending (o : Nat) (g : GalOut) : (s.setGalOut o g).pending = s.pending := (rfl)
@[simp] theorem setGalOut_now (o : Nat) (g : GalOut) : (s.setGalOut o g).now = s.now := (rfl)
@[simp] theorem setGalOut_free (o : Nat) (g : GalOut) : (s.setGalOut o g).free = s.free := (rfl)
@[simp] theorem setGalOut_regs (o : Nat) (g : GalOut) : (s.setGalOut o g).regs = s.regs := (rfl)
@[simp] theorem setGalOut_readData (o : Nat) (g : GalOut) : (s.setGalOut o g).readData = s.readData := (rfl)
@[simp] theorem setGalOut_mem (o : Nat) (g : GalOut) : (s.setGalOut o g).mem = s.mem := (rfl)
@[simp] theorem setGalOut_badUnits (o : Nat) (g : GalOut) : (s.setGalOut o g).badUnits = s.badUnits := (rfl)
@[simp] theorem setGalOut_pins (o : Nat) (g : GalOut) : (s.setGalOut o g).pins = s.pins := (rfl)
@[simp] theorem setGalOut_tick (o : Nat) (g : GalOut) : (s.setGalOut o g).tick = s.tick := (rfl)
@[simp] theorem setGalOut_fd (o : Nat) (g : GalOut) : (s.setGalOut o g).fd = s.fd := (rfl)
@[simp] theorem setGalOut_rg (o : Nat) (g : GalOut) : (s.setGalOut o g).rg = s.rg := (rfl)
@[simp] theorem setGalOut_wk (o : Nat) (g : GalOut) : (s.setGalOut o g).wk = s.wk := (rfl)
@[simp] theorem setGalOut_deed (o : Nat) (g : GalOut) : (s.setGalOut o g).deed = s.deed := (rfl)
@[simp] theorem setGalOut_xlat (o : Nat) (g : GalOut) : (s.setGalOut o g).xlat = s.xlat := (rfl)
@[simp] theorem setGalOut_att (o : Nat) (g : GalOut) : (s.setGalOut o g).att = s.att := (rfl)
@[simp] theorem setGalOut_strm (o : Nat) (g : GalOut) : (s.setGalOut o g).strm = s.strm := (rfl)
@[simp] theorem setGalOut_por (o : Nat) (g : GalOut) : (s.setGalOut o g).por = s.por := (rfl)
@[simp] theorem setGalOut_pwr (o : Nat) (g : GalOut) : (s.setGalOut o g).pwr = s.pwr := (rfl)
@[simp] theorem setGalOut_rst (o : Nat) (g : GalOut) : (s.setGalOut o g).rst = s.rst := (rfl)
@[simp] theorem setGalOut_flash (o : Nat) (g : GalOut) : (s.setGalOut o g).flash = s.flash := (rfl)
@[simp] theorem setGalOut_fuses (o : Nat) (g : GalOut) : (s.setGalOut o g).fuses = s.fuses := (rfl)
@[simp] theorem setGalOut_sty (o : Nat) (g : GalOut) : (s.setGalOut o g).sty = s.sty := (rfl)
@[simp] theorem setGalOut_sec (o : Nat) (g : GalOut) : (s.setGalOut o g).sec = s.sec := (rfl)
@[simp] theorem setGalOut_pw (o : Nat) (g : GalOut) : (s.setGalOut o g).pw = s.pw := (rfl)
@[simp] theorem setGalOut_fb (o : Nat) (g : GalOut) : (s.setGalOut o g).fb = s.fb := (rfl)

@[simp] theorem setPwPort_pending (p : Nat) (x : PwPort) : (s.setPwPort p x).pending = s.pending := (rfl)
@[simp] theorem setPwPort_now (p : Nat) (x : PwPort) : (s.setPwPort p x).now = s.now := (rfl)
@[simp] theorem setPwPort_free (p : Nat) (x : PwPort) : (s.setPwPort p x).free = s.free := (rfl)
@[simp] theorem setPwPort_regs (p : Nat) (x : PwPort) : (s.setPwPort p x).regs = s.regs := (rfl)
@[simp] theorem setPwPort_readData (p : Nat) (x : PwPort) : (s.setPwPort p x).readData = s.readData := (rfl)
@[simp] theorem setPwPort_mem (p : Nat) (x : PwPort) : (s.setPwPort p x).mem = s.mem := (rfl)
@[simp] theorem setPwPort_badUnits (p : Nat) (x : PwPort) : (s.setPwPort p x).badUnits = s.badUnits := (rfl)
@[simp] theorem setPwPort_pins (p : Nat) (x : PwPort) : (s.setPwPort p x).pins = s.pins := (rfl)
@[simp] theorem setPwPort_tick (p : Nat) (x : PwPort) : (s.setPwPort p x).tick = s.tick := (rfl)
@[simp] theorem setPwPort_fd (p : Nat) (x : PwPort) : (s.setPwPort p x).fd = s.fd := (rfl)
@[simp] theorem setPwPort_rg (p : Nat) (x : PwPort) : (s.setPwPort p x).rg = s.rg := (rfl)
@[simp] theorem setPwPort_wk (p : Nat) (x : PwPort) : (s.setPwPort p x).wk = s.wk := (rfl)
@[simp] theorem setPwPort_deed (p : Nat) (x : PwPort) : (s.setPwPort p x).deed = s.deed := (rfl)
@[simp] theorem setPwPort_xlat (p : Nat) (x : PwPort) : (s.setPwPort p x).xlat = s.xlat := (rfl)
@[simp] theorem setPwPort_att (p : Nat) (x : PwPort) : (s.setPwPort p x).att = s.att := (rfl)
@[simp] theorem setPwPort_strm (p : Nat) (x : PwPort) : (s.setPwPort p x).strm = s.strm := (rfl)
@[simp] theorem setPwPort_gal (p : Nat) (x : PwPort) : (s.setPwPort p x).gal = s.gal := (rfl)
@[simp] theorem setPwPort_por (p : Nat) (x : PwPort) : (s.setPwPort p x).por = s.por := (rfl)
@[simp] theorem setPwPort_pwr (p : Nat) (x : PwPort) : (s.setPwPort p x).pwr = s.pwr := (rfl)
@[simp] theorem setPwPort_rst (p : Nat) (x : PwPort) : (s.setPwPort p x).rst = s.rst := (rfl)
@[simp] theorem setPwPort_flash (p : Nat) (x : PwPort) : (s.setPwPort p x).flash = s.flash := (rfl)
@[simp] theorem setPwPort_fuses (p : Nat) (x : PwPort) : (s.setPwPort p x).fuses = s.fuses := (rfl)
@[simp] theorem setPwPort_sty (p : Nat) (x : PwPort) : (s.setPwPort p x).sty = s.sty := (rfl)
@[simp] theorem setPwPort_sec (p : Nat) (x : PwPort) : (s.setPwPort p x).sec = s.sec := (rfl)
@[simp] theorem setPwPort_fb (p : Nat) (x : PwPort) : (s.setPwPort p x).fb = s.fb := (rfl)

@[simp] theorem setPwJob_pending (j : Nat) (x : PwJob) : (s.setPwJob j x).pending = s.pending := (rfl)
@[simp] theorem setPwJob_now (j : Nat) (x : PwJob) : (s.setPwJob j x).now = s.now := (rfl)
@[simp] theorem setPwJob_free (j : Nat) (x : PwJob) : (s.setPwJob j x).free = s.free := (rfl)
@[simp] theorem setPwJob_regs (j : Nat) (x : PwJob) : (s.setPwJob j x).regs = s.regs := (rfl)
@[simp] theorem setPwJob_readData (j : Nat) (x : PwJob) : (s.setPwJob j x).readData = s.readData := (rfl)
@[simp] theorem setPwJob_mem (j : Nat) (x : PwJob) : (s.setPwJob j x).mem = s.mem := (rfl)
@[simp] theorem setPwJob_badUnits (j : Nat) (x : PwJob) : (s.setPwJob j x).badUnits = s.badUnits := (rfl)
@[simp] theorem setPwJob_pins (j : Nat) (x : PwJob) : (s.setPwJob j x).pins = s.pins := (rfl)
@[simp] theorem setPwJob_tick (j : Nat) (x : PwJob) : (s.setPwJob j x).tick = s.tick := (rfl)
@[simp] theorem setPwJob_fd (j : Nat) (x : PwJob) : (s.setPwJob j x).fd = s.fd := (rfl)
@[simp] theorem setPwJob_rg (j : Nat) (x : PwJob) : (s.setPwJob j x).rg = s.rg := (rfl)
@[simp] theorem setPwJob_wk (j : Nat) (x : PwJob) : (s.setPwJob j x).wk = s.wk := (rfl)
@[simp] theorem setPwJob_deed (j : Nat) (x : PwJob) : (s.setPwJob j x).deed = s.deed := (rfl)
@[simp] theorem setPwJob_xlat (j : Nat) (x : PwJob) : (s.setPwJob j x).xlat = s.xlat := (rfl)
@[simp] theorem setPwJob_att (j : Nat) (x : PwJob) : (s.setPwJob j x).att = s.att := (rfl)
@[simp] theorem setPwJob_strm (j : Nat) (x : PwJob) : (s.setPwJob j x).strm = s.strm := (rfl)
@[simp] theorem setPwJob_gal (j : Nat) (x : PwJob) : (s.setPwJob j x).gal = s.gal := (rfl)
@[simp] theorem setPwJob_por (j : Nat) (x : PwJob) : (s.setPwJob j x).por = s.por := (rfl)
@[simp] theorem setPwJob_pwr (j : Nat) (x : PwJob) : (s.setPwJob j x).pwr = s.pwr := (rfl)
@[simp] theorem setPwJob_rst (j : Nat) (x : PwJob) : (s.setPwJob j x).rst = s.rst := (rfl)
@[simp] theorem setPwJob_flash (j : Nat) (x : PwJob) : (s.setPwJob j x).flash = s.flash := (rfl)
@[simp] theorem setPwJob_fuses (j : Nat) (x : PwJob) : (s.setPwJob j x).fuses = s.fuses := (rfl)
@[simp] theorem setPwJob_sty (j : Nat) (x : PwJob) : (s.setPwJob j x).sty = s.sty := (rfl)
@[simp] theorem setPwJob_sec (j : Nat) (x : PwJob) : (s.setPwJob j x).sec = s.sec := (rfl)
@[simp] theorem setPwJob_fb (j : Nat) (x : PwJob) : (s.setPwJob j x).fb = s.fb := (rfl)

@[simp] theorem setUpdate_pending (x : Update) : (s.setUpdate x).pending = s.pending := (rfl)
@[simp] theorem setUpdate_now (x : Update) : (s.setUpdate x).now = s.now := (rfl)
@[simp] theorem setUpdate_free (x : Update) : (s.setUpdate x).free = s.free := (rfl)
@[simp] theorem setUpdate_regs (x : Update) : (s.setUpdate x).regs = s.regs := (rfl)
@[simp] theorem setUpdate_readData (x : Update) : (s.setUpdate x).readData = s.readData := (rfl)
@[simp] theorem setUpdate_mem (x : Update) : (s.setUpdate x).mem = s.mem := (rfl)
@[simp] theorem setUpdate_badUnits (x : Update) : (s.setUpdate x).badUnits = s.badUnits := (rfl)
@[simp] theorem setUpdate_pins (x : Update) : (s.setUpdate x).pins = s.pins := (rfl)
@[simp] theorem setUpdate_tick (x : Update) : (s.setUpdate x).tick = s.tick := (rfl)
@[simp] theorem setUpdate_fd (x : Update) : (s.setUpdate x).fd = s.fd := (rfl)
@[simp] theorem setUpdate_rg (x : Update) : (s.setUpdate x).rg = s.rg := (rfl)
@[simp] theorem setUpdate_wk (x : Update) : (s.setUpdate x).wk = s.wk := (rfl)
@[simp] theorem setUpdate_deed (x : Update) : (s.setUpdate x).deed = s.deed := (rfl)
@[simp] theorem setUpdate_xlat (x : Update) : (s.setUpdate x).xlat = s.xlat := (rfl)
@[simp] theorem setUpdate_att (x : Update) : (s.setUpdate x).att = s.att := (rfl)
@[simp] theorem setUpdate_strm (x : Update) : (s.setUpdate x).strm = s.strm := (rfl)
@[simp] theorem setUpdate_gal (x : Update) : (s.setUpdate x).gal = s.gal := (rfl)
@[simp] theorem setUpdate_por (x : Update) : (s.setUpdate x).por = s.por := (rfl)
@[simp] theorem setUpdate_pwr (x : Update) : (s.setUpdate x).pwr = s.pwr := (rfl)
@[simp] theorem setUpdate_rst (x : Update) : (s.setUpdate x).rst = s.rst := (rfl)
@[simp] theorem setUpdate_flash (x : Update) : (s.setUpdate x).flash = s.flash := (rfl)
@[simp] theorem setUpdate_fuses (x : Update) : (s.setUpdate x).fuses = s.fuses := (rfl)
@[simp] theorem setUpdate_sec (x : Update) : (s.setUpdate x).sec = s.sec := (rfl)
@[simp] theorem setUpdate_pw (x : Update) : (s.setUpdate x).pw = s.pw := (rfl)
@[simp] theorem setUpdate_fb (x : Update) : (s.setUpdate x).fb = s.fb := (rfl)

@[simp] theorem setGenState_pending (k : Nat) (g : GenState) : (s.setGenState k g).pending = s.pending := (rfl)
@[simp] theorem setGenState_now (k : Nat) (g : GenState) : (s.setGenState k g).now = s.now := (rfl)
@[simp] theorem setGenState_free (k : Nat) (g : GenState) : (s.setGenState k g).free = s.free := (rfl)
@[simp] theorem setGenState_regs (k : Nat) (g : GenState) : (s.setGenState k g).regs = s.regs := (rfl)
@[simp] theorem setGenState_readData (k : Nat) (g : GenState) : (s.setGenState k g).readData = s.readData := (rfl)
@[simp] theorem setGenState_mem (k : Nat) (g : GenState) : (s.setGenState k g).mem = s.mem := (rfl)
@[simp] theorem setGenState_badUnits (k : Nat) (g : GenState) : (s.setGenState k g).badUnits = s.badUnits := (rfl)
@[simp] theorem setGenState_pins (k : Nat) (g : GenState) : (s.setGenState k g).pins = s.pins := (rfl)
@[simp] theorem setGenState_tick (k : Nat) (g : GenState) : (s.setGenState k g).tick = s.tick := (rfl)
@[simp] theorem setGenState_fd (k : Nat) (g : GenState) : (s.setGenState k g).fd = s.fd := (rfl)
@[simp] theorem setGenState_rg (k : Nat) (g : GenState) : (s.setGenState k g).rg = s.rg := (rfl)
@[simp] theorem setGenState_wk (k : Nat) (g : GenState) : (s.setGenState k g).wk = s.wk := (rfl)
@[simp] theorem setGenState_deed (k : Nat) (g : GenState) : (s.setGenState k g).deed = s.deed := (rfl)
@[simp] theorem setGenState_xlat (k : Nat) (g : GenState) : (s.setGenState k g).xlat = s.xlat := (rfl)
@[simp] theorem setGenState_att (k : Nat) (g : GenState) : (s.setGenState k g).att = s.att := (rfl)
@[simp] theorem setGenState_strm (k : Nat) (g : GenState) : (s.setGenState k g).strm = s.strm := (rfl)
@[simp] theorem setGenState_gal (k : Nat) (g : GenState) : (s.setGenState k g).gal = s.gal := (rfl)
@[simp] theorem setGenState_por (k : Nat) (g : GenState) : (s.setGenState k g).por = s.por := (rfl)
@[simp] theorem setGenState_pwr (k : Nat) (g : GenState) : (s.setGenState k g).pwr = s.pwr := (rfl)
@[simp] theorem setGenState_rst (k : Nat) (g : GenState) : (s.setGenState k g).rst = s.rst := (rfl)
@[simp] theorem setGenState_fuses (k : Nat) (g : GenState) : (s.setGenState k g).fuses = s.fuses := (rfl)
@[simp] theorem setGenState_sty (k : Nat) (g : GenState) : (s.setGenState k g).sty = s.sty := (rfl)
@[simp] theorem setGenState_sec (k : Nat) (g : GenState) : (s.setGenState k g).sec = s.sec := (rfl)
@[simp] theorem setGenState_pw (k : Nat) (g : GenState) : (s.setGenState k g).pw = s.pw := (rfl)
@[simp] theorem setGenState_fb (k : Nat) (g : GenState) : (s.setGenState k g).fb = s.fb := (rfl)

end Sys2Proof.Laws
end

