-- ==== Sys2Proof/Laws/Table.lean ====
section
/-! SUPPORT. Laws of the sparse tables and byte stores: a read after a write gives what was written, a write leaves every
other place alone, and every operation keeps the canonical form. -/

namespace Sys2Proof.Laws
open Sys2Proof Sys2Proof.Machine

variable {α : Type}

/-! ### Sorted tables -/

theorem tsorted_tail {o : Option Nat} {k : Nat} {v : α} {r : Tbl α} (h : tsorted o ((k, v) :: r) = true) :
    tsorted (some k) r = true := by
  cases o <;> simp_all [tsorted]

theorem tsorted_weaken {b : Nat} {m : Tbl α} (h : tsorted (some b) m = true) : tsorted none m = true := by
  cases m with
  | nil => rfl
  | cons e r => cases e; simp_all [tsorted]

theorem tsorted_lower {a b : Nat} {m : Tbl α} (h : tsorted (some b) m = true) (hab : a ≤ b) :
    tsorted (some a) m = true := by
  cases m with
  | nil => rfl
  | cons e r => cases e; simp_all [tsorted]; omega

/-! ### Reading after writing -/

@[simp] theorem tfind_tset_same (m : Tbl α) (q : Nat) (v : α) : tfind (tset m q v) q = some v := by
  induction m with
  | nil => simp [tset, tfind]
  | cons e r ih =>
    obtain ⟨k, w⟩ := e
    simp only [tset]
    split
    · simp [tfind]
    · split
      · simp [tfind]
      · simp_all [tfind]

theorem tfind_tset_other (m : Tbl α) {p q : Nat} (v : α) (h : p ≠ q) : tfind (tset m q v) p = tfind m p := by
  induction m with
  | nil => simp [tset, tfind, h.symm]
  | cons e r ih =>
    obtain ⟨k, w⟩ := e
    simp only [tset]
    split
    · subst_vars; simp [tfind, h.symm]
    · split
      · simp [tfind, h.symm]
      · simp [tfind, ih]

@[simp] theorem tfind_tdel_same (m : Tbl α) (q : Nat) : tfind (tdel m q) q = none := by
  induction m with
  | nil => rfl
  | cons e r ih =>
    obtain ⟨k, w⟩ := e
    by_cases h : k = q <;> simp_all [tdel, tfind]

theorem tfind_tdel_other (m : Tbl α) {p q : Nat} (hpq : p ≠ q) : tfind (tdel m q) p = tfind m p := by
  induction m with
  | nil => rfl
  | cons e r ih =>
    obtain ⟨k, w⟩ := e
    by_cases h : k = q
    · subst h; simp_all [tdel, tfind, hpq.symm]
    · simp_all [tdel, tfind]

/-- A read of the key written gives the value written. -/
@[simp] theorem tget_tput_same [DecidableEq α] (m : Tbl α) (d : α) (q : Nat) (v : α) : tget (tput d m q v) q d = v := by
  unfold tput tget
  split <;> simp_all

/-- A write leaves every other key alone. -/
theorem tget_tput_other [DecidableEq α] (m : Tbl α) (d : α) {p q : Nat} (v : α) (hpq : p ≠ q) :
    tget (tput d m q v) p d = tget m p d := by
  unfold tput tget
  split
  · rw [tfind_tdel_other m hpq]
  · rw [tfind_tset_other m v hpq]

/-! ### The canonical form -/

theorem tsorted_tset {m : Tbl α} {o : Option Nat} (h : tsorted o m = true) {q : Nat} (v : α) (ho : ∀ b, o = some b → b < q) :
    tsorted o (tset m q v) = true := by
  induction m generalizing o with
  | nil => cases o <;> simp_all [tset, tsorted]
  | cons e r ih =>
    obtain ⟨k, w⟩ := e
    simp only [tset]
    split
    · subst_vars; cases o <;> simp_all [tsorted]
    · split
      · cases o <;> simp_all [tsorted]
      · have := ih (tsorted_tail h) (by intro b hb; injection hb; omega)
        cases o <;> simp_all [tsorted]

theorem tsorted_filter {m : Tbl α} {o : Option Nat} (h : tsorted o m = true) (p : Nat × α → Bool) :
    tsorted o (m.filter p) = true := by
  induction m generalizing o with
  | nil => cases o <;> rfl
  | cons e r ih =>
    obtain ⟨k, w⟩ := e
    have hr := tsorted_tail h
    simp only [List.filter]
    split
    · have := ih hr
      cases o <;> simp_all [tsorted]
    · cases o with
      | none => exact ih (tsorted_weaken hr)
      | some b =>
        simp [tsorted] at h
        exact ih (tsorted_lower hr (by omega))

theorem tsorted_tdel {m : Tbl α} {o : Option Nat} (h : tsorted o m = true) (q : Nat) : tsorted o (tdel m q) = true :=
  tsorted_filter h _

theorem tsorted_tput [DecidableEq α] {m : Tbl α} (h : tsorted none m = true) (d : α) (q : Nat) (v : α) :
    tsorted none (tput d m q v) = true := by
  unfold tput
  split
  · exact tsorted_tdel h q
  · exact tsorted_tset h v (by simp)

theorem mem_tset {m : Tbl α} {q : Nat} {v : α} {e : Nat × α} (h : e ∈ tset m q v) : e = (q, v) ∨ e ∈ m := by
  induction m with
  | nil => simp_all [tset]
  | cons x r ih =>
    obtain ⟨k, w⟩ := x
    simp only [tset] at h
    split at h
    · simp_all; tauto
    · split at h
      · simp_all
      · simp_all; tauto

theorem mem_tdel {m : Tbl α} {q : Nat} {e : Nat × α} (h : e ∈ tdel m q) : e ∈ m := (List.mem_filter.1 h).1

/-! ### Byte stores -/

/-- A store of one byte keeps the canonical form. -/
theorem wf_tput {m : Mem} (h : Mem.wf m = true) (k : Nat) (b : Byte) : Mem.wf (tput 0 m k b) = true := by
  simp only [Mem.wf, Bool.and_eq_true] at h ⊢
  refine ⟨tsorted_tput h.1 0 k b, ?_⟩
  rw [List.all_eq_true] at h ⊢
  intro e he
  unfold tput at he
  split at he
  · exact h.2 e (mem_tdel he)
  · rcases mem_tset he with rfl | h1
    · simpa
    · exact h.2 e h1

/-- A store of bytes keeps the canonical form. -/
theorem wf_mwrite {m : Mem} (h : Mem.wf m = true) (k : Nat) (bs : List Byte) : Mem.wf (mwrite m k bs) = true := by
  induction bs generalizing m k with
  | nil => exact h
  | cons b r ih => exact ih (wf_tput h k b) (k + 1)

/-- Losing a range keeps the canonical form. -/
theorem wf_tclear {m : Mem} (h : Mem.wf m = true) (lo n : Nat) : Mem.wf (tclear m lo n) = true := by
  simp only [Mem.wf, Bool.and_eq_true] at h ⊢
  refine ⟨tsorted_filter h.1 _, ?_⟩
  rw [List.all_eq_true] at h ⊢
  intro e he
  exact h.2 e (List.mem_filter.1 he).1

/-- Losing the contents of a space keeps the canonical form. -/
theorem wf_loseBytes (s : State) (h : Mem.wf s.mem = true) (space off n : Nat) : Mem.wf (s.loseBytes space off n).mem = true :=
  wf_tclear h _ _

theorem mread_length (m : Mem) (k n : Nat) : (mread m k n).length = n := by
  induction n generalizing k with
  | zero => rfl
  | succ n ih => simp [mread, ih]

/-- A store leaves every byte outside it as it was. -/
theorem tget_mwrite_out (m : Mem) (k : Nat) (bs : List Byte) {p : Nat} (hp : p < k ∨ k + bs.length ≤ p) :
    tget (mwrite m k bs) p 0 = tget m p 0 := by
  induction bs generalizing m k with
  | nil => rfl
  | cons b r ih =>
    simp only [List.length_cons] at hp
    rw [mwrite, ih _ (k + 1) (by omega), tget_tput_other m 0 b (by omega)]

/-- Every byte of a store reads as it was written. -/
theorem tget_mwrite_in (m : Mem) (k : Nat) (bs : List Byte) {i : Nat} (hi : i < bs.length) :
    tget (mwrite m k bs) (k + i) 0 = bs[i] := by
  induction bs generalizing m k i with
  | nil => simp at hi
  | cons b r ih =>
    cases i with
    | zero => rw [mwrite, tget_mwrite_out _ (k + 1) r (by omega), Nat.add_zero, tget_tput_same]; rfl
    | succ i =>
      have := ih (tput 0 m k b) (k + 1) (i := i) (by simpa using hi)
      rw [mwrite, show k + (i + 1) = k + 1 + i by omega, this]
      rfl

/-- Reset memory is in canonical form. -/
theorem wf_reset : Mem.wf State.reset.mem = true := rfl

/-! ### Lists of slots -/

@[simp] theorem lset_length (l : List α) (i : Nat) (v : α) : (lset l i v).length = l.length := by
  induction l generalizing i with
  | nil => rfl
  | cons x r ih => cases i <;> simp [lset, ih]

theorem lget_lset_same (l : List α) {i : Nat} (v d : α) (h : i < l.length) : lget (lset l i v) i d = v := by
  induction l generalizing i with
  | nil => simp at h
  | cons x r ih =>
    cases i with
    | zero => rfl
    | succ i => simpa [lset, lget] using ih (by simpa using h)

theorem lget_lset_other (l : List α) {i j : Nat} (v d : α) (h : j ≠ i) : lget (lset l i v) j d = lget l j d := by
  induction l generalizing i j with
  | nil => rfl
  | cons x r ih =>
    cases i <;> cases j
    · exact absurd rfl h
    · rfl
    · rfl
    · rename_i i j; simpa [lset, lget] using ih (by omega)

end Sys2Proof.Laws
end

