-- ==== Sys2Proof/Laws/Bits.lean ====
section
/-! SUPPORT. Bit fields and registers: what a field reads after a field, a word or a count has been written. -/

namespace Sys2Proof.Laws
open Sys2Proof Sys2Proof.Machine

theorem bitsAt_lt (x lo w : Nat) : bitsAt x lo w < 2 ^ w := Nat.mod_lt _ (Nat.two_pow_pos w)

theorem testBit_bitsAt (x lo w i : Nat) : (bitsAt x lo w).testBit i = (decide (i < w) && x.testBit (lo + i)) := by
  simp [bitsAt, Nat.testBit_mod_two_pow, Nat.testBit_shiftRight]

/-- Clearing and setting bits one by one. -/
theorem putBits_eq (x lo w v : Nat) :
    putBits x lo w v = 2 ^ (lo + w) * (x / 2 ^ (lo + w)) + 2 ^ lo * (v % 2 ^ w) + x % 2 ^ lo := by
  have hx : x = 2 ^ (lo + w) * (x / 2 ^ (lo + w)) + 2 ^ lo * bitsAt x lo w + x % 2 ^ lo := by
    have h1 := Nat.div_add_mod x (2 ^ lo)
    have h2 := Nat.div_add_mod (x / 2 ^ lo) (2 ^ w)
    rw [Nat.div_div_eq_div_mul, ← Nat.pow_add] at h2
    unfold bitsAt
    rw [Nat.shiftRight_eq_div_pow]
    calc x = 2 ^ lo * (x / 2 ^ lo) + x % 2 ^ lo := h1.symm
      _ = 2 ^ lo * (2 ^ w * (x / 2 ^ (lo + w)) + x / 2 ^ lo % 2 ^ w) + x % 2 ^ lo := by rw [h2]
      _ = _ := by rw [Nat.mul_add, ← Nat.mul_assoc, ← Nat.pow_add]
  unfold putBits
  rw [Nat.shiftLeft_eq, Nat.shiftLeft_eq, Nat.mul_comm (bitsAt x lo w), Nat.mul_comm (v % 2 ^ w)]
  omega

theorem testBit_putBits (x lo w v i : Nat) :
    (putBits x lo w v).testBit i = if lo ≤ i ∧ i < lo + w then v.testBit (i - lo) else x.testBit i := by
  rw [putBits_eq]
  have hlow : 2 ^ lo * (v % 2 ^ w) + x % 2 ^ lo < 2 ^ (lo + w) := by
    have h1 : v % 2 ^ w + 1 ≤ 2 ^ w := Nat.mod_lt _ (Nat.two_pow_pos w)
    have h2 : x % 2 ^ lo < 2 ^ lo := Nat.mod_lt _ (Nat.two_pow_pos lo)
    have h3 : 2 ^ lo * (v % 2 ^ w + 1) ≤ 2 ^ lo * 2 ^ w := Nat.mul_le_mul_left _ h1
    rw [Nat.pow_add]
    rw [Nat.mul_add] at h3
    omega
  rw [Nat.add_assoc, Nat.testBit_two_pow_mul_add _ hlow,
    Nat.testBit_two_pow_mul_add _ (Nat.mod_lt _ (Nat.two_pow_pos lo))]
  simp only [Nat.testBit_div_two_pow, Nat.testBit_mod_two_pow]
  by_cases h1 : i < lo
  · have : ¬ lo ≤ i := by omega
    have h3 : i < lo + w := by omega
    simp [h1, this, h3]
  · by_cases h2 : i < lo + w
    · have : lo ≤ i := by omega
      have h4 : i - lo < w := by omega
      simp [h1, h2, this, h4]
    · have h4 : i - (lo + w) + (lo + w) = i := by omega
      simp [h2, h4]

theorem bitsAt_putBits_same (x lo w v : Nat) : bitsAt (putBits x lo w v) lo w = v % 2 ^ w := by
  apply Nat.eq_of_testBit_eq
  intro i
  rw [testBit_bitsAt, testBit_putBits, Nat.testBit_mod_two_pow]
  by_cases h : i < w
  · simp [h]
  · simp [h]

theorem bitsAt_putBits_other (x lo w v lo' w' : Nat) (h : lo + w ≤ lo' ∨ lo' + w' ≤ lo) :
    bitsAt (putBits x lo w v) lo' w' = bitsAt x lo' w' := by
  apply Nat.eq_of_testBit_eq
  intro i
  rw [testBit_bitsAt, testBit_putBits, testBit_bitsAt]
  by_cases hi : i < w'
  · have : ¬ (lo ≤ lo' + i ∧ lo' + i < lo + w) := by omega
    simp [this]
  · simp [hi]

theorem putBits_lt (x lo w v n : Nat) (h : x < 2 ^ n) (hw : lo + w ≤ n) : putBits x lo w v < 2 ^ n := by
  apply Nat.lt_pow_two_of_testBit
  intro i hi
  rw [testBit_putBits]
  have : ¬ (lo ≤ i ∧ i < lo + w) := by omega
  simp only [this, if_false]
  exact Nat.testBit_lt_two_pow (Nat.lt_of_lt_of_le h (Nat.pow_le_pow_right (by decide) hi))

/-! ### Registers -/

@[simp] theorem word_setWord_same (s : State) (off : Nat) (w : Word) : (s.setWord off w).word off = w :=
  tget_tput_same s.regs 0 off w

theorem word_setWord_other (s : State) {off o : Nat} (w : Word) (ho : o ≠ off) : (s.setWord off w).word o = s.word o :=
  tget_tput_other s.regs 0 w ho

/-- A field reads what was stored in it. -/
theorem reg_setReg_same (s : State) (f : Field) (v : Nat) (hf : f.lo + f.width ≤ 32) :
    (s.setReg f v).reg f = v % 2 ^ f.width := by
  unfold State.reg State.setReg
  rw [word_setWord_same, BitVec.toNat_ofNat,
    Nat.mod_eq_of_lt (putBits_lt _ _ _ _ _ (s.word f.off).isLt hf), bitsAt_putBits_same]

/-- A field keeps its value when another field is stored. -/
theorem reg_setReg_other (s : State) (f g : Field) (v : Nat) (hf : f.lo + f.width ≤ 32)
    (hg : g.off ≠ f.off ∨ f.lo + f.width ≤ g.lo ∨ g.lo + g.width ≤ f.lo) : (s.setReg f v).reg g = s.reg g := by
  unfold State.reg State.setReg
  by_cases ho : g.off = f.off
  · rw [ho, word_setWord_same, BitVec.toNat_ofNat,
      Nat.mod_eq_of_lt (putBits_lt _ _ _ _ _ (s.word f.off).isLt hf), bitsAt_putBits_other]
    rcases hg with hg | hg
    · exact absurd ho hg
    · exact hg
  · rw [word_setWord_other _ _ ho]

/-- A channel reads what was stored for it. -/
@[simp] theorem chan_setChan_same (s : State) (c : Fin 4) (x : FdChan) : (s.setChan c x).chan c = x := by
  simp [State.chan, State.setChan]

/-- A channel keeps its state when another channel is stored. -/
theorem chan_setChan_other (s : State) {c d : Nat} (x : FdChan) (h : d ≠ c) : (s.setChan c x).chan d = s.chan d := by
  simp [State.chan, State.setChan, h.symm]

@[simp] theorem setChan_setChan (s : State) (c : Nat) (x y : FdChan) : (s.setChan c x).setChan c y = s.setChan c y := by
  simp [State.setChan]

theorem reg_lt (s : State) (f : Field) : s.reg f < 2 ^ f.width := bitsAt_lt _ _ _

end Sys2Proof.Laws
end

