-- ==== Sys2Proof/Laws/Exec.lean ====
section
/-! SUPPORT. What each command does, in one line: the state that its meaning leaves, from which the machine goes on. A proof
about a command starts from its lemma here and never unfolds the dispatch. -/

namespace Sys2Proof.Laws
open Sys2Proof Sys2Proof.Machine

theorem runs_timerBoundary (t : Nat) (s : State) :
    Runs (.timerBoundary t) s ((s.at_ t).timerTick) := rfl

theorem runs_tickSourceEdge (t : Nat) (src : EdgeSrc) (s : State) :
    Runs (.tickSourceEdge t src) s ((s.at_ t).sourceEdge src) := rfl

theorem runs_substituteBoundary (t : Nat) (s : State) :
    Runs (.substituteBoundary t) s ((s.at_ t).substituteTick) := rfl

theorem runs_vehicleTimeBoundary (t : Nat) (s : State) :
    Runs (.vehicleTimeBoundary t) s ((s.at_ t).vehicleTick) := rfl

theorem runs_tickCtrlWrite (t : Nat) (v : Word) (s : State) :
    Runs (.tickCtrlWrite t v) s ((s.at_ t).hostWrite 0x7000 v) := rfl

theorem runs_tkNumberLoRead (t : Nat) (s : State) :
    Runs (.tkNumberLoRead t) s ((s.at_ t).hostRead 0x7018) := rfl

theorem runs_syncLost (t : Nat) (s : State) :
    Runs (.syncLost t) s ((s.at_ t).unsynced) := rfl

theorem runs_syncReported (t : Nat) (vt : BitVec 64) (s : State) :
    Runs (.syncReported t vt) s ((s.at_ t).synced vt.toNat) := rfl

theorem runs_backgroundPhaseStart (t : Nat) (s : State) :
    Runs (.backgroundPhaseStart t) s ((s.at_ t).backgroundStart) := rfl

theorem runs_budgetExpiry (t : Nat) (wing : Fin 4) (s : State) :
    Runs (.budgetExpiry t wing) s ((s.at_ t).budgetOver wing) := rfl

theorem runs_urgentLimitExpiry (t : Nat) (s : State) :
    Runs (.urgentLimitExpiry t) s ((s.at_ t).urgentOver) := rfl

theorem runs_act (t : Nat) (ch : Fin 4) (bank : Fin 16) (row : Fin 8192) (s : State) :
    Runs (.act t ch bank row) s ((s.at_ t).command ch .act bank false false fun s fit => s.activate ch bank row fit) := rfl

theorem runs_rd16 (t : Nat) (ch : Fin 4) (bank : Fin 16) (col : Fin 64) (s : State) :
    Runs (.rd16 t ch bank col) s ((s.at_ t).command ch .read bank false false fun s fit => s.readBurst ch bank (32 * col.val) 32 fit) := rfl

theorem runs_rd32 (t : Nat) (ch : Fin 4) (bank : Fin 16) (col : Fin 32) (s : State) :
    Runs (.rd32 t ch bank col) s ((s.at_ t).command ch .read bank false false fun s fit => s.readBurst ch bank (64 * col.val) 64 fit) := rfl

theorem runs_wr16 (t : Nat) (ch : Fin 4) (bank : Fin 16) (col : Fin 64) (data : BitVec 256) (ecc : LinkEcc)
    (s : State) :
    Runs (.wr16 t ch bank col data ecc) s ((s.at_ t).command ch .write bank false false fun s fit => s.writeBurst ch bank (32 * col.val) (wholeBurst 32 data.toNat) ecc fit) := rfl

theorem runs_wr32 (t : Nat) (ch : Fin 4) (bank : Fin 16) (col : Fin 32) (data : BitVec 512) (ecc : LinkEcc)
    (s : State) :
    Runs (.wr32 t ch bank col data ecc) s ((s.at_ t).command ch .write bank false false fun s fit => s.writeBurst ch bank (64 * col.val) (wholeBurst 64 data.toNat) ecc fit) := rfl

theorem runs_mwr (t : Nat) (ch : Fin 4) (bank : Fin 16) (col : Fin 64) (data : BitVec 256) (mask : BitVec 32)
    (ecc : LinkEcc) (s : State) :
    Runs (.mwr t ch bank col data mask ecc) s ((s.at_ t).command ch .masked bank false false fun s fit => s.writeBurst ch bank (32 * col.val) (maskedBurst 32 data.toNat mask.toNat) ecc fit) := rfl

theorem runs_prepb (t : Nat) (ch : Fin 4) (bank : Fin 16) (s : State) :
    Runs (.prepb t ch bank) s ((s.at_ t).command ch .pre bank false false fun s fit => s.precharge ch bank 30 fit) := rfl

theorem runs_preab (t : Nat) (ch : Fin 4) (s : State) :
    Runs (.preab t ch) s ((s.at_ t).command ch .preAll 16 false false fun s fit => s.each (List.range 16) fun s b => s.precharge ch b 33 fit) := rfl

theorem runs_refpb (t : Nat) (ch : Fin 4) (bank : Fin 16) (s : State) :
    Runs (.refpb t ch bank) s ((s.at_ t).command ch .ref bank false false fun s _ => s) := rfl

theorem runs_refab (t : Nat) (ch : Fin 4) (s : State) :
    Runs (.refab t ch) s ((s.at_ t).command ch .refAll 16 false false fun s _ => s) := rfl

theorem runs_rfm (t : Nat) (ch : Fin 4) (s : State) :
    Runs (.rfm t ch) s ((s.at_ t).command ch .rfm 16 false false fun s _ => s) := rfl

theorem runs_sre (t : Nat) (ch : Fin 4) (s : State) :
    Runs (.sre t ch) s ((s.at_ t).command ch .sre 16 false false fun s _ => s.goAway ch false) := rfl

theorem runs_srx (t : Nat) (ch : Fin 4) (s : State) :
    Runs (.srx t ch) s ((s.at_ t).command ch .srx 16 true false fun s _ => s.comeBack ch) := rfl

theorem runs_pde (t : Nat) (ch : Fin 4) (s : State) :
    Runs (.pde t ch) s ((s.at_ t).command ch .pde 16 true false fun s _ => s.setChan ch { s.chan ch with powerDown := true }) := rfl

theorem runs_pdx (t : Nat) (ch : Fin 4) (s : State) :
    Runs (.pdx t ch) s ((s.at_ t).command ch .pdx 16 true true fun s _ => s.setChan ch { s.chan ch with powerDown := false }) := rfl

theorem runs_deepSleepEntry (t : Nat) (ch : Fin 4) (s : State) :
    Runs (.deepSleepEntry t ch) s ((s.at_ t).command ch .deepIn 16 false false fun s _ => s.goAway ch true) := rfl

theorem runs_deepSleepExit (t : Nat) (ch : Fin 4) (s : State) :
    Runs (.deepSleepExit t ch) s ((s.at_ t).deepExit ch) := rfl

theorem runs_mrw (t : Nat) (ch : Fin 4) (mr : Fin 64) (v : Byte) (s : State) :
    Runs (.mrw t ch mr v) s ((s.at_ t).command ch .mrw 16 true false fun s _ => s.mrWrite ch mr v.toNat) := rfl

theorem runs_mrr (t : Nat) (ch : Fin 4) (mr : Fin 64) (s : State) :
    Runs (.mrr t ch mr) s ((s.at_ t).command ch .mrr 16 true false fun s fit => s.mrAnswer ch mr fit) := rfl

theorem runs_cas (t : Nat) (ch : Fin 4) (op : CasOp) (s : State) (h : (Instr.cas t ch op).wellFormed = true) :
    Runs (.cas t ch op) s ((s.at_ t).command ch .cas 16 true false fun s _ => s.cas ch op) := if_pos h

theorem runs_wff (t : Nat) (ch : Fin 4) (data : BitVec 256) (s : State) :
    Runs (.wff t ch data) s ((s.at_ t).command ch .wff 16 true false fun s fit => s.fifoWrite ch data fit) := rfl

theorem runs_rff (t : Nat) (ch : Fin 4) (s : State) :
    Runs (.rff t ch) s ((s.at_ t).command ch .rff 16 true false fun s fit => s.fifoRead ch fit) := rfl

theorem runs_rdc (t : Nat) (ch : Fin 4) (s : State) :
    Runs (.rdc t ch) s ((s.at_ t).command ch .rdc 16 true false fun s fit => s.readCalibration ch fit) := rfl

theorem runs_mpc (t : Nat) (ch : Fin 4) (op : MpcOp) (s : State) :
    Runs (.mpc t ch op) s ((s.at_ t).command ch .mpc 16 true false fun s _ => s.mpc ch op) := rfl

theorem runs_nop (t : Nat) (ch : Fin 4) (s : State) :
    Runs (.nop t ch) s ((s.at_ t).noCommand ch) := rfl

theorem runs_des (t : Nat) (ch : Fin 4) (s : State) :
    Runs (.des t ch) s ((s.at_ t).noCommand ch) := rfl

theorem runs_writebackStart (t : Nat) (ch : Fin 4) (s : State) :
    Runs (.writebackStart t ch) s ((s.at_ t).writeBackHead ch) := rfl

theorem runs_writebackTimeout (t : Nat) (ch : Fin 4) (s : State) :
    Runs (.writebackTimeout t ch) s ((s.at_ t).spillHead ch) := rfl

theorem runs_spillMerge (t : Nat) (s : State) :
    Runs (.spillMerge t) s ((s.at_ t).mergeSpill) := rfl

theorem runs_lpddrReset (t : Nat) (ch : Fin 4) (s : State) :
    Runs (.lpddrReset t ch) s ((s.at_ t).fdr ch) := rfl

theorem runs_windowScrub (t : Nat) (s : State) :
    Runs (.windowScrub t) s ((s.at_ t).windowScrub) := rfl

theorem runs_fdClrCnt (t : Nat) (v : Word) (s : State) :
    Runs (.fdClrCnt t v) s ((s.at_ t).hostWrite 0x5000 v) := rfl

theorem runs_sqTailDoorbell (t : Nat) (ch : Fin 4) (w : BitVec 64) (s : State) :
    Runs (.sqTailDoorbell t ch w) s ((s.at_ t).bell ch w) := rfl

theorem runs_cqHeadDoorbell (t : Nat) (ch : Fin 4) (w : BitVec 64) (s : State) :
    Runs (.cqHeadDoorbell t ch w) s ((s.at_ t).bell ch w) := rfl

theorem runs_markDoorbell (t : Nat) (ch : Fin 4) (w : BitVec 64) (s : State) :
    Runs (.markDoorbell t ch w) s ((s.at_ t).bell ch w) := rfl

theorem runs_mailboxDoorbell (t : Nat) (ch : Fin 4) (w : BitVec 64) (s : State) :
    Runs (.mailboxDoorbell t ch w) s ((s.at_ t).bell ch w) := rfl

theorem runs_mailboxReply (t : Nat) (s : State) :
    Runs (.mailboxReply t) s ((s.at_ t).mailAnswer) := rfl

theorem runs_descriptorRead (t : Nat) (sq : Fin 64) (s : State) :
    Runs (.descriptorRead t sq) s ((s.at_ t).readSlot sq) := rfl

theorem runs_arriveTimeout (t : Nat) (sq : Fin 64) (s : State) :
    Runs (.arriveTimeout t sq) s ((s.at_ t).arriveLate sq) := rfl

theorem runs_fenceTimeout (t : Nat) (sq : Fin 64) (s : State) :
    Runs (.fenceTimeout t sq) s ((s.at_ t).fenceLate sq) := rfl

theorem runs_descriptorAdmission (t : Nat) (s : State) :
    Runs (.descriptorAdmission t) s ((s.at_ t).admitNext) := rfl

theorem runs_stepList (t : Nat) (sq : Fin 64) (s : State) :
    Runs (.stepList t sq) s ((s.at_ t).admitIf sq (isOp 0x01)) := rfl

theorem runs_tickControl (t : Nat) (sq : Fin 64) (s : State) :
    Runs (.tickControl t sq) s ((s.at_ t).admitIf sq (isOp 0x02)) := rfl

theorem runs_wingTable (t : Nat) (sq : Fin 64) (s : State) :
    Runs (.wingTable t sq) s ((s.at_ t).admitIf sq (isOp 0x03)) := rfl

theorem runs_streamAway (t : Nat) (sq : Fin 64) (s : State) :
    Runs (.streamAway t sq) s ((s.at_ t).admitIf sq (isOp 0x04)) := rfl

theorem runs_streamHome (t : Nat) (sq : Fin 64) (s : State) :
    Runs (.streamHome t sq) s ((s.at_ t).admitIf sq (isOp 0x05)) := rfl

theorem runs_streamEditApply (t : Nat) (stream : Fin 16384) (s : State) :
    Runs (.streamEditApply t stream) s ((s.at_ t).strmGo stream) := rfl

theorem runs_invalidate (t : Nat) (sq : Fin 64) (s : State) :
    Runs (.invalidate t sq) s ((s.at_ t).admitIf sq (isOp 0x06)) := rfl

theorem runs_invalidateComplete (t : Nat) (s : State) :
    Runs (.invalidateComplete t) s ((s.at_ t).invalEnd) := rfl

theorem runs_place (t : Nat) (sq : Fin 64) (s : State) :
    Runs (.place t sq) s ((s.at_ t).admitIf sq (isOp 0x07)) := rfl

theorem runs_fence (t : Nat) (sq : Fin 64) (s : State) :
    Runs (.fence t sq) s ((s.at_ t).admitIf sq (isOp 0x08)) := rfl

theorem runs_armUrgent (t : Nat) (sq : Fin 64) (s : State) :
    Runs (.armUrgent t sq) s ((s.at_ t).admitIf sq (isOp 0x09)) := rfl

theorem runs_disarm (t : Nat) (sq : Fin 64) (s : State) :
    Runs (.disarm t sq) s ((s.at_ t).admitIf sq (isOp 0x0A)) := rfl

theorem runs_sequenceSet (t : Nat) (sq : Fin 64) (s : State) :
    Runs (.sequenceSet t sq) s ((s.at_ t).admitIf sq (isSeq 0)) := rfl

theorem runs_sequenceClear (t : Nat) (sq : Fin 64) (s : State) :
    Runs (.sequenceClear t sq) s ((s.at_ t).admitIf sq (isSeq 1)) := rfl

theorem runs_sequenceTruncate (t : Nat) (sq : Fin 64) (s : State) :
    Runs (.sequenceTruncate t sq) s ((s.at_ t).admitIf sq (isSeq 2)) := rfl

theorem runs_sequenceRebase (t : Nat) (sq : Fin 64) (s : State) :
    Runs (.sequenceRebase t sq) s ((s.at_ t).admitIf sq (isSeq 3)) := rfl

theorem runs_sequenceEditApply (t : Nat) (entry : Fin 65536) (s : State) :
    Runs (.sequenceEditApply t entry) s ((s.at_ t).seqGo entry) := rfl

theorem runs_tenantSwitch (t : Nat) (sq : Fin 64) (s : State) :
    Runs (.tenantSwitch t sq) s ((s.at_ t).admitIf sq (isOp 0x0C)) := rfl

theorem runs_tenantSwitchComplete (t : Nat) (s : State) :
    Runs (.tenantSwitchComplete t) s ((s.at_ t).tsrEnd) := rfl

theorem runs_perfRequest (t : Nat) (sq : Fin 64) (s : State) :
    Runs (.perfRequest t sq) s ((s.at_ t).admitIf sq (isPerf 0)) := rfl

theorem runs_perfRequestS2 (t : Nat) (sq : Fin 64) (s : State) :
    Runs (.perfRequestS2 t sq) s ((s.at_ t).admitIf sq (isPerf 2)) := rfl

theorem runs_perfRequestS3 (t : Nat) (sq : Fin 64) (s : State) :
    Runs (.perfRequestS3 t sq) s ((s.at_ t).admitIf sq (isPerf 3)) := rfl

theorem runs_sleepGraceExpiry (t : Nat) (s : State) :
    Runs (.sleepGraceExpiry t) s ((s.at_ t).sleepGo) := rfl

theorem runs_coalTimeout (t : Nat) (cq : Fin 64) (s : State) :
    Runs (.coalTimeout t cq) s ((s.at_ t).coalLate cq) := rfl

theorem runs_rgSqCfgWrite (t : Nat) (n : Fin 64) (v : Word) (s : State) :
    Runs (.rgSqCfgWrite t n v) s ((s.at_ t).hostWrite (0x6104 + 8 * n.val) v) := rfl

theorem runs_rgCqCfgWrite (t : Nat) (n : Fin 64) (v : Word) (s : State) :
    Runs (.rgCqCfgWrite t n v) s ((s.at_ t).hostWrite (0x6304 + 8 * n.val) v) := rfl

theorem runs_rgStatusRowWrite (t : Nat) (v : Word) (s : State) :
    Runs (.rgStatusRowWrite t v) s ((s.at_ t).hostWrite 0x6004 v) := rfl

theorem runs_statusRowUpdate (t : Nat) (n : Fin 64) (s : State) :
    Runs (.statusRowUpdate t n) s ((s.at_ t).statusRow n) := rfl

theorem runs_attnStatusClear (t : Nat) (v : Word) (s : State) :
    Runs (.attnStatusClear t v) s ((s.at_ t).hostWrite 0x6020 v) := rfl

theorem runs_matmul (t : Nat) (tile : Fin 16) (fail : Option (Fin 4 × Fin 66)) (s : State) :
    Runs (.matmul t tile fail) s ((s.at_ t).bayStep 1 tile fail) := rfl

theorem runs_conv (t : Nat) (tile : Fin 16) (fail : Option (Fin 4 × Fin 66)) (s : State) :
    Runs (.conv t tile fail) s ((s.at_ t).bayStep 2 tile fail) := rfl

theorem runs_dwconv (t : Nat) (tile : Fin 16) (s : State) :
    Runs (.dwconv t tile) s ((s.at_ t).startShare 3 tile) := rfl

theorem runs_vector (t : Nat) (tile : Fin 16) (s : State) :
    Runs (.vector t tile) s ((s.at_ t).startShare 4 tile) := rfl

theorem runs_attention (t : Nat) (tile : Fin 16) (s : State) :
    Runs (.attention t tile) s ((s.at_ t).startShare 5 tile) := rfl

theorem runs_scan (t : Nat) (tile : Fin 16) (s : State) :
    Runs (.scan t tile) s ((s.at_ t).startShare 6 tile) := rfl

theorem runs_scanItemComplete (t : Nat) (tile : Fin 16) (s : State) :
    Runs (.scanItemComplete t tile) s ((s.at_ t).scanItemDone tile) := rfl

theorem runs_streamHoldTimeout (t : Nat) (tile : Fin 16) (s : State) :
    Runs (.streamHoldTimeout t tile) s ((s.at_ t).scanTimeouts tile) := rfl

theorem runs_pool (t : Nat) (tile : Fin 16) (s : State) :
    Runs (.pool t tile) s ((s.at_ t).startShare 7 tile) := rfl

theorem runs_cropResize (t : Nat) (tile : Fin 16) (s : State) :
    Runs (.cropResize t tile) s ((s.at_ t).startShare 8 tile) := rfl

theorem runs_resample (t : Nat) (tile : Fin 16) (s : State) :
    Runs (.resample t tile) s ((s.at_ t).startShare 9 tile) := rfl

theorem runs_gather (t : Nat) (tile : Fin 16) (s : State) :
    Runs (.gather t tile) s ((s.at_ t).startShare 0x0A tile) := rfl

theorem runs_copy (t : Nat) (tile : Fin 16) (s : State) :
    Runs (.copy t tile) s ((s.at_ t).startShare 0x0B tile) := rfl

theorem runs_migrate (t : Nat) (tile : Fin 16) (s : State) :
    Runs (.migrate t tile) s ((s.at_ t).startShare 0x0C tile) := rfl

theorem runs_sync (t : Nat) (tile : Fin 16) (s : State) :
    Runs (.sync t tile) s ((s.at_ t).startShare 0x0D tile) := rfl

theorem runs_stepShareComplete (t : Nat) (tile : Fin 16) (s : State) :
    Runs (.stepShareComplete t tile) s ((s.at_ t).shareDone tile) := rfl

theorem runs_slabCreditReturn (t : Nat) (tile : Fin 16) (s : State) :
    Runs (.slabCreditReturn t tile) s ((s.at_ t).slabReturns tile) := rfl

theorem runs_namedTokenArrival (t : Nat) (tile : Fin 16) (token : Fin 1024) (s : State) :
    Runs (.namedTokenArrival t tile token) s ((s.at_ t).tokenArrives tile token) := rfl

theorem runs_tokenTimeout (t : Nat) (tile : Fin 16) (s : State) :
    Runs (.tokenTimeout t tile) s ((s.at_ t).tokenTimeouts tile) := rfl

theorem runs_readCreditReturn (t : Nat) (tile : Fin 16) (loc : MemLoc) (ecc : Ecc) (s : State) :
    Runs (.readCreditReturn t tile loc ecc) s ((s.at_ t).readReturns tile loc ecc) := rfl

theorem runs_quantumEnd (t : Nat) (tile : Fin 16) (s : State) :
    Runs (.quantumEnd t tile) s ((s.at_ t).quantumOver tile) := rfl

theorem runs_batchDeadline (t : Nat) (wing : Fin 4) (s : State) :
    Runs (.batchDeadline t wing) s ((s.at_ t).batchLate wing) := rfl

theorem runs_loftBandChange (t : Nat) (slice : Fin 18) (t0 t1 : BitVec 16) (s : State) :
    Runs (.loftBandChange t slice t0 t1) s ((s.at_ t).loftBand slice t0.toInt t1.toInt) := rfl

theorem runs_cellarMr4Poll (t : Nat) (ch : Fin 4) (code : Fin 4) (s : State) :
    Runs (.cellarMr4Poll t ch code) s ((s.at_ t).cellarPoll ch code) := rfl

theorem runs_cellarTrainingComplete (t : Nat) (s : State) :
    Runs (.cellarTrainingComplete t) s ((s.at_ t).cellarTrained) := rfl

theorem runs_pageMoveComplete (t : Nat) (page : BitVec 22) (bad : Option (Fin 1024)) (s : State) :
    Runs (.pageMoveComplete t page bad) s ((s.at_ t).moveEnds page.toNat bad) := rfl

theorem runs_zeroingComplete (t : Nat) (page : BitVec 22) (s : State) :
    Runs (.zeroingComplete t page) s ((s.at_ t).zeroEnds page.toNat) := rfl

theorem runs_scrubPage (t : Nat) (bad : Option (Fin 1024)) (s : State) :
    Runs (.scrubPage t bad) s ((s.at_ t).scrubNext bad) := rfl

theorem runs_mmuRootWrite (t : Nat) (hi : Bool) (v : Word) (s : State) :
    Runs (.mmuRootWrite t hi v) s ((s.at_ t).hostWrite (if hi then 0x11004 else 0x11000) v) := rfl

theorem runs_deedQuery (t : Nat) (v : Word) (s : State) :
    Runs (.deedQuery t v) s ((s.at_ t).hostWrite 0x10010 v) := rfl

theorem runs_loftClrCnt (t : Nat) (v : Word) (s : State) :
    Runs (.loftClrCnt t v) s ((s.at_ t).hostWrite 0xD04C v) := rfl

theorem runs_panClrCnt (t : Nat) (v : Word) (s : State) :
    Runs (.panClrCnt t v) s ((s.at_ t).hostWrite 0xF040 v) := rfl

theorem runs_clrNan (t : Nat) (v : Word) (s : State) :
    Runs (.clrNan t v) s ((s.at_ t).hostWrite 0xC040 v) := rfl

theorem runs_visClrCnt (t : Nat) (v : Word) (s : State) :
    Runs (.visClrCnt t v) s ((s.at_ t).hostWrite 0x14004 v) := rfl

theorem runs_galClrCnt (t : Nat) (v : Word) (s : State) :
    Runs (.galClrCnt t v) s ((s.at_ t).hostWrite 0x16084 v) := rfl

theorem runs_frameStart (t : Nat) (src : CamSrc) (s : State) :
    Runs (.frameStart t src) s ((s.at_ t).frameStarts src) := rfl

theorem runs_csiLine (t : Nat) (src : CamSrc) (kind : LineKind) (px : List Nat) (s : State) (h :
    (Instr.csiLine t src kind px).wellFormed = true) :
    Runs (.csiLine t src kind px) s ((s.at_ t).lineArrives src kind px) := if_pos h

theorem runs_embeddedDataPacket (t : Nat) (hdr : CsiHeader) (payload : CsiPayload) (s : State) (h :
    (Instr.embeddedDataPacket t hdr payload).wellFormed = true) :
    Runs (.embeddedDataPacket t hdr payload) s ((s.at_ t).embeddedArrives hdr payload) := if_pos h

theorem runs_frameEnd (t : Nat) (src : CamSrc) (s : State) :
    Runs (.frameEnd t src) s ((s.at_ t).frameEnds src) := rfl

theorem runs_frameTimeout (t : Nat) (stream : Fin 24) (s : State) :
    Runs (.frameTimeout t stream) s ((s.at_ t).frameTimesOut stream) := rfl

theorem runs_frameLate (t : Nat) (stream : Fin 24) (s : State) :
    Runs (.frameLate t stream) s ((s.at_ t).frameIsLate stream) := rfl

theorem runs_lanePolarityInvert (t : Nat) (port : Fin 12) (lane : Fin 4) (s : State) :
    Runs (.lanePolarityInvert t port lane) s ((s.at_ t).laneInverts port lane) := rfl

theorem runs_laneOrderFault (t : Nat) (port : Fin 12) (order : BitVec 8) (s : State) :
    Runs (.laneOrderFault t port order) s ((s.at_ t).laneOrder port order) := rfl

theorem runs_laneFault (t : Nat) (port : Fin 12) (lane : Fin 4) (s : State) :
    Runs (.laneFault t port lane) s ((s.at_ t).laneFaults port lane) := rfl

theorem runs_noClock (t : Nat) (port : Fin 12) (s : State) :
    Runs (.noClock t port) s ((s.at_ t).clockGone port) := rfl

theorem runs_galStreamWrite (t : Nat) (w : Fin 2048) (v : Word) (s : State) :
    Runs (.galStreamWrite t w v) s ((s.at_ t).hostWrite (0x16000 + 4 * w.val) v) := rfl

theorem runs_porchSample (t : Nat) (bits : List (BitVec 8 × BitVec 8)) (s : State) :
    Runs (.porchSample t bits) s ((s.at_ t).sampleOn bits) := rfl

theorem runs_settlingEnd (t : Nat) (s : State) :
    Runs (.settlingEnd t) s ((s.at_ t).settled) := rfl

theorem runs_micCheckWindow (t : Nat) (obs : List MicObs) (s : State) (h :
    (Instr.micCheckWindow t obs).wellFormed = true) :
    Runs (.micCheckWindow t obs) s ((s.at_ t).micWindow obs) := if_pos h

theorem runs_swapTestWindow (t : Nat) (level : Nat) (lags : List Int) (s : State) (h :
    (Instr.swapTestWindow t level lags).wellFormed = true) :
    Runs (.swapTestWindow t level lags) s ((s.at_ t).swapWindow level lags) := if_pos h

theorem runs_muteWrite (t : Nat) (m : Bool) (s : State) :
    Runs (.muteWrite t m) s ((s.at_ t).muteWritten m) := rfl

theorem runs_porCtrlWrite (t : Nat) (w : Fin 1024) (v : Word) (s : State) :
    Runs (.porCtrlWrite t w v) s ((s.at_ t).hostWrite (0x18000 + 4 * w.val) v) := rfl

theorem runs_porSampleLoRead (t : Nat) (s : State) :
    Runs (.porSampleLoRead t) s ((s.at_ t).hostRead 0x18014) := rfl

theorem runs_keyCtrlWrite (t : Nat) (w : Fin 1024) (v : Word) (s : State) :
    Runs (.keyCtrlWrite t w v) s ((s.at_ t).hostWrite (0x19000 + 4 * w.val) v) := rfl

theorem runs_keyholeFrame (t : Nat) (scores : List KeyScore) (s : State) (h :
    (Instr.keyholeFrame t scores).wellFormed = true) :
    Runs (.keyholeFrame t scores) s ((s.at_ t).keyFrame scores) := if_pos h

theorem runs_partialMatchTimeout (t : Nat) (phrase : Fin 8) (s : State) :
    Runs (.partialMatchTimeout t phrase) s ((s.at_ t).partialLate phrase) := rfl

theorem runs_porchChangeDeadline (t : Nat) (scores : List KeyScore) (s : State) (h :
    (Instr.porchChangeDeadline t scores).wellFormed = true) :
    Runs (.porchChangeDeadline t scores) s ((s.at_ t).changeLate scores) := if_pos h

theorem runs_chainStageStart (t : Nat) (s : State) :
    Runs (.chainStageStart t) s ((s.at_ t).chainStart) := rfl

theorem runs_chainStageComplete (t : Nat) (s : State) :
    Runs (.chainStageComplete t) s ((s.at_ t).chainDone) := rfl

theorem runs_chainStageTimeout (t : Nat) (s : State) :
    Runs (.chainStageTimeout t) s ((s.at_ t).chainLate) := rfl

theorem runs_feedRecord (t : Nat) (s : State) :
    Runs (.feedRecord t) s ((s.at_ t).feedRecord) := rfl

theorem runs_porchWatchdog (t : Nat) (s : State) :
    Runs (.porchWatchdog t) s ((s.at_ t).watchdogPcr) := rfl

theorem runs_supplyWarning (t : Nat) (rail : Fin 11) (s : State) :
    Runs (.supplyWarning t rail) s ((s.at_ t).supplyWarn rail) := rfl

theorem runs_supplyResetThreshold (t : Nat) (rail : Fin 11) (s : State) :
    Runs (.supplyResetThreshold t rail) s ((s.at_ t).supplyReset rail) := rfl

theorem runs_supplyHigh (t : Nat) (rail : Fin 11) (s : State) :
    Runs (.supplyHigh t rail) s ((s.at_ t).supplyHigh rail) := rfl

theorem runs_capHoldExpiry (t : Nat) (cap : Cap) (s : State) :
    Runs (.capHoldExpiry t cap) s ((s.at_ t).capHeld cap) := rfl

theorem runs_capReleaseStep (t : Nat) (cap : Cap) (s : State) :
    Runs (.capReleaseStep t cap) s ((s.at_ t).capStep cap) := rfl

theorem runs_battWarnAssert (t : Nat) (s : State) :
    Runs (.battWarnAssert t) s ((s.at_ t).battLow) := rfl

theorem runs_battWarnRelease (t : Nat) (s : State) :
    Runs (.battWarnRelease t) s ((s.at_ t).battBack) := rfl

theorem runs_battWarnStuck (t : Nat) (s : State) :
    Runs (.battWarnStuck t) s ((s.at_ t).battStuck) := rfl

theorem runs_refclkMainLost (t : Nat) (s : State) :
    Runs (.refclkMainLost t) s ((s.at_ t).mainClockLost) := rfl

theorem runs_refclkAonLost (t : Nat) (s : State) :
    Runs (.refclkAonLost t) s ((s.at_ t).aonClockLost) := rfl

theorem runs_clockReturn (t : Nat) (main : Bool) (found : List Finding) (s : State) :
    Runs (.clockReturn t main found) s ((s.at_ t).clockBack main found) := rfl

theorem runs_avsComplete (t : Nat) (s : State) :
    Runs (.avsComplete t) s ((s.at_ t).avsDone) := rfl

theorem runs_powerCapEvaluation (t : Nat) (watts : BitVec 10) (s : State) :
    Runs (.powerCapEvaluation t watts) s ((s.at_ t).powerJudge watts.toNat) := rfl

theorem runs_thermalCap (t : Nat) (sensor : Fin 64) (temp : BitVec 16) (s : State) :
    Runs (.thermalCap t sensor temp) s ((s.at_ t).thermCap sensor temp.toInt) := rfl

theorem runs_thermalCapStep (t : Nat) (s : State) :
    Runs (.thermalCapStep t) s ((s.at_ t).thermStep) := rfl

theorem runs_thermalTrip (t : Nat) (sensor : Fin 64) (temp : BitVec 16) (s : State) :
    Runs (.thermalTrip t sensor temp) s ((s.at_ t).trip sensor temp.toInt) := rfl

theorem runs_tripRestart (t : Nat) (s : State) :
    Runs (.tripRestart t) s ((s.at_ t).tripOver) := rfl

theorem runs_dozeEntry (t : Nat) (s : State) :
    Runs (.dozeEntry t) s ((s.at_ t).doze) := rfl

theorem runs_s3AfterTimeout (t : Nat) (s : State) :
    Runs (.s3AfterTimeout t) s ((s.at_ t).s3Late) := rfl

theorem runs_wakeInRise (t : Nat) (s : State) :
    Runs (.wakeInRise t) s ((s.at_ t).wakeRise) := rfl

theorem runs_mgmtWakeEdge (t : Nat) (s : State) :
    Runs (.mgmtWakeEdge t) s ((s.at_ t).mgmtWake) := rfl

theorem runs_wakeTimerExpiry (t : Nat) (s : State) :
    Runs (.wakeTimerExpiry t) s ((s.at_ t).wakeTimer) := rfl

theorem runs_por (t : Nat) (s : State) :
    Runs (.por t) s ((s.at_ t).porNow) := rfl

theorem runs_resetNAssert (t : Nat) (s : State) :
    Runs (.resetNAssert t) s ((s.at_ t).resetLow) := rfl

theorem runs_resetNRelease (t : Nat) (found : List Finding) (s : State) :
    Runs (.resetNRelease t found) s ((s.at_ t).resetBack found) := rfl

theorem runs_studyWatchdog (t : Nat) (s : State) :
    Runs (.studyWatchdog t) s ((s.at_ t).watchdogStr) := rfl

theorem runs_rstReqMdr (t : Nat) (v : Word) (s : State) :
    Runs (.rstReqMdr t v) s ((s.at_ t).hostWrite 0x3004 v) := rfl

theorem runs_rstReqTlr (t : Nat) (v : Word) (s : State) :
    Runs (.rstReqTlr t v) s ((s.at_ t).hostWrite 0x3004 v) := rfl

theorem runs_rstReqStr (t : Nat) (v : Word) (s : State) :
    Runs (.rstReqStr t v) s ((s.at_ t).hostWrite 0x3004 v) := rfl

theorem runs_rstReqPcr (t : Nat) (v : Word) (s : State) :
    Runs (.rstReqPcr t v) s ((s.at_ t).hostWrite 0x3004 v) := rfl

theorem runs_rstReqRevert (t : Nat) (v : Word) (s : State) :
    Runs (.rstReqRevert t v) s ((s.at_ t).hostWrite 0x3004 v) := rfl

theorem runs_setupLockSet (t : Nat) (v : Word) (s : State) :
    Runs (.setupLockSet t v) s ((s.at_ t).hostWrite 0x3018 v) := rfl

theorem runs_registerWrite (t : Nat) (w : Fin 262144) (v : Word) (s : State) :
    Runs (.registerWrite t w v) s ((s.at_ t).hostWrite (4 * w.val) v) := rfl

theorem runs_sensorScan (t : Nat) (temps : BitVec 1024) (s : State) :
    Runs (.sensorScan t temps) s ((s.at_ t).scanTemps temps.toNat) := rfl

theorem runs_railScan (t : Nat) (mv : BitVec 176) (cur : BitVec 64) (s : State) :
    Runs (.railScan t mv cur) s ((s.at_ t).scanRails mv.toNat cur.toNat) := rfl

theorem runs_identity (t : Nat) (src : MsgSrc) (s : State) (h : (Instr.identity t src).wellFormed = true) :
    Runs (.identity t src) s ((s.at_ t).identityMsg src) := if_pos h

theorem runs_status (t : Nat) (src : MsgSrc) (s : State) (h : (Instr.status t src).wellFormed = true) :
    Runs (.status t src) s ((s.at_ t).statusMsg src) := if_pos h

theorem runs_challenge (t : Nat) (src : MsgSrc) (s : State) (h : (Instr.challenge t src).wellFormed = true) :
    Runs (.challenge t src) s ((s.at_ t).challengeMsg src) := if_pos h

theorem runs_auth (t : Nat) (src : MsgSrc) (s : State) (h : (Instr.auth t src).wellFormed = true) :
    Runs (.auth t src) s ((s.at_ t).authMsg src) := if_pos h

theorem runs_heartbeat (t : Nat) (src : MsgSrc) (s : State) (h : (Instr.heartbeat t src).wellFormed = true) :
    Runs (.heartbeat t src) s ((s.at_ t).heartbeatMsg src) := if_pos h

theorem runs_quote (t : Nat) (src : MsgSrc) (s : State) (h : (Instr.quote t src).wellFormed = true) :
    Runs (.quote t src) s ((s.at_ t).quoteMsg src) := if_pos h

theorem runs_sensorRead (t : Nat) (src : MsgSrc) (s : State) (h : (Instr.sensorRead t src).wellFormed = true) :
    Runs (.sensorRead t src) s ((s.at_ t).sensorMsg src) := if_pos h

theorem runs_logRead (t : Nat) (src : MsgSrc) (s : State) (h : (Instr.logRead t src).wellFormed = true) :
    Runs (.logRead t src) s ((s.at_ t).logMsg src) := if_pos h

theorem runs_updateBegin (t : Nat) (src : MsgSrc) (s : State) (h : (Instr.updateBegin t src).wellFormed = true) :
    Runs (.updateBegin t src) s ((s.at_ t).beginMsg src) := if_pos h

theorem runs_updateData (t : Nat) (src : MsgSrc) (flashOk : Bool) (s : State) (h :
    (Instr.updateData t src flashOk).wellFormed = true) :
    Runs (.updateData t src flashOk) s ((s.at_ t).dataMsg src flashOk) := if_pos h

theorem runs_updateVerify (t : Nat) (src : MsgSrc) (what : Staged) (s : State) (h :
    (Instr.updateVerify t src what).wellFormed = true) :
    Runs (.updateVerify t src what) s ((s.at_ t).verifyMsg src what) := if_pos h

theorem runs_updateCommit (t : Nat) (src : MsgSrc) (flashOk : Bool) (s : State) (h :
    (Instr.updateCommit t src flashOk).wellFormed = true) :
    Runs (.updateCommit t src flashOk) s ((s.at_ t).commitMsg src flashOk) := if_pos h

theorem runs_updateActivate (t : Nat) (src : MsgSrc) (s : State) (h : (Instr.updateActivate t src).wellFormed = true) :
    Runs (.updateActivate t src) s ((s.at_ t).activateMsg src) := if_pos h

theorem runs_updateAbort (t : Nat) (src : MsgSrc) (s : State) (h : (Instr.updateAbort t src).wellFormed = true) :
    Runs (.updateAbort t src) s ((s.at_ t).abortMsg src) := if_pos h

theorem runs_settingsRevert (t : Nat) (src : MsgSrc) (s : State) (h : (Instr.settingsRevert t src).wellFormed = true) :
    Runs (.settingsRevert t src) s ((s.at_ t).revertMsg src) := if_pos h

theorem runs_reset (t : Nat) (src : MsgSrc) (s : State) (h : (Instr.reset t src).wellFormed = true) :
    Runs (.reset t src) s ((s.at_ t).resetMsg src) := if_pos h

theorem runs_sleepS3 (t : Nat) (src : MsgSrc) (s : State) (h : (Instr.sleepS3 t src).wellFormed = true) :
    Runs (.sleepS3 t src) s ((s.at_ t).sleepMsg src) := if_pos h

theorem runs_wake (t : Nat) (src : MsgSrc) (s : State) (h : (Instr.wake t src).wellFormed = true) :
    Runs (.wake t src) s ((s.at_ t).wakeMsg src) := if_pos h

theorem runs_provisionOwner (t : Nat) (src : MsgSrc) (s : State) (h : (Instr.provisionOwner t src).wellFormed = true) :
    Runs (.provisionOwner t src) s ((s.at_ t).provisionMsg src) := if_pos h

theorem runs_sessionTimeout (t : Nat) (s : State) :
    Runs (.sessionTimeout t) s ((s.at_ t).sessionsLate) := rfl

theorem runs_authLockoutEnd (t : Nat) (s : State) :
    Runs (.authLockoutEnd t) s ((s.at_ t).lockoutsOver) := rfl

theorem runs_gptpSyncMessage (t : Nat) (offset : Int) (vt : BitVec 64) (s : State) :
    Runs (.gptpSyncMessage t offset vt) s ((s.at_ t).syncMessage offset vt.toNat) := rfl

theorem runs_gptpSyncTimeout (t : Nat) (s : State) :
    Runs (.gptpSyncTimeout t) s ((s.at_ t).syncTimeout) := rfl

theorem runs_hostSilent (t : Nat) (s : State) :
    Runs (.hostSilent t) s ((s.at_ t).hostQuiet) := rfl

theorem runs_logbookFlush (t : Nat) (s : State) :
    Runs (.logbookFlush t) s ((s.at_ t).logFlush) := rfl

theorem runs_portTraining (t : Nat) (port : Fin 4) (r : Training) (s : State) :
    Runs (.portTraining t port r) s ((s.at_ t).train port r) := rfl

theorem runs_linkLaneFault (t : Nat) (port : Fin 4) (lane : Fin 9) (s : State) :
    Runs (.linkLaneFault t port lane) s ((s.at_ t).linkLane port lane) := rfl

theorem runs_packetNak (t : Nat) (port : Fin 4) (s : State) :
    Runs (.packetNak t port) s ((s.at_ t).replay port) := rfl

theorem runs_jobOpenWrite (t : Nat) (j : Fin 16) (v : Word) (s : State) :
    Runs (.jobOpenWrite t j v) s ((s.at_ t).hostWrite (0x15100 + 16 * j.val) v) := rfl

theorem runs_jobCloseWrite (t : Nat) (j : Fin 16) (v : Word) (s : State) :
    Runs (.jobCloseWrite t j v) s ((s.at_ t).hostWrite (0x15100 + 16 * j.val) v) := rfl

theorem runs_jobOpenTimeout (t : Nat) (j : Fin 16) (s : State) :
    Runs (.jobOpenTimeout t j) s ((s.at_ t).openLate j) := rfl

theorem runs_jobOpen (t : Nat) (port : Fin 4) (p : Packet) (tagOk : Bool) (members : BitVec 4) (base : BitVec 22)
    (pages : BitVec 23) (s : State) (h : (Instr.jobOpen t port p tagOk members base pages).wellFormed = true) :
    Runs (.jobOpen t port p tagOk members base pages) s ((s.at_ t).typed p 1 fun s => s.jobOpenArrives port p tagOk members base pages) := if_pos h

theorem runs_jobClose (t : Nat) (port : Fin 4) (p : Packet) (tagOk : Bool) (s : State) (h :
    (Instr.jobClose t port p tagOk).wellFormed = true) :
    Runs (.jobClose t port p tagOk) s ((s.at_ t).typed p 10 fun s => s.onPkt port p tagOk fun s j => s.closeJob j false) := if_pos h

theorem runs_readReq (t : Nat) (port : Fin 4) (p : Packet) (tagOk : Bool) (s : State) (h :
    (Instr.readReq t port p tagOk).wellFormed = true) :
    Runs (.readReq t port p tagOk) s ((s.at_ t).typed p 2 fun s => s.onPkt port p tagOk fun s j => s.serve j p false) := if_pos h

theorem runs_readRsp (t : Nat) (port : Fin 4) (p : Packet) (tagOk : Bool) (s : State) (h :
    (Instr.readRsp t port p tagOk).wellFormed = true) :
    Runs (.readRsp t port p tagOk) s ((s.at_ t).typed p 3 fun s => s.onPkt port p tagOk fun s _ => s.readAnswered p) := if_pos h

theorem runs_writeReq (t : Nat) (port : Fin 4) (p : Packet) (tagOk : Bool) (s : State) (h :
    (Instr.writeReq t port p tagOk).wellFormed = true) :
    Runs (.writeReq t port p tagOk) s ((s.at_ t).typed p 4 fun s => s.onPkt port p tagOk fun s j => s.serve j p true) := if_pos h

theorem runs_writeAck (t : Nat) (port : Fin 4) (p : Packet) (tagOk : Bool) (s : State) (h :
    (Instr.writeAck t port p tagOk).wellFormed = true) :
    Runs (.writeAck t port p tagOk) s ((s.at_ t).typed p 5 fun s => s.onPkt port p tagOk fun s _ => s.writeAnswered p) := if_pos h

theorem runs_moveData (t : Nat) (port : Fin 4) (p : Packet) (tagOk : Bool) (s : State) (h :
    (Instr.moveData t port p tagOk).wellFormed = true) :
    Runs (.moveData t port p tagOk) s ((s.at_ t).typed p 6 fun s => s.onPkt port p tagOk fun s j => s.moveDataArrives j p) := if_pos h

theorem runs_moveCommit (t : Nat) (port : Fin 4) (p : Packet) (tagOk : Bool) (s : State) (h :
    (Instr.moveCommit t port p tagOk).wellFormed = true) :
    Runs (.moveCommit t port p tagOk) s ((s.at_ t).typed p 7 fun s => s.onPkt port p tagOk fun s j => s.moveCommitArrives j p) := if_pos h

theorem runs_moveDone (t : Nat) (port : Fin 4) (p : Packet) (tagOk : Bool) (s : State) (h :
    (Instr.moveDone t port p tagOk).wellFormed = true) :
    Runs (.moveDone t port p tagOk) s ((s.at_ t).typed p 8 fun s => s.onPkt port p tagOk fun s _ => s.moveDoneArrives p) := if_pos h

theorem runs_redirect (t : Nat) (port : Fin 4) (p : Packet) (tagOk : Bool) (s : State) (h :
    (Instr.redirect t port p tagOk).wellFormed = true) :
    Runs (.redirect t port p tagOk) s ((s.at_ t).typed p 9 fun s => s.onPkt port p tagOk fun s _ => s.redirected p) := if_pos h

theorem runs_redirectBackoff (t : Nat) (rtag : BitVec 16) (s : State) :
    Runs (.redirectBackoff t rtag) s ((s.at_ t).backoffOver rtag) := rfl

theorem runs_portDown (t : Nat) (port : Fin 4) (s : State) :
    Runs (.portDown t port) s ((s.at_ t).losePort port) := rfl

theorem runs_peerLost (t : Nat) (pos : Fin 4) (s : State) :
    Runs (.peerLost t pos) s ((s.at_ t).peerGone pos) := rfl

theorem runs_faultReport (t : Nat) (r : Report) (s : State) :
    Runs (.faultReport t r) s ((s.at_ t).report r) := rfl

theorem runs_faultConditionEnd (t : Nat) (cls : Byte) (unit : BitVec 16) (detail : BitVec 64) (s : State) :
    Runs (.faultConditionEnd t cls unit detail) s ((s.at_ t).conditionEnds cls unit detail) := rfl

theorem runs_fbAckSlot (t : Nat) (v : Word) (s : State) :
    Runs (.fbAckSlot t v) s ((s.at_ t).hostWrite 0x2008 v) := rfl

theorem runs_fbAckAll (t : Nat) (v : Word) (s : State) :
    Runs (.fbAckAll t v) s ((s.at_ t).hostWrite 0x2008 v) := rfl

theorem runs_rotatingTestComplete (t : Nat) (verdict : Verdict) (s : State) :
    Runs (.rotatingTestComplete t verdict) s ((s.at_ t).testEnd verdict) := rfl

theorem runs_bondLaneFault (t : Nat) (slice : Fin 18) (sub : Fin 8) (lane : Fin 146) (s : State) :
    Runs (.bondLaneFault t slice sub lane) s ((s.at_ t).laneFault slice sub lane) := rfl

theorem runs_groupGood (t : Nat) (group : Group) (found : List Finding) (s : State) :
    Runs (.groupGood t group found) s ((s.at_ t).groupUp group found) := rfl

theorem runs_mdrGraceExpiry (t : Nat) (found : List Finding) (s : State) :
    Runs (.mdrGraceExpiry t found) s ((s.at_ t).mdrGo found) := rfl

theorem runs_studyRestartComplete (t : Nat) (s : State) :
    Runs (.studyRestartComplete t) s ((s.at_ t).strEnds) := rfl

theorem runs_wakeInFall (t : Nat) (s : State) :
    Runs (.wakeInFall t) s ((s.at_ t).wakeFall) := rfl

end Sys2Proof.Laws
end

