-- ==== Sys2Proof/Laws/Kept.lean ====
section
/-! SUPPORT. What every operation keeps: the queue of commands, and the canonical form of memory and registers. The
notion, its closure rules, and one lemma for each operation that the laws of the commands go through. -/

namespace Sys2Proof.Laws
open Sys2Proof Sys2Proof.Machine

/-- The queue is `q`, and memory and registers are canonical if they were (`c`). -/
def Kept (q : List Instr) (c : Bool) (p : List Instr) (m : Mem) (r : Tbl Word) : Prop :=
  p = q ∧ (c = true → Mem.wf m = true ∧ tsorted none r = true ∧ (r.all fun e => e.2 != 0) = true)

theorem wf_words {r : Tbl Word} (h : tsorted none r = true ∧ (r.all fun e => e.2 != 0) = true) (k : Nat) (w : Word) :
    tsorted none (tput 0 r k w) = true ∧ ((tput 0 r k w).all fun e => e.2 != 0) = true := by
  refine ⟨tsorted_tput h.1 0 k w, ?_⟩
  rw [List.all_eq_true] at h ⊢
  intro e he
  unfold tput at he
  split at he
  · exact h.2 e (mem_tdel he)
  · rcases mem_tset he with rfl | h1
    · simpa
    · exact h.2 e h1

theorem kept_mem {q p : List Instr} {c : Bool} {m m' : Mem} {r : Tbl Word} (h : Kept q c p m r) (hm : Mem.wf m = true → Mem.wf m' = true) :
    Kept q c p m' r := ⟨h.1, fun hc => ⟨hm (h.2 hc).1, (h.2 hc).2⟩⟩
@[simp] theorem kept_mwrite {q p : List Instr} {c : Bool} {m : Mem} {r : Tbl Word} (h : Kept q c p m r) (k : Nat) (b : List Byte) :
    Kept q c p (mwrite m k b) r := kept_mem h fun h => wf_mwrite h k b
@[simp] theorem kept_tclear {q p : List Instr} {c : Bool} {m : Mem} {r : Tbl Word} (h : Kept q c p m r) (k n : Nat) :
    Kept q c p (tclear m k n) r := kept_mem h fun h => wf_tclear h k n
@[simp] theorem kept_tput {q p : List Instr} {c : Bool} {m : Mem} {r : Tbl Word} (h : Kept q c p m r) (k : Nat) (b : Byte) :
    Kept q c p (tput 0 m k b) r := kept_mem h fun h => wf_tput h k b
theorem kept_word {q p : List Instr} {c : Bool} {m : Mem} {r : Tbl Word} (h : Kept q c p m r) (k : Nat) (w : Word) :
    Kept q c p m (tput 0 r k w) := ⟨h.1, fun hc => ⟨(h.2 hc).1, wf_words (h.2 hc).2 k w⟩⟩
@[simp] theorem kept_setWord {q p : List Instr} {c : Bool} {m : Mem} {s : State} (h : Kept q c p m s.regs) (k : Nat) (w : Word) :
    Kept q c p m (s.setWord k w).regs := kept_word h k w
@[simp] theorem kept_setReg {q p : List Instr} {c : Bool} {m : Mem} {s : State} (h : Kept q c p m s.regs) (f : Field) (v : Nat) :
    Kept q c p m (s.setReg f v).regs := kept_word h ..
@[simp] theorem kept_setFlag {q p : List Instr} {c : Bool} {m : Mem} {s : State} (h : Kept q c p m s.regs) (f : Field) (v : Bool) :
    Kept q c p m (s.setFlag f v).regs := kept_word h ..
@[simp] theorem kept_bump {q p : List Instr} {c : Bool} {m : Mem} {s : State} (h : Kept q c p m s.regs) (f : Field) (n : Nat) :
    Kept q c p m (s.bump f n).regs := kept_word h ..
@[simp] theorem kept_ite {q : List Instr} {c : Bool} (b : Prop) [Decidable b] (x y : State)
    (hx : b → Kept q c x.pending x.mem x.regs) (hy : ¬ b → Kept q c y.pending y.mem y.regs) :
    Kept q c (if b then x else y).pending (if b then x else y).mem (if b then x else y).regs := by
  split
  · exact hx ‹_›
  · exact hy ‹_›
@[simp] theorem kept_each {α : Type} {q : List Instr} {c : Bool} (s : State) (l : List α) (f : State → α → State)
    (h : Kept q c s.pending s.mem s.regs)
    (hf : ∀ s a, Kept q c s.pending s.mem s.regs → Kept q c (f s a).pending (f s a).mem (f s a).regs) :
    Kept q c (s.each l f).pending (s.each l f).mem (s.each l f).regs := by
  unfold State.each
  induction l generalizing s with
  | nil => exact h
  | cons a l ih => exact ih _ (hf s a h)

/-! ### Accesses -/

/-- An access keeps what `Kept` says. -/
def Holds {α : Type} (q : List Instr) (c : Bool) (x : Acc α) : Prop :=
  ∀ s : State, Kept q c s.pending s.mem s.regs →
    Kept q c (StateT.run (ExceptT.run x) s).2.pending (StateT.run (ExceptT.run x) s).2.mem
      (StateT.run (ExceptT.run x) s).2.regs

variable {α β : Type} {q : List Instr} {c : Bool}

@[simp] theorem holds_pure (a : α) : Holds q c (pure a : Acc α) := fun _ h => h
@[simp] theorem holds_throw (e : AFail) : Holds q c (throw e : Acc α) := fun _ h => h
@[simp] theorem holds_get : Holds q c (get : Acc State) := fun _ h => h

@[simp] theorem holds_bind (x : Acc α) (f : α → Acc β) (hx : Holds q c x) (hf : ∀ a, Holds q c (f a)) :
    Holds q c (x >>= f) := by
  intro s h
  have h1 := hx s h
  show Kept q c (StateT.run (ExceptT.run (ExceptT.bind x f)) s).2.pending (StateT.run (ExceptT.run (ExceptT.bind x f)) s).2.mem
    (StateT.run (ExceptT.run (ExceptT.bind x f)) s).2.regs
  revert h1
  simp only [ExceptT.run, ExceptT.bind, ExceptT.mk, StateT.run]
  show _ → Kept q c (StateT.bind x _ s).2.pending (StateT.bind x _ s).2.mem (StateT.bind x _ s).2.regs
  simp only [StateT.bind]
  rcases hx1 : (x : StateT State Id (Except AFail α)) s with ⟨r, t⟩
  intro h1
  cases r with
  | ok a => exact hf a t h1
  | error e => exact h1

@[simp] theorem holds_get_bind (f : State → Acc β)
    (hf : ∀ s : State, Kept q c s.pending s.mem s.regs → Holds q c (f s)) : Holds q c (get >>= f) := by
  intro s h
  exact hf s h s h

@[simp] theorem holds_set (t : State) (h : Kept q c t.pending t.mem t.regs) : Holds q c (set t : Acc PUnit) := fun _ _ => h

@[simp] theorem holds_modify (f : State → State)
    (hf : ∀ s : State, Kept q c s.pending s.mem s.regs → Kept q c (f s).pending (f s).mem (f s).regs) :
    Holds q c (modify f : Acc PUnit) := fun s h => hf s h

@[simp] theorem holds_ite (b : Prop) [Decidable b] (x y : Acc α) (hx : b → Holds q c x) (hy : ¬ b → Holds q c y) :
    Holds q c (if b then x else y) := by
  split
  · exact hx ‹_›
  · exact hy ‹_›

@[simp] theorem holds_map (f : α → β) (x : Acc α) (hx : Holds q c x) : Holds q c (f <$> x) := by
  have : Holds q c (x >>= fun a => (pure (f a) : Acc β)) := holds_bind x _ hx fun _ => holds_pure _
  simpa using this

theorem holds_mapM_loop (f : α → Acc β) (hf : ∀ a, Holds q c (f a)) (l : List α) (acc : List β) :
    Holds q c (List.mapM.loop f l acc) := by
  induction l generalizing acc with
  | nil => exact holds_pure _
  | cons a l ih => exact holds_bind _ _ (hf a) fun b => ih (b :: acc)

@[simp] theorem holds_mapM (f : α → Acc β) (l : List α) (hf : ∀ a, Holds q c (f a)) : Holds q c (l.mapM f) :=
  holds_mapM_loop f hf l []

@[simp] theorem holds_foldlM (f : β → α → Acc β) (b : β) (l : List α) (hf : ∀ b a, Holds q c (f b a)) :
    Holds q c (l.foldlM f b) := by
  induction l generalizing b with
  | nil => exact holds_pure _
  | cons a l ih => exact holds_bind _ _ (hf b a) fun b => ih b

@[simp] theorem holds_tryCatch (x : Acc α) (f : AFail → Acc α) (hx : Holds q c x) (hf : ∀ e, Holds q c (f e)) :
    Holds q c (tryCatch x f) := by
  intro s h
  have h1 := hx s h
  revert h1
  show _ → Kept q c (StateT.run (ExceptT.run (ExceptT.tryCatch x f)) s).2.pending
    (StateT.run (ExceptT.run (ExceptT.tryCatch x f)) s).2.mem (StateT.run (ExceptT.run (ExceptT.tryCatch x f)) s).2.regs
  simp only [ExceptT.run, ExceptT.tryCatch, ExceptT.mk, StateT.run]
  show _ → Kept q c (StateT.bind x _ s).2.pending (StateT.bind x _ s).2.mem (StateT.bind x _ s).2.regs
  simp only [StateT.bind]
  rcases (x : StateT State Id (Except AFail α)) s with ⟨r, t⟩
  intro h1
  cases r with
  | ok a => exact h1
  | error e => exact hf e t h1

/-- A fold that carries a state beside another value. -/
theorem kept_foldl_fst {γ : Type} (f : State × γ → α → State × γ) (l : List α) (p : State × γ)
    (h : Kept q c p.1.pending p.1.mem p.1.regs)
    (hf : ∀ p a, Kept q c p.1.pending p.1.mem p.1.regs → Kept q c (f p a).1.pending (f p a).1.mem (f p a).1.regs) :
    Kept q c (l.foldl f p).1.pending (l.foldl f p).1.mem (l.foldl f p).1.regs := by
  induction l generalizing p with
  | nil => exact h
  | cons a l ih => exact ih _ (hf p a h)

end Sys2Proof.Laws
end

