-- ==== Sys2Proof/Laws/Messages.lean ====
section
/-! SUPPORT. Management messages: the length of a tag, what a request with its tag after it reads as, and when one in a session is
accepted. -/

namespace Sys2Proof.Laws
open Sys2Proof Sys2Proof.Machine

@[simp] theorem toBytes_length (n x : Nat) : (toBytes n x).length = n := by
  induction n generalizing x with
  | zero => rfl
  | succ n ih => simp [toBytes, ih]

@[simp] theorem lanes_length (f : Nat → Nat → Lane) : (lanes f).length = 25 := by simp [lanes]

theorem keccakF_length {a : List Lane} (h : a.length = 25) : (keccakF a).length = 25 := by
  unfold keccakF
  generalize iotas = l
  induction l generalizing a with
  | nil => simpa
  | cons c l ih => exact ih (by simp [chi])

theorem absorbAll_length {a : List Lane} (h : a.length = 25) (bs : List Byte) (fuel : Nat) :
    (absorbAll a bs fuel).length = 25 := by
  induction fuel generalizing a bs with
  | zero => simpa [absorbAll]
  | succ n ih =>
    unfold absorbAll
    split
    · exact h
    · exact ih (keccakF_length (by simp [absorb])) _

/-- A tag has 32 bytes. -/
@[simp] theorem kmac256_length (key msg : List Byte) (label : String) : (kmac256 key msg label).length = 32 := by
  have h (a : List Lane) (ha : a.length = 25) : (squeeze a 32 1).length = 32 := by
    have hl : (a.flatMap fun l => toBytes 8 l.toNat).length = 8 * a.length := by
      clear ha
      induction a with
      | nil => rfl
      | cons x r ih => simp [List.flatMap_cons, ih]; omega
    simp [squeeze, shakeRate, hl, ha]
  exact h _ (absorbAll_length (by simp) _ _)

/-- A request of 16 bytes at least with a session, followed by a tag, reads as its fields, what the tag covers, and the tag. -/
theorem readMsg_tagged (b tag : List Byte) (hb : 16 ≤ b.length) (ht : tag.length = 32)
    (hs : bitsAt (ofBytes (b.take 16)) 32 32 ≠ 0) :
    readMsg (b ++ tag) =
      { type := bitsAt (ofBytes (b.take 16)) 0 16, session := bitsAt (ofBytes (b.take 16)) 32 32,
        counter := bitsAt (ofBytes (b.take 16)) 64 64, body := b.drop 16, signed := b, tag := tag,
        ok := bitsAt (ofBytes (b.take 16)) 16 16 == 0 } := by
  have h1 : (b ++ tag).take 16 = b.take 16 := by simp [List.take_append_of_le_length hb]
  have h2 : ¬b.length + tag.length < 16 := by omega
  have h3 : b.length + tag.length - 32 = b.length := by omega
  simp [readMsg, h1, h2, h3, hs, show 16 ≤ b.length + tag.length by omega, show 48 ≤ b.length + tag.length by omega]

/-- A request in a held session, with its tag and a counter above the last one, is accepted. -/
theorem admitMsg_tagged (s : State) (m : Msg) (x : Session) (open_ port : Bool) (h0 : m.session ≠ 0)
    (hx : s.sty.sessions.find? (fun y => y.num == m.session) = some x) (ht : m.tag = kmac256 x.key m.signed "SH16 MSG")
    (hc : x.counter < m.counter) :
    (s.admitMsg m open_ port).2 = .accepted (some { x with counter := m.counter, last := s.now }) := by
  simp [State.admitMsg, h0, hx, ht, Nat.not_le.mpr hc]

end Sys2Proof.Laws
end

