-- ==== Sys2Proof/Machine/Cipher.lean ====
section
/-! DEFINITION. AES-256, its XTS mode and its GCM mode, which 17_security.md R544, R545 and 18_party_wall.md R578 name and whose
steps they do not give: these are those of FIPS 197, IEEE Std 1619 and SP 800-38D (PRESUMED, assumption 18). -/

namespace Sys2Proof.Machine

/-! ### AES-256 -/

/-- Multiply a byte by x in the field of AES. -/
def xtime (b : Byte) : Byte := if b.msb then (b <<< 1) ^^^ 0x1B else b <<< 1

/-- Product of two bytes in the field of AES. -/
def gmul (a b : Byte) : Byte :=
  (List.range 8).reverse.foldl (fun r i => if b.getLsbD i then xtime r ^^^ a else xtime r) 0

/-- Inverse of a byte, its 254th power; 0 for 0. -/
def ginv (a : Byte) : Byte :=
  (List.range 8).reverse.foldl (fun r i => if (254).testBit i then gmul (gmul r r) a else gmul r r) 1

/-- The substitution of a byte. -/
def sbox (a : Byte) : Byte :=
  let x := ginv a
  x ^^^ x.rotateLeft 1 ^^^ x.rotateLeft 2 ^^^ x.rotateLeft 3 ^^^ x.rotateLeft 4 ^^^ 0x63

/-- Bytewise exclusive or. -/
def xorBytes (a b : List Byte) : List Byte := List.zipWith (· ^^^ ·) a b

/-- The next word of the key schedule, word `i` of those before it. -/
def nextWord (ws : List (List Byte)) (i : Nat) : List Byte :=
  let prev := lget ws (i - 1) []
  let old := lget ws (i - 8) []
  if i % 8 = 0 then
    let rcon : Byte := (List.range (i / 8 - 1)).foldl (fun r _ => xtime r) 1
    xorBytes old (xorBytes ((prev.drop 1 ++ prev.take 1).map sbox) [rcon, 0, 0, 0])
  else if i % 8 = 4 then xorBytes old (prev.map sbox)
  else xorBytes old prev

/-- The key schedule: 15 round keys of 16 bytes from 32 key bytes. -/
def roundKeys (key : List Byte) : List (List Byte) :=
  let first := (List.range 8).map fun i => (key.drop (4 * i)).take 4
  let ws := (List.range 52).foldl (fun ws i => ws ++ [nextWord ws (i + 8)]) first
  (List.range 15).map fun r => ((ws.drop (4 * r)).take 4).flatten

/-- Rotate row r of a block by r columns. -/
def shiftRows (b : List Byte) : List Byte := (List.range 16).map fun i => lget b ((i / 4 + i % 4) % 4 * 4 + i % 4) 0

/-- Mix each column of a block. -/
def mixColumns (b : List Byte) : List Byte :=
  (List.range 16).map fun i =>
    let at_ := fun (r : Nat) => lget b (i / 4 * 4 + (i + r) % 4) 0
    xtime (at_ 0) ^^^ xtime (at_ 1) ^^^ at_ 1 ^^^ at_ 2 ^^^ at_ 3

/-- Encrypt a block of 16 bytes. -/
def aesEncrypt (key block : List Byte) : List Byte :=
  let ks := roundKeys key
  let b := (List.range 13).foldl (fun b r => xorBytes (mixColumns (shiftRows (b.map sbox))) (lget ks (r + 1) []))
    (xorBytes block (lget ks 0 []))
  xorBytes (shiftRows (b.map sbox)) (lget ks 14 [])

/-! ### XTS -/

/-- The tweak of the next block of a data unit. -/
def nextTweak (t : List Byte) : List Byte :=
  let n := 2 * ofBytes t
  toBytes 16 (if n < 2 ^ 128 then n else (n - 2 ^ 128) ^^^ 0x87)

/-- Encrypt whole blocks from tweak block `t` on; `fuel` bounds the blocks. -/
def xtsBlocks (k1 t bs : List Byte) : Nat → List Byte
  | 0 => []
  | fuel + 1 =>
    if bs.isEmpty then []
    else xorBytes (aesEncrypt k1 (xorBytes (bs.take 16) t)) t ++ xtsBlocks k1 (nextTweak t) (bs.drop 16) fuel

/-- Encrypt a data unit under data key `k1`, tweak key `k2` and a 128-bit tweak. -/
def xtsEncrypt (k1 k2 : List Byte) (tweak : Nat) (bs : List Byte) : List Byte :=
  xtsBlocks k1 (aesEncrypt k2 (toBytes 16 tweak)) bs (bs.length / 16)

/-! ### GCM -/

/-- A block as a big-endian number. -/
def bigEndian (bs : List Byte) : BitVec 128 := BitVec.ofNat 128 (ofBytes bs.reverse)

/-- Product in the field of GCM. -/
def ghashMul (x y : BitVec 128) : BitVec 128 :=
  ((List.range 128).foldl (fun (p : BitVec 128 × BitVec 128) i =>
    (if x.getLsbD (127 - i) then p.1 ^^^ p.2 else p.1,
      if p.2.getLsbD 0 then (p.2 >>> 1) ^^^ (0xE1 <<< 120) else p.2 >>> 1)) (0, y)).1

/-- Bytes padded with zeros to whole blocks. -/
def padBlock (bs : List Byte) : List Byte := bs ++ List.replicate ((16 - bs.length % 16) % 16) 0

/-- The authentication function over whole blocks; `fuel` bounds them. -/
def ghash (h y : BitVec 128) (bs : List Byte) : Nat → BitVec 128
  | 0 => y
  | fuel + 1 => if bs.isEmpty then y else ghash h (ghashMul (y ^^^ bigEndian (bs.take 16)) h) (bs.drop 16) fuel

/-- Counter block `n` of a 96-bit nonce. -/
def counterBlock (nonce : List Byte) (n : Nat) : List Byte := nonce ++ (toBytes 4 n).reverse

/-- Encrypt in counter mode from counter `n` on; `fuel` bounds the blocks. -/
def ctrBlocks (key nonce : List Byte) (n : Nat) (bs : List Byte) : Nat → List Byte
  | 0 => []
  | fuel + 1 =>
    if bs.isEmpty then []
    else xorBytes (bs.take 16) (aesEncrypt key (counterBlock nonce n)) ++ ctrBlocks key nonce (n + 1) (bs.drop 16) fuel

/-- Encrypt and authenticate: ciphertext and 16-byte tag. -/
def gcmSeal (key nonce aad bs : List Byte) : List Byte × List Byte :=
  let h := bigEndian (aesEncrypt key (List.replicate 16 0))
  let ct := ctrBlocks key nonce 2 bs (bs.length / 16 + 1)
  let lens := (toBytes 8 (8 * aad.length)).reverse ++ (toBytes 8 (8 * ct.length)).reverse
  let data := padBlock aad ++ padBlock ct ++ lens
  let s := ghash h 0 data (data.length / 16)
  (ct, xorBytes (toBytes 16 s.toNat).reverse (aesEncrypt key (counterBlock nonce 1)))

end Sys2Proof.Machine
end

