-- ==== Sys2Proof/Machine/Keys.lean ====
section
/-! DEFINITION. Memory keys and job keys, and the bytes that encrypted memory and packets hold (01_house_plan.md R38;
17_security.md R544 to R549; 18_party_wall.md R578). `State.mem` holds the plaintext of a Loft or Cellar page: what the memory
holds follows from it, the page's Deed entry and the keys. -/

namespace Sys2Proof.Machine

/-! ### Memory keys (R544, R546) -/

/-- K1 and K2: the first 512 bits of SHAKE256(DRS ‖ "SH16 MEM"). -/
def memoryKeys (drs : BitVec 256) : List Byte × List Byte :=
  let l := shake256 (toBytes 32 drs.toNat ++ ascii "SH16 MEM") 64
  (l.take 32, l.drop 32)

/-- The keys in the AES engines: SEC_STATUS.MEM_KEYS says that they are loaded, and the device root secret gives them. -/
def State.memKeys (s : State) : Option (List Byte × List Byte) :=
  if s.reg Reg.secStatusMemKeys = 1 then some (memoryKeys s.fuses.rootSecret) else none

/-! ### Encrypted memory (R38, R545) -/

/-- The XTS tweak of a unit: (UPA div 64) × 2^16 + EPOCH. No media address enters it. -/
def xtsTweak (page unit epoch : Nat) : Nat := (page * 1024 + unit) * 2 ^ 16 + epoch

/-- Check bytes of a unit of a home (08_memory_tiers.md R299). -/
def checkBytes (home : Nat) (cipher : List Byte) : List Byte :=
  (List.range (if home < 18 then 8 else 2)).map (Config.checkByte home cipher)

/-- What the memory holds for a unit of a homed page: its ciphertext, and the check bytes over that. None: the page has no home
on this device, or the keys are not loaded. -/
def State.storedUnit (s : State) (page unit : Nat) : Option (List Byte × List Byte) :=
  let e := s.deedOf page
  match s.memKeys with
  | some (k1, k2) =>
    if dState e = 0 || dState e = 5 || 22 ≤ dHome e then none
    else
      let plain := s.mediaPeek (dHome e) (dFrame e * 65536 + 64 * unit) 64
      let c := xtsEncrypt k1 k2 (xtsTweak page unit (dEpoch e)) plain
      some (c, checkBytes (dHome e) c)
  | none => none

/-! ### Links (R547; 18_party_wall.md R578) -/

/-- The job key of traffic of a job from one device to another: their key inputs, all little-endian. -/
def jobKey (pr : BitVec 256) (job ke pc a b : Nat) : List Byte :=
  shake256 (toBytes 32 pr.toNat ++ ascii "SH16 JOB" ++ toBytes 2 job ++ toBytes 2 ke ++ toBytes 4 pc ++ toBytes 1 a
    ++ toBytes 1 b) 32

/-- The pair root: zero on SH16-A2L36. -/
def FuseSt.root (f : FuseSt) : BitVec 256 := if f.links then f.pairRoot else 0

/-- The 32-byte header of a packet. -/
def packetHeader (p : Packet) : List Byte :=
  toBytes 32 (p.type % 16 + (p.src % 4) <<< 4 + (p.dst % 4) <<< 6 + p.job.toNat <<< 8 + p.ke.toNat <<< 24
    + p.seq.toNat <<< 40 + p.page.toNat <<< 104 + p.unit.toNat <<< 126 + (p.len % 64) <<< 136 + p.rtag.toNat <<< 142
    + p.status.toNat <<< 158 + p.target.toNat <<< 166)

/-- A packet of this device as its port sends it: the header, the payload encrypted under the job key of this direction, and
the tag. -/
def State.wire (s : State) (p : Packet) : List Byte :=
  let key := jobKey s.fuses.root p.job.toNat p.ke.toNat (s.reg Reg.secLinkStartStart) p.src p.dst
  let sealed_ := gcmSeal key (toBytes 8 p.seq.toNat ++ List.replicate 4 0) (packetHeader p) p.payload
  packetHeader p ++ sealed_.1 ++ sealed_.2

end Sys2Proof.Machine
end

