-- ==== Sys2Proof/Tests/Slice0.lean ====
section
/-! SUPPORT. Tests: the smoke test of `Instr.wellFormed`, a few commands on fixed values, and, for every statement, states and
operands that meet the hypotheses of its clauses (`witness_<statement>_<case>`). -/

namespace Sys2Proof.Tests
open Sys2Proof Sys2Proof.Machine

set_option Elab.async false

/-! ### Well-formed commands: for each check a term that it refuses, and one that it takes at the edge -/

/-- `n` bytes. -/
def bytes (n : Nat) : List Byte := List.replicate n 0

/-- An access succeeds. -/
def isOk {α : Type} : Except AFail α → Bool
  | .ok _ => true
  | .error _ => false

/-- An access fails with a status. -/
def isStatus {α : Type} : Except AFail α → Bool
  | .error (.status _ _) => true
  | _ => false

/-- A message of `n` bytes on the management port. -/
def mail (n : Nat) : MsgSrc := .port true (bytes n)

/-- A packet with a payload of `n` bytes. -/
def pkt (n : Nat) : Packet := { emptyPacket with payload := bytes n }

/-- A header on port 0, virtual channel 0, of a data type, its lanes in the order of LANE_MAP 0xE4. -/
def hdr (dt : BitVec 6) : CsiHeader := { port := 0, vc := 0, dt := dt, wires := 0xE4, bad := false }

theorem test_wf_line : (Instr.csiLine 0 (.csi (hdr 0x2A)) .good [2 ^ 20]).wellFormed = false ∧
    (Instr.csiLine 0 (.csi (hdr 0x2A)) .good [2 ^ 20 - 1]).wellFormed = true := by decide
theorem test_wf_line_long : (Instr.csiLine 0 (.csi (hdr 0x2A)) .good (List.replicate 65536 0)).wellFormed = false := by
  decide +kernel
theorem test_wf_embedded : (Instr.embeddedDataPacket 0 (hdr 0x12) ⟨bytes 65536, true⟩).wellFormed = false ∧
    (Instr.embeddedDataPacket 0 (hdr 0x12) ⟨bytes 65535, true⟩).wellFormed = true := by decide +kernel
theorem test_wf_swap : (Instr.swapTestWindow 0 0 (List.replicate 15 0)).wellFormed = false ∧
    (Instr.swapTestWindow 0 0 (List.replicate 16 0)).wellFormed = true := by decide
theorem test_wf_keyhole : (Instr.keyholeFrame 0 (List.replicate 9 ⟨0, false⟩)).wellFormed = false ∧
    (Instr.keyholeFrame 0 (List.replicate 8 ⟨0, false⟩)).wellFormed = true := by decide
theorem test_wf_mic : (Instr.micCheckWindow 0 (List.replicate 15 ⟨0, false, 0⟩)).wellFormed = false ∧
    (Instr.micCheckWindow 0 (List.replicate 16 ⟨4097, false, 0⟩)).wellFormed = false ∧
    (Instr.micCheckWindow 0 (List.replicate 16 ⟨0, false, 4097⟩)).wellFormed = false ∧
    (Instr.micCheckWindow 0 (List.replicate 16 ⟨4096, true, 4096⟩)).wellFormed = true := by decide
theorem test_wf_change : (Instr.porchChangeDeadline 0 []).wellFormed = false := by decide
theorem test_wf_cas : (Instr.cas 0 0 (.sync 4000)).wellFormed = false ∧ (Instr.cas 0 0 (.sync 6400)).wellFormed = true := by
  decide
theorem test_wf_message : (Instr.identity 0 (mail 65536)).wellFormed = false ∧
    (Instr.identity 0 (mail 65535)).wellFormed = true := by decide +kernel
theorem test_wf_packet_payload : (pkt 63).wellFormed = false ∧ (pkt 64).wellFormed = true ∧ (pkt 2112).wellFormed = false := by
  decide +kernel
theorem test_wf_packet_fields : ({ pkt 0 with type := 16 } : Packet).wellFormed = false ∧
    ({ pkt 0 with src := 4 } : Packet).wellFormed = false ∧ ({ pkt 0 with dst := 4 } : Packet).wellFormed = false ∧
    ({ pkt 0 with len := 33 } : Packet).wellFormed = false ∧
    ({ pkt 0 with unit := 1023, len := 2 } : Packet).wellFormed = false := by decide

/-! ### The queue and every command -/

theorem witness_WellFormedCommandsRun : (Instr.timerBoundary 0).wellFormed = true ∧
    (Instr.identity 0 (mail 65536)).wellFormed = false := by decide +kernel
theorem witness_StepKeepsPins : State.reset.pinsFollow = true := by decide +kernel
theorem witness_QuietMachineRests : let s := State.reset
    (∀ e ∈ s.fb.recs, e.2.acked = true → e.2.active = true) ∧ s.mayStart = false ∧ s.fb.stopWait = false ∧ s.gal.ends = [] ∧
      s.rg.owed = [] ∧ s.wk.works = [] ∧ s.strm.shares = [] ∧ s.wk.batches = [] ∧ s.wk.places = [] ∧ s.sec.tsr = none ∧
      s.pwr.entry = .none ∧ s.fb.bondHold = [] ∧ s.fuses.links = false ∧ s.rg.sq = [] ∧ s.mainUp = true ∧
      s.working = false := by decide +kernel
theorem witness_QuietMachineRests_idle :
    let s : State := { State.reset with pwr := { State.reset.pwr with idleSince := some 0 } }
    s.mainUp = true ∧ s.working = false ∧ s.rg.sq = [] ∧ s.pwr.idleSince.isSome = true := by decide +kernel
theorem witness_StepRunsFrontCommand :
    (step { State.reset with pending := [.nop 5 0] }) = exec (.nop 5 0) { State.reset with pending := [] } := by rfl

/-! ### The tick -/

/-- Reset with boundaries enabled from a source. -/
def ticks (src : Nat) : State := (State.reset.setReg Reg.tkCtrlEnable 1).setReg Reg.tkCtrlSource src

/-- A list of a class on wing 0, admitted at 0. -/
def list (cls : Cls) (target : BitVec 64) : Work :=
  { id := 0, cls := cls, wing := 0, src := .ring (State.reset.ticketOf 0 0), dva := 0, count := 1, target := target, admTime := 0 }

/-- A state with these lists. -/
def withLists (s : State) (l : List Work) : State := { s with wk := { s.wk with works := l } }

/-- A tick table of one entry with wing 0's policy and a budget of 16 µs, in tick 5. -/
def budgeted (policy : Nat) (l : List Work) : State :=
  let s := withLists State.reset l
  { s with tick := { s.tick with table := [BitVec.ofNat 256 (policy <<< 8 + 1 <<< 32)], number := 5 } }

theorem witness_TickBoundariesOccur_timer : let a := (ticks 0).at_ 2000000
    a.ticking = true ∧ a.reg Reg.tkCtrlSource = 0 ∧ a.tickBase + a.period = a.now := by decide +kernel
theorem witness_TickBoundariesOccur_timer_early : let a := (ticks 0).at_ 1999999
    a.ticking = true ∧ a.reg Reg.tkCtrlSource = 0 ∧ ¬a.tickBase + a.period ≤ a.now := by decide +kernel
theorem witness_TickBoundariesOccur_substitute : let a := (ticks 1).at_ 2000000
    a.ticking = true ∧ a.reg Reg.tkCtrlSource = 1 ∧ a.tickBase + a.periodHigh = a.now := by decide +kernel
theorem witness_TickBoundariesOccur_holdover : let a := (ticks 3).at_ 2000000
    a.ticking = true ∧ a.reg Reg.tkCtrlSource = 3 ∧ a.tick.vtSync = false ∧ a.tickBase + a.period = a.now := by
  decide +kernel
theorem witness_TickBoundariesOccur_slewed :
    let s := ticks 3
    let a := ({ s with tick := { s.tick with vtSync := true, vtError := 90000 } } : State).at_ 2020000
    a.ticking = true ∧ a.tick.vtError ≠ 0 ∧
      (a.tickBase : Int) + a.period + max (-((a.period : Int) / 100)) (min ((a.period : Int) / 100) a.tick.vtError) = a.now := by
  decide +kernel
theorem witness_TickBoundariesOccur_locked :
    let s := ticks 3
    let a := ({ s with tick := { s.tick with vtSync := true } } : State).at_ 2002000
    a.ticking = true ∧ a.tick.vtError = 0 ∧ a.tick.lastBoundary + a.period / 2 ≤ a.now ∧
      (a.toInstant ((a.now : Int) + a.tick.vtBase)).natAbs = 2000 := by decide +kernel
theorem witness_SourceEdgeWindow_taken : let a := (ticks 2).at_ 2000000
    a.ticking = true ∧ a.edgeCounts (.pin true 100) = true ∧ a.tick.lastBoundary + a.periodLow = a.now := by
  decide +kernel
theorem witness_SourceEdgeWindow_early : let a := (ticks 2).at_ 1999999
    a.ticking = true ∧ a.edgeCounts (.pin true 100) = true ∧
      ¬(a.tick.armedAt.isSome = true ∨ a.tick.lastBoundary + a.periodLow ≤ a.now) := by decide +kernel
theorem witness_SourceEdgeWindow_other : (ticks 2).edgeCounts (.pin true 99) = false := by decide +kernel
theorem witness_BoundaryStartsTick_source : (ticks 1).reg Reg.tkCtrlSource = 1 ∧ (ticks 2).reg Reg.tkCtrlSource = 2 := by
  decide +kernel
theorem witness_BudgetPolicies_nothing : let a := (budgeted 0 []).at_ 16000
    a.mainUp = true ∧ a.budgetOf 0 ≠ 0 ∧ a.tick.lastBoundary + 1000 * (16 * a.budgetOf 0) = a.now ∧
      a.tick.expired.getLsbD 0 = false ∧ a.dueOn 0 = [] := by decide +kernel
theorem witness_BudgetPolicies_carried : let a := (budgeted 1 [list .tick 4]).at_ 16000
    a.dueOn 0 ≠ [] ∧ (a.dueOn 0).filter (fun x => decide (x.target.toNat < a.tick.number.toNat)) ≠ [] := by
  decide +kernel
theorem witness_BudgetPolicies_policies : ∀ p < 3, let a := (budgeted p [list .tick 5]).at_ 16000
    a.dueOn 0 ≠ [] ∧ (a.dueOn 0).filter (fun x => decide (x.target.toNat < a.tick.number.toNat)) = [] ∧ a.policyOf 0 = p ∧
      a.budgetOf 0 ≠ 0 := by decide +kernel
theorem witness_UrgentLimitStops_off : State.reset.reg Reg.tkUrgLimitLimitUs = 0 := by decide +kernel
theorem witness_UrgentLimitStops_on :
    let a := (withLists (State.reset.setReg Reg.tkUrgLimitLimitUs 10) [list .urgent 0]).at_ 10000
    a.reg Reg.tkUrgLimitLimitUs ≠ 0 ∧ (a.wk.works.filter fun x =>
      x.cls == Cls.urgent && x.ending.isNone && decide (x.admTime + us (a.reg Reg.tkUrgLimitLimitUs) ≤ a.now)) ≠ [] := by
  decide +kernel
theorem witness_BackgroundAndVehicleTime_begins : let s := State.reset
    let a : State := { s with tick := { s.tick with bgStart := none } }
    a.computeUp = true ∧ a.tick.bgStart = none ∧
      ∀ x ∈ a.wk.works, a.due x = true → x.ending.isSome = true := by decide +kernel
theorem witness_BackgroundAndVehicleTime_waits : let s := withLists State.reset [list .tick 0]
    let a : State := { s with tick := { s.tick with bgStart := none } }
    ¬∀ x ∈ a.wk.works, a.due x = true → x.ending.isSome = true := by decide +kernel
theorem witness_BackgroundAndVehicleTime_source : let s := ticks 3
    let a : State := { s with tick := { s.tick with vtSync := true } }
    a.reg Reg.tkCtrlSource = 3 ∧ a.flag Reg.tkCtrlEnable = true ∧ a.tick.vtSync = true ∧ a.mainUp = true := by
  decide +kernel
theorem witness_TickRegisters_open : State.reset.regOpen = true ∧ State.reset.flag Reg.rstLockLocked = false := by
  decide +kernel
theorem witness_TickRegisters_closed :
    ({ State.reset with pins := { State.reset.pins with fdReady := false } } : State).regOpen = false := by
  decide +kernel
theorem witness_TickRegisters_rearm : let old := ((ticks 0).word 0x7000).toNat
    bitAt (3 : Nat) 0 = true ∧ bitAt old 0 = true ∧ bitsAt 3 1 8 ≠ bitsAt old 1 8 ∧ bitsAt 1 1 8 = bitsAt old 1 8 := by
  decide +kernel

/-- A boundary makes the tick number one more, and the record of tick 0 names tick 0. -/
theorem test_boundary_number : ((ticks 0).at_ 2000000).boundary.tick.number = 1 := by decide +kernel
/-- The nominal period bounds: 20 % of tolerance puts the early edge of a 2 ms period at 1.6 ms (R43: 2 % × 10). -/
theorem test_tolerance : ((ticks 1).setReg Reg.tkCtrlTolerance 10).periodLow = 1600000 ∧
    ((ticks 1).setReg Reg.tkCtrlTolerance 10).periodHigh = 2400000 := by decide +kernel

/-! ### The Front Door -/

/-- A row buffer of a row. -/
def buf (row : Nat) (dirty : BitVec 64) : RowBuf := { row := row, data := [], dirty := dirty }

/-- Reset with a row open in a bank of channel 0 since instant 0. -/
def opened (bank : Nat) (b : RowBuf) : State :=
  State.reset.setChan 0 { State.reset.chan 0 with open_ := tset [] bank b, lastAct := tset [] bank 0 }

/-- No command came before, so that no minimum holds one back. -/
theorem witness_tooSoon (c : FdChan) (k : FdKind) (b now : Nat) (h : c.recent = []) : c.tooSoon k b now = false := by
  simp [FdChan.tooSoon, h]

/-- A row of bank 2 that waits in a queue since instant 0, its first sector dirty. -/
def queued : WriteBack := { ch := 0, bank := 2, row := 5, data := [(0, 7)], dirty := 1, queuedAt := 0, seq := 0 }

/-- Reset with rows in channel 0's queue. -/
def queue (l : List WriteBack) : State := State.reset.setChan 0 { State.reset.chan 0 with queue := l }

theorem witness_ActOpensRow : let a := State.reset.at_ 0
    a.chanReady 0 = true ∧ (a.chan 0).recent = [] ∧ tfind (a.chan 0).open_ 2 = none ∧ tfind (a.chan 0).lastPre 2 = none ∧ (a.chan 0).acts = [] ∧
      isAperture 0 2 0 = false ∧ isDoorbell 2 0 = false := by decide +kernel
theorem witness_ActOpensRow_minimums :
    let s := State.reset.setChan 0 { State.reset.chan 0 with lastPre := tset [] 2 30, acts := [25, 20, 15, 10] }
    let a := s.at_ 30
    a.chanReady 0 = true ∧ tfind (a.chan 0).lastPre 2 = some 30 ∧ (a.chan 0).acts[0]? = some 25 ∧
      (a.chan 0).acts[3]? = some 10 := by decide +kernel
theorem witness_ReadsReturnRow_plain : let a := (opened 2 (buf 5 0)).at_ 36
    a.chanReady 0 = true ∧ (a.chan 0).recent = [] ∧ tfind (a.chan 0).open_ 2 = some (buf 5 0) ∧ a.early (tfind (a.chan 0).lastAct 2) 36 = false ∧
      isAperture 0 2 5 = false ∧ isDoorbell 2 5 = false := by decide +kernel
theorem witness_ReadsReturnRow_doorbell : let a := (opened 15 (buf 0 0)).at_ 36
    a.chanReady 0 = true ∧ tfind (a.chan 0).open_ 15 = some (buf 0 0) ∧ a.early (tfind (a.chan 0).lastAct 15) 36 = false ∧
      isDoorbell 15 0 = true := by decide +kernel
theorem witness_ReadsReturnRow_aperture : let a := (opened 1 (buf 255 0)).at_ 36
    a.chanReady 0 = true ∧ tfind (a.chan 0).open_ 1 = some (buf 255 0) ∧ a.early (tfind (a.chan 0).lastAct 1) 36 = false ∧
      isAperture 0 1 255 = true ∧ isAperture 0 1 256 = false := by decide +kernel
theorem witness_WritesLayRow : let a := (opened 2 (buf 5 0)).at_ 36
    a.chanReady 0 = true ∧ (a.chan 0).recent = [] ∧ tfind (a.chan 0).open_ 2 = some (buf 5 0) ∧ a.early (tfind (a.chan 0).lastAct 2) 36 = false ∧
      isAperture 0 2 5 = false ∧ isDoorbell 2 5 = false := by decide +kernel
theorem witness_WritesReachRegisters_aperture : let a := (opened 0 (buf 14 0)).at_ 36
    a.chanReady 0 = true ∧ tfind (a.chan 0).open_ 0 = some (buf 14 0) ∧ a.early (tfind (a.chan 0).lastAct 0) 36 = false ∧
      isAperture 0 0 14 = true := by decide +kernel
theorem witness_WritesReachRegisters_doorbell : let a := (opened 15 (buf 0 0)).at_ 36
    a.chanReady 0 = true ∧ a.early (tfind (a.chan 0).lastAct 15) 36 = false ∧ isDoorbell 15 0 = true := by
  decide +kernel
theorem witness_RowsGoHome_clean : let a := (opened 2 (buf 5 0)).at_ 42
    a.chanReady 0 = true ∧ (a.chan 0).recent = [] ∧ tfind (a.chan 0).open_ 2 = some (buf 5 0) ∧ a.early (tfind (a.chan 0).lastAct 2) 42 = false ∧
      a.early (tfind (a.chan 0).lastWr 2) 40 = false ∧ a.scrubPending (rowId 0 2 5) = false := by decide +kernel
theorem witness_RowsGoHome_dirty : let a := (opened 2 (buf 5 1)).at_ 42
    tfind (a.chan 0).open_ 2 = some (buf 5 1) ∧ (a.chan 0).queue.length < 32 := by decide +kernel
theorem witness_RowsGoHome_spills :
    let s := opened 2 (buf 5 1)
    let a := (s.setChan 0 { s.chan 0 with queue := List.replicate 32 queued }).at_ 42
    a.chanReady 0 = true ∧ tfind (a.chan 0).open_ 2 = some (buf 5 1) ∧ 32 ≤ (a.chan 0).queue.length := by
  decide +kernel
theorem witness_RowsGoHome_aperture : let a := (opened 0 (buf 14 0)).at_ 42
    a.early (tfind (a.chan 0).lastAct 0) 42 = false ∧ isAperture 0 0 14 = true ∧ tfind (a.chan 0).open_ 1 = none := by
  decide +kernel
theorem witness_RowsGoHome_writeback : let a := (queue [queued]).at_ 0
    a.mainUp = true ∧ (a.chan 0).queue = [queued] ∧ a.sliceOpen queued.ch queued.bank = true := by decide +kernel
theorem witness_RowsGoHome_merge :
    let a : State := { State.reset with fd := { State.reset.fd with spill := [queued] } }
    a.mainUp = true ∧ a.fd.spill.find? (fun x => a.sliceOpen x.ch x.bank) = some queued := by decide +kernel
theorem witness_RowsGoHome_timeout : let a := (queue [queued]).at_ 2000
    a.mainUp = true ∧ (a.chan 0).queue = [queued] ∧ queued.queuedAt + 2000 = a.now := by decide +kernel
theorem witness_ChannelCommands : let a := State.reset.at_ 0
    a.chanReady 0 = true ∧ (a.chan 0).misfit = false ∧ (a.chan 0).deep = false ∧ (a.chan 0).powerDown = false := by
  decide +kernel
theorem witness_ChannelCommands_deep : let a := State.reset.setChan 0 { State.reset.chan 0 with deep := true }
    a.regOpen = true ∧ (a.chan 0).deep = true := by decide +kernel
theorem witness_ChannelCommands_away : let a := State.reset.setChan 0 { State.reset.chan 0 with away := true }
    a.regOpen = true ∧ (a.chan 0).away = true ∧ (a.chan 0).deep = false := by decide +kernel
theorem witness_ChannelCommands_closed :
    ({ State.reset with pwr := { State.reset.pwr with mainGood := false } } : State).regOpen = false := by
  decide +kernel
theorem witness_ModeRegisters_ignored : State.reset.chanReady 0 = true ∧ mrWritable 5 = false := by decide +kernel
theorem witness_ModeRegisters_stored : mrWritable 3 = true ∧ mrMerge 3 0x10 0x18 ≠ 0x18 ∧ mrMerge 3 0x10 0x11 = 0x11 := by
  decide +kernel
theorem witness_ModeRegisters_read : ∀ m ∈ [5, 6, 7, 35, 36, 37, 63], m ≠ 0 := by decide
theorem witness_TrainingCommands :
    let s := State.reset.setChan 0 { State.reset.chan 0 with oscStart := some 0, fifo := [1] }
    s.chanReady 0 = true ∧ (Instr.cas 0 0 (.sync 8533)).wellFormed = true ∧ (s.chan 0).oscStart.isSome = true ∧ (s.chan 0).oscRun = none ∧
      (s.chan 0).fifo.length < fifoDepth ∧ (s.chan 0).fifo = 1 :: [] := by decide +kernel
theorem witness_LpddrResetChannel : (State.reset.at_ 0).regOpen = true := by decide +kernel

/-- A write to row 5 of bank 2 followed by a read returns it; the sector is dirty (R82). -/
theorem test_write_burst : let s := (opened 2 (buf 5 0)).at_ 36
    let u := s.writeBurst 0 2 32 (wholeBurst 32 0xAB) .ok .fits
    ((u.chan 0).open_.map fun e => (e.2.dirty, mread e.2.data 32 2)) = [(2, [0xAB, 0])] := by decide +kernel
/-- R91's address: aperture offset 0x7000 is channel 0, bank 0, row 14, byte 0 (22_register_index.md). -/
theorem test_window_parts : winParts 0x7000 = (0, 0, 14, 0) ∧ winParts 0x3018 = (0, 0, 6, 0x18) := by decide
/-- MRR of MR6 returns 0xB1 (R96). -/
theorem test_mrr : ((State.reset.mrAnswer 0 6 .fits).chan 0).mrData = 0xB1 := by decide +kernel

/-! ### Rings and doorbells -/

/-- Reset with submission and completion ring 0 enabled, of 64 entries each. -/
def ringed : State :=
  ((((State.reset.setReg Reg.rgCtrlEnable 1).setReg (Reg.rgSqCfgEnable.ix 0) 1).setReg (Reg.rgSqCfgLog2Entries.ix 0) 6).setReg
    (Reg.rgCqCfgEnable.ix 0) 1).setReg (Reg.rgCqCfgLog2Entries.ix 0) 6

/-- A doorbell word: KIND, RING, VALUE and the inverse of VALUE. -/
def word (kind ring value : Nat) : BitVec 64 := BitVec.ofNat 64 (kind + ring <<< 4 + value <<< 16 + (0xFFFF - value) <<< 32)

/-- A descriptor of index 0 for completion ring 0: OP, CLASS, TARGET_TICK and OPERANDS. -/
def desc (op cls target ops : Nat) : BitVec 512 := BitVec.ofNat 512 (op <<< 16 + cls <<< 24 + target <<< 128 + ops <<< 192)

/-- Ring 0 has accepted a descriptor. -/
def taking (d : BitVec 512) : State := ringed.setSq 0 { accepted := some d }

/-- Operands of a list at DVA 0 with one step; of a PLACE of one page; of an ARM_URGENT or DISARM of event 0x1000. -/
def opsList : Nat := 1 <<< 64
/-- Operands of an arming of event 0x1000 for a list at DVA 0. -/
def opsArm : Nat := 1 <<< 64 + 0x1000 <<< 80
/-- Operands of a DISARM of event 0x1000. -/
def opsDisarm : Nat := 0x1000 <<< 80

/-- An arming of event 0x1000. -/
def arming : Arming :=
  { event := 0x1000, wing := 0, dva := 0, count := 1, rearm := false, ticket := ringed.ticketOf 0 0, reserved := true,
    run := none, disarm := none }

/-- Ring 0 takes a descriptor while armings are in force. -/
def armed (l : List Arming) (d : BitVec 512) : State := { taking d with rg := { (taking d).rg with armings := l } }

/-- The first 512 MiB of device virtual addresses lead to the first of unified ones for every agent, and UPA page 0 lies in frame
0 of Loft slice 0. -/
def mapped (s : State) : State :=
  { s with xlat := { s.xlat with caches := (List.range 18).map fun a => (a, [{ page := 0, entry := 7, block := true }]) }
           deed := { s.deed with entries := [(0, 0x20)] } }

theorem witness_DoorbellWords_bad : let a := State.reset
    a.doorOpen 0 = true ∧ a.flag Reg.rgCtrlEnable = false ∧ bitsAt (word 1 0 5).toNat 0 4 = 1 ∧ 4 < bitsAt (word 5 0 0).toNat 0 4 := by
  decide +kernel
theorem witness_DoorbellWords_closed :
    (State.reset.setChan 0 { State.reset.chan 0 with away := true }).doorOpen 0 = false := by decide +kernel
theorem witness_DoorbellWords_mark : let a := State.reset
    a.doorOpen 3 = true ∧ bitsAt (word 3 0 9).toNat 0 4 = 3 ∧ a.badWord 3 (word 3 0 9).toNat = false := by
  decide +kernel
theorem witness_DoorbellWords_mailbox : let a := State.reset
    a.doorOpen 0 = true ∧ a.badWord 0 (word 4 0 0).toNat = false ∧ a.rg.mail = none ∧
      ofBytes (a.winRead 0x02000000 32) = 0 := by decide +kernel
theorem witness_DoorbellWords_mailbox_refused : let a := State.reset
    a.badWord 0 (word 4 0 1).toNat = false ∧ ¬bitsAt (ofBytes (a.winRead 0x02000000 32)) 0 16 = 1 := by decide +kernel
theorem witness_DoorbellWords_mailbox_busy :
    ({ State.reset with rg := { State.reset.rg with mail := some { seq := 0, body := [], bad := false } } } : State).rg.mail.isSome
      = true := by decide +kernel
theorem witness_TailDoorbell : let a := ringed
    a.doorOpen 0 = true ∧ ∀ v ∈ [0, 1, 64, 65], a.badWord 0 (word 1 0 v).toNat = false ∧ bitsAt (word 1 0 v).toNat 0 4 = 1 := by
  decide +kernel
theorem witness_TailDoorbell_room :
    2 ^ ringed.reg (Reg.rgSqCfgLog2Entries.ix 0) - ((ringed.sqSt 0).tail - (ringed.sqSt 0).head).toNat = 64 := by
  decide +kernel
theorem witness_HeadDoorbell : let a := ringed.setCq 0 { tail := 2 }
    a.doorOpen 0 = true ∧ (∀ v ∈ [1, 2, 3], a.badWord 0 (word 2 0 v).toNat = false) ∧
      ((a.cqSt 0).tail - (a.cqSt 0).head).toNat = 2 := by decide +kernel
theorem witness_DescriptorArrival_there : let a := ringed.setSq 0 { tail := 1, bells := [(1, 0)] }
    a.unread 0 = true ∧ bitsAt (a.slotOf 0 0) 0 16 = 0 ∧ bitsAt (a.slotOf 0 0) 496 16 = 0 := by decide +kernel
theorem witness_DescriptorArrival_late : let a := (ringed.setSq 0 { tail := 2, head := 1, bells := [(2, 0)] }).at_ 1000000000
    a.unread 0 = true ∧ ¬bitsAt (a.slotOf 0 1) 0 16 = 1 ∧ 0 + us (a.reg Reg.rgLimitsArriveUs) ≤ a.now := by
  decide +kernel
theorem witness_RingAdmission_fence :
    let d := desc 0x08 0 0 0 ||| 0x1_1000_0000#512
    let s := (taking d).setReg Reg.rgLimitsFenceUs 1
    let a := (s.setSq 0 { accepted := some d, fenceSince := some 0 }).at_ 1001
    a.ringsRun = true ∧ a.sqOn 0 = true ∧ a.heldBy 0 d.toNat = 2 ∧ a.reg Reg.rgLimitsFenceUs ≠ 0 ∧
      0 + us (a.reg Reg.rgLimitsFenceUs) < a.now := by decide +kernel
theorem witness_RingAdmission_coalesce : let a := (ringed.setCq 0 { coal := 1, coalFirst := some 0 }).at_ 1000000
    a.cqOn 0 = true ∧ (a.cqSt 0).coal ≠ 0 ∧ 0 + us (a.reg (Reg.rgCqCfgCoalUs.ix 0)) ≤ a.now := by decide +kernel
theorem witness_RingAdmission_order : (taking (desc 0x08 0 0 0)).nextRing = some 0 ∧ ringed.nextRing = none ∧
    (taking (desc 0x08 0 0 0)).descBad (desc 0x08 0 0 0).toNat = false ∧
    (taking (desc 0x0F 0 0 0)).descBad (desc 0x0F 0 0 0).toNat = true := by decide +kernel
theorem witness_ListsFencesArmings_lists :
    ([desc 1 0 0 opsList, desc 1 0 1 opsList, desc 1 1 0 opsList, desc 1 2 0 opsList].all fun d =>
      (taking d).serves 0 d) = true := by decide +kernel
theorem witness_ListsFencesArmings_wing : let d := desc 1 2 0 opsList ||| 0x0C00_0000#512
    (taking d).serves 0 d = true ∧ bitsAt d.toNat 26 2 = 3 ∧ ((taking d).takeDesc 0 d.toNat).tickWing 3 = [] ∧
      ((taking d).takeDesc 0 d.toNat).tickWing 0 ≠ [] := by decide +kernel
theorem witness_ListsFencesArmings_fence : ([desc 8 0 0 0, desc 9 2 0 opsArm, desc 10 0 0 opsDisarm].all fun d =>
    (taking d).serves 0 d && (((taking d).takeDesc 0 d.toNat).arming? 0x1000).isNone) = true := by decide +kernel
theorem witness_ListsFencesArmings_full : let d := desc 9 2 0 opsArm
    (armed [arming] d).serves 0 d = true ∧ (((armed [arming] d).takeDesc 0 d.toNat).arming? 0x1000).isSome = true := by
  decide +kernel
theorem witness_ListsFencesArmings_disarm : let d := desc 10 0 0 opsDisarm
    ([arming, { arming with run := some 0 }, { arming with disarm := some arming.ticket }].all fun x =>
      (armed [x] d).serves 0 d && decide (((armed [x] d).takeDesc 0 d.toNat).arming? 0x1000 = some x)) = true := by
  decide +kernel
theorem witness_WaitingDescriptors :
    ([desc 2 0 0 (1 <<< 48), desc 3 0 0 (1 <<< 16), desc 3 0 0 0, desc 3 0 0 (1 <<< 16 + 1 <<< 32), desc 13 0 0 0,
      desc 6 0 0 (1 <<< 80), desc 7 0 0 (1 <<< 64), desc 13 0 0 (2 <<< 4), desc 13 0 0 (3 <<< 4)].all fun d =>
      (taking d).serves 0 d) = true := by decide +kernel
theorem witness_WaitingDescriptors_present : ((taking (desc 3 0 0 0)).takeDesc 0 0).reg Reg.wgCurrentPresent = 0xFFFF := by
  decide +kernel
theorem witness_WaitingDescriptors_invalidate :
    let j : InvalJob := { ticket := arming.ticket, lo := 0, pages := 0, all_ := true }
    let a : State := { State.reset with wk := { State.reset.wk with invals := [j] } }
    let b : State := { a with deed := { a.deed with held := [{ page := 0, off := 0, bytes := [1] }] } }
    a.wk.invals = j :: [] ∧ j.waits = [] ∧ (∀ tile < 16, (a.tileSt tile).orphans = []) ∧ a.deed.held = [] ∧ a.pw.reqs = [] ∧
      b.wk.invals = j :: [] ∧ b.deed.held ≠ [] ∧ j.all_ = true := by decide +kernel
theorem witness_TableEdits_queue :
    ([desc 11 0 0 0, desc 11 0 0 (1 <<< 16), desc 11 0 0 (2 <<< 16), desc 11 0 0 (3 <<< 16), desc 4 0 0 0,
      desc 5 0 0 0].all fun d => (taking d).serves 0 d) = true := by decide +kernel
theorem witness_TableEdits_sequence :
    let s := mapped ringed
    let a : State := { s with wk := { s.wk with seqJobs := [(arming.ticket, 1#256 <<< 16)] } }
    a.wk.seqJobs.find? (fun j => bitsAt j.2.toNat 0 16 == 0) = some (arming.ticket, 1#256 <<< 16) ∧ a.seqRuns 0 = false ∧
      (runAcc a (seqEdit (1 <<< 16))).2 = .ok (stOk, 0) := by decide +kernel
theorem witness_TableEdits_stream :
    let s := mapped ringed
    let s : State := { s with mem := [(spaceKey 0 0, 1)] }
    let a : State := { s with wk := { s.wk with strmJobs := [(arming.ticket, 0, 0)] } }
    a.wk.strmJobs.find? (fun j => bitsAt j.2.2.toNat 0 14 == 0) = some (arming.ticket, 0, 0) ∧ a.chunkRuns 0 = false ∧
      (runAcc a (streamEdit 0 0)).2 = .ok (stOk, 0) := by decide +kernel
theorem witness_TableEdits_actions : (seqAction (1 <<< 16) 1 0).isSome = true ∧
    (seqAction (2 <<< 16 + 3 <<< 112) (1 + 3 <<< 128) 0).isSome = true ∧
    (seqAction (2 <<< 16 + 4 <<< 112) (1 + 3 <<< 128) 0) = none ∧ (seqAction (3 <<< 16) 1 0).isSome = true ∧
    (awayAction 0 1 0).isSome = true ∧ (awayAction 0 9 0).isSome = true ∧ (homeAction 0 9 0).isSome = true ∧
    (homeAction (64 <<< 64) 9 0).isSome = true := by decide +kernel
theorem witness_TableEdits_run : let s := mapped ringed
    let d := desc 11 0 0 (1 <<< 16)
      let took := ((s.setSq 0 { accepted := some d }).takeDesc 0 d.toNat)
      took.wk.seqJobs = [] ∧ took.wk.strmJobs = [] ∧ took.seqRuns 0 = false ∧ took.chunkRuns 0 = false ∧
        (runAcc took (rdNat whoBridge (took.seqDva 0) 32)).2 = .ok 0 ∧
        (runAcc took (rdNat whoBridge (took.strmDva 0) 32)).2 = .ok 0 ∧
        isOk (runAcc took (wr whoBridge 0 (toBytes 32 1))).2 = true := by decide +kernel
theorem witness_CompletionRecords_room : ringed.rg.owed = [] ∧ ((ringed.cqSt 0).tail - (ringed.cqSt 0).head).toNat < 64 := by
  decide +kernel
theorem witness_CompletionRecords_full : let s := ringed.setCq 0 { tail := 64 }
    ¬((s.cqSt 0).tail - (s.cqSt 0).head).toNat < 2 ^ s.reg (Reg.rgCqCfgLog2Entries.ix 0) := by decide +kernel
theorem witness_CompletionRecords : arming.ticket.quiet = false ∧ ({ arming.ticket with quiet := true } : Ticket).quiet = true := by
  decide +kernel
theorem witness_StatusRowAndReply_row : let a := State.reset.setReg Reg.rgStatusRowValid 1
    a.mainUp = true ∧ a.flag Reg.rgStatusRowValid = true ∧ State.reset.flag Reg.rgStatusRowValid = false := by
  decide +kernel
theorem witness_StatusRowAndReply_reply :
    let s := State.reset
    let a : State := { s with rg := { s.rg with mail := some { seq := 3, body := [], bad := false } }
                              sty := { s.sty with replyMail := some ([1], 0) } }
    a.mainUp = true ∧ a.sty.up = true ∧ a.rg.mail.isSome = true ∧ a.sty.replyMail = some ([1], 0) := by decide +kernel

/-- Boundary values of R128: in an empty ring of 64 entries tail 64 is taken and 65 overflows. -/
theorem test_tail : ((ringed.sqTail 0 64).sqSt 0).tail = 64 ∧ ((ringed.sqTail 0 65).sqSt 0).tail = 0 ∧
    (ringed.sqTail 0 65).reg Reg.rgDbErrSqOverflow = 1 := by decide +kernel
/-- PHASE is 1 on the first lap and 0 on the second (R142). -/
theorem test_phase : phaseOf 63 64 = 1 ∧ phaseOf 64 64 = 0 := by decide
/-- FENCE writes one record at the tail of CQ0 (R121, R142): its STATUS byte is 0 and its PHASE bit is set. -/
theorem test_fence_record : ((taking (desc 8 0 0 0)).admitOne 0).winRead (ringed.reg (Reg.rgCqBaseBase.ix 0) <<< 11 + 2) 2 = [0x40, 0] := by
  decide +kernel

/-! ### Steps and wings -/

/-- Bytes from a key on, as memory holds them. -/
def memOf (k : Nat) (bs : List Byte) : Mem := (bs.zipIdx.filter fun x => x.1 != 0).map fun x => (k + x.2, x.1)

/-- The first 64 KiB of Loft slice 0 hold these bytes; device virtual addresses lead there (`mapped`). -/
def holds (bs : List Byte) (s : State) : State := { mapped s with mem := memOf (spaceKey 0 0) bs }

/-- A COPY of `n` bytes from DVA 0x1000 to DVA 0x2000. -/
def copyOf (n : Nat) : Nat := 0x0B + 0x1000 <<< 64 + 0x2000 <<< 128 + n <<< 192

/-- A running list of `n` steps at DVA 0, with these tiles. -/
def runList (cls : Cls) (n : Nat) (tiles : List TileRun) : Work := { list cls 0 with count := n, phase := .running, tiles := tiles }

/-- A list of these steps runs alone, with these tiles. -/
def stepping (steps : List Nat) (tiles : List TileRun) : State :=
  withLists (holds (steps.flatMap fun d => toBytes 64 d) State.reset) [runList .tick steps.length tiles]

/-- A share of step 0 of a list runs on tile 0. -/
def busy0 (r : TileRun) (p : List StepPlan) : State :=
  withLists State.reset [{ runList .tick 1 [r] with plans := p }]

theorem witness_StepSharesStart_none : State.reset.current 0 = none ∧ State.reset.present 0 = true := by
  decide +kernel
theorem witness_StepSharesStart_copy : let a := stepping [copyOf 64] [{ tile := 0 }]
    let w := runList .tick 1 [{ tile := 0 }]
    let c := a.mkCtx w 0 0 (copyOf 64)
    a.tileFree 0 = true ∧ a.current 0 = some (w, { tile := 0 }) ∧ (runAcc a (readStep w 0 0)).2 = .ok (copyOf 64, none) ∧
      (runAcc a.freshItem (copyKind.check c)).2 = .ok [] ∧ lowest (headerCauses (copyOf 64) none ++ []) = none ∧
      w.ready 0 (copyOf 64) = true ∧ a.lengthWaits w.id 0 = false ∧ hWaitEn (copyOf 64) = false ∧ a.fenced 0 = false ∧
      hKind (copyOf 64) = 0x0B := by decide +kernel
theorem witness_StepSharesStart_bad : let a := stepping [copyOf 0] [{ tile := 0 }]
    let w := runList .tick 1 [{ tile := 0 }]
    a.current 0 = some (w, { tile := 0 }) ∧
      (runAcc a.freshItem (copyKind.check (a.mkCtx w 0 0 (copyOf 0)))).2 = .ok [2] ∧
      lowest (headerCauses (copyOf 0) none ++ [2]) = some 2 := by decide +kernel
theorem witness_StepSharesStart_noKind : let a := stepping [14] [{ tile := 0 }]
    let w := runList .tick 1 [{ tile := 0 }]
    (runAcc a (readStep w 0 0)).2 = .ok (14, none) ∧ kindOf (hKind 14) = none := by decide +kernel
theorem witness_StepSharesStart_unready : let w := runList .tick 3 [{ tile := 0, next := 2 }, { tile := 1 }]
    w.ready 2 (copyOf 64) = false ∧ w.ready 1 (copyOf 64 + 1 <<< 10) = false ∧ w.ready 1 (copyOf 64) = true := by
  decide +kernel
theorem witness_StepSharesStart_fenced :
    let s := stepping [copyOf 64] [{ tile := 0 }]
    let a : State := { s with fb := { s.fb with tilesOut := [s.ptile 0] } }
    let b := s.setReg (Reg.tlMapBayFenced.ix 0) 15
    a.tileFree 0 = true ∧ a.fenced 0 = true ∧ copyKind.bays = false ∧ matmulKind.bays = true ∧ b.fencedBays 0 = 15 := by
  decide +kernel
theorem witness_StepSharesStart_unread : let a := stepping [2 + 0x40000000 <<< 456] [{ tile := 0 }]
    let w := runList .tick 1 [{ tile := 0 }]
    let c := a.mkCtx w 0 0 (2 + 0x40000000 <<< 456)
    isStatus (runAcc a.freshItem (convKind.check c)).2 = true := by decide +kernel
theorem witness_StepSharesStart_alone : hBatch (copyOf 64) = 0 ∧ hKind 1 = 1 ∧
    (State.reset.joinBatch (list .tick 0) (State.reset.mkCtx (list .tick 0) 0 0 1) none).isNone = true := by
  decide +kernel
theorem witness_SharesRun_opens : let s := stepping [copyOf 64] [{ tile := 0 }]
    s.work? 0 = some (runList .tick 1 [{ tile := 0 }]) ∧
      (runList .tick 1 [{ tile := 0 }]).run? 0 = some { tile := 0 } := by decide +kernel
theorem witness_SharesRun_begins : let s := stepping [copyOf 64] [{ tile := 0 }]
    let w := runList .tick 1 [{ tile := 0 }]
    let c := s.mkCtx w 0 0 (copyOf 64)
    let r := ((s.sharesOpen w 0 c.d).bookItem 0 0 0).computeItem w 0 c.d (planStep copyKind c none >>= fun _ => copyKind.begins c)
    r.2 = .ok () ∧ r.1.fedFirst copyKind c = true := by decide +kernel
theorem witness_SharesRun_item :
    let x : PlanItem := { no := 0, rank := 0, lo := 0, hi := 1 }
    let s := stepping [copyOf 64] [{ tile := 0, busy := true }]
    let w := runList .tick 1 [{ tile := 0, busy := true }]
    (s.computeItem w 0 (copyOf 64) (copyKind.run (s.mkCtx w 0 0 (copyOf 64)) x)).2 = .ok () ∧
      isStatus (s.computeItem w 0 (copyOf 64) (copyKind.run (s.mkCtx w 0 0 (copyOf 64 + 0x40000000 <<< 64)) x)).2 = true := by
  decide +kernel
theorem witness_SharesRun_rests : ∀ r ∈ [({ tile := 0 } : TileRun), { tile := 0, busy := true, status := 1 },
    { tile := 0, busy := true, broken := true }, { tile := 0, busy := true, unissued := 1 }],
    r.busy = false ∨ r.status ≠ stOk ∨ r.broken = true ∨ r.unissued ≠ 0 := by decide
theorem witness_SharesRun_causes : (hPipe (6 + 1 <<< 11) = true ∨ hPipe (6 + 1 <<< 10) = true) ∧ 4 ∈ headerCauses 0xB none ++ [4] ∧
    hOutSlots (0xB + 2 <<< 12) ≤ 15 ∧ lowest [5, 2, 4] = some 2 := by decide +kernel
theorem witness_SharesRun_copy : let s := State.reset
    let w := runList .tick 1 [{ tile := 0 }]
    let c := s.mkCtx w 0 0 (copyOf 8192)
    (runAcc s (copyCheck c)).2 = .ok [2] ∧ c.handIn = none ∧ c.handOut = none ∧ c.f 64 48 < c.f 128 48 + c.f 192 32 ∧
      c.f 128 48 < c.f 64 48 + c.f 192 32 := by decide +kernel
theorem witness_BatchesAndResidues_batched :
    let s := State.reset.setReg (Reg.spBatchEnable.ix 0) 1
    let w := runList .tick 1 [{ tile := 0 }]
    let c := s.mkCtx w 0 0 (1 + 5 <<< 20)
    hBatch c.d ≠ 0 ∧ w.cls ≠ .urgent ∧ s.flag (Reg.spBatchEnable.ix w.wing) = true ∧ w.batch = none ∧
      (∀ r ∈ w.tiles, r.next = c.idx ∧ r.busy = false ∧ hWaitEn c.d = false) ∧
      (s.openBatches 0).length < 16 := by decide +kernel
theorem witness_BatchesAndResidues_joins :
    let b : Batch := { id := 9, wing := 0, cls := .tick, key := [7], rows := 60, since := 0, members := [] }
    let s : State := { State.reset with wk := { State.reset.wk with batches := [b] } }
    let w := runList .tick 1 [{ tile := 0 }]
    (s.openBatches w.wing).find? (fun (b : Batch) => b.cls == w.cls && b.key == [7]) = some b ∧ b.rows + 4 ≤ 64 ∧
      64 < b.rows + 5 ∧ ((s.releaseBatch 9).openBatches w.wing).length < 16 ∧
      (s.openBatches w.wing).find? (fun (b : Batch) => b.cls == w.cls && b.key == [8]) = none := by decide +kernel
theorem witness_BatchesAndResidues_full :
    let b : Batch := { id := 9, wing := 0, cls := .tick, key := [7], rows := 60, since := 0, members := [] }
    let s : State := { State.reset with wk := { State.reset.wk with batches := List.replicate 16 b } }
    16 ≤ (s.openBatches 0).length := by decide +kernel
theorem witness_BatchesAndResidues_residue :
    let p : StepPlan := { step := 0, desc := 0, base := 0, pitch := 0, slab := 1, items := [] }
    let p8 : StepPlan := { p with desc := BitVec.ofNat 512 (5 <<< 384 + 5 <<< 388) }
    let a := busy0 { tile := 0, busy := true } [p8]
    a.tileBusy 0 = true ∧ (State.reset.startShare 1 0).runningOn 0 = none ∧
      ((bayFields p8.desc.toNat).af.isInt = true ∧ (bayFields p8.desc.toNat).bf.isInt = true ∨
        (bayFields p8.desc.toNat).af.isInt = false) := by decide +kernel
theorem witness_BatchesAndResidues_fence : let u := State.reset
    (u.reg (Reg.tlMapBayFenced.ix 0)).testBit 1 = false ∧ u.logicalOf (u.ptile 0) = some 0 ∧
      u.reg (Reg.bySpareSparesUsed.ix 0 |>.up 8) ≠ 2 ∧
      ((u.setReg (Reg.tlMapBayFenced.ix 0) 2).reg (Reg.tlMapBayFenced.ix 0)).testBit 1 = true := by decide +kernel
theorem witness_SharesEnd_done : let a := busy0 { tile := 0, busy := true } []
    let w := { runList .tick 1 [{ tile := 0, busy := true }] with plans := [] }
    a.runningOn 0 = some (w, { tile := 0, busy := true }) ∧ a.shareEnd w { tile := 0, busy := true } = (stOk, 0) ∧
      a.scanFinished 0 0 = true ∧ w.halt = none ∧ a.migrating 0 0 = false ∧ a.itemsDone w 0 = true ∧
      (a.shareOver w 0 stOk 0).isSome = true := by decide +kernel
theorem witness_SharesEnd_failed : let r : TileRun := { tile := 0, busy := true, broken := true }
    let a := busy0 r []
    a.shareEnd (runList .tick 1 [r]) r = (stUnitFailed, 0) ∧ stUnitFailed ≠ stOk ∧
      (a.shareOver (runList .tick 1 [r]) 0 stUnitFailed 0).isSome = true := by decide +kernel
theorem witness_SharesEnd_waits : let r : TileRun := { tile := 0, busy := true, reads := 1 }
    let a := busy0 r []
    a.shareEnd (runList .tick 1 [r]) r = (stOk, 0) ∧ r.reads + r.unissued ≠ 0 ∧ (runList .tick 1 [r]).halt = none := by
  decide +kernel
theorem witness_SharesEnd_stuck : let r : TileRun := { tile := 0, busy := true, unissued := 1 }
    let w := { runList .tick 1 [r] with halt := some (0, stUnitFailed, 0) }
    let a := withLists State.reset [w]
    (∃ h, w.halt = some h ∧ h.1 ≤ r.next + 1) ∧ (a.nextItem w r).isNone = true ∧ w.bound ≤ r.next ∧
      a.scanFinished 0 0 = true := by
  exact ⟨⟨_, rfl, by decide⟩, by decide +kernel, by decide +kernel, by decide +kernel⟩
theorem witness_SharesEnd_items :
    let sh : ScanShare := { work := 0, step := 0, tile := 0, desc := 0, todo := [], running := some ⟨0, 3, 0, 0, false, none, false⟩ }
    let s := busy0 { tile := 0, busy := true } []
    ({ s with strm := { s.strm with shares := [sh] } } : State).scanFinished 0 0 = false := by decide +kernel
theorem witness_SharesEnd_advance : let w := runList .tick 1 [{ tile := 0, busy := true }]
    let x := withLists State.reset [w]
    x.mates w = [] ∧ w.run? 0 = some { tile := 0, busy := true } ∧
      (((x.shareOk w { tile := 0, busy := true }).forgetRemote 0).advance 0 0 2).isSome = true := by decide +kernel
theorem witness_SharesEnd_slab :
    let h : HandOff := { step := 0, base := 0, slots := 2, bytes := 64, tiles := [{ tile := 0, slabs := [0, 1] }] }
    let p : StepPlan := { step := 0, desc := 0, base := 0, pitch := 64, slab := 1, items := [] }
    let w : Work := { runList .tick 3 [{ tile := 0, next := 2 }] with plans := [p], hands := [h] }
    w.slabUsed h { tile := 0, slabs := [0, 1] } = true ∧ w.slabUsed h { tile := 0, slabs := [0, 1], freed := 2 } = false := by
  decide +kernel
theorem witness_SharesEnd_read : let r : TileRun := { tile := 0, busy := true, reads := 1, pages := [(2, 0, 5)] }
    let a := busy0 r []
    pageOf (.media 0 (BitVec.ofNat _ 5120)) = some (0, 5) ∧ (a.readerOf 0 (0, 5)).isSome = true ∧ a.readerOf 0 (0, 6) = none ∧
      a.orphanReturns 0 (0, 6) = none := by decide +kernel
theorem witness_SharesEnd_orphan : let ts := State.reset.tileSt 0
    let a := State.reset.setTileSt 0 { ts with orphans := [{ n := 1, urgent := false, pages := [(2, 0, 5)] }] }
    a.readerOf 0 (0, 5) = none ∧ (a.orphanReturns 0 (0, 5)).isSome = true := by decide +kernel
theorem witness_SharesEnd_quantum :
    ([({ tile := 0, busy := true } : TileRun), { tile := 0, busy := true, stop := true }].all fun r =>
      decide ((busy0 r []).runningOn 0 = some (runList .tick 1 [r], r)) && (runList .tick 1 [r]).ending.isNone) = true := by
  decide +kernel
theorem witness_SharesEnd_quantum_ends : let r : TileRun := { tile := 0, busy := true, stop := true }
    let w := { runList .tick 1 [r] with ending := some (stUnitFailed, 0) }
    (withLists State.reset [w]).runningOn 0 = some (w, r) ∧ w.ending.isSome = true := by decide +kernel
theorem witness_SharesEnd_token :
    let e : Emission := { token := 3, work := 0, step := 0, need := [1], from_ := [1], to_ := [0] }
    let a : State := { State.reset with wk := { State.reset.wk with emissions := [e] } }
    let b := a.setTileSt 0 { a.tileSt 0 with tokens := [3] }
    a.wk.emissions.findIdx? (fun e => e.token == 3 && e.to_.contains 0 && e.need.all fun x => e.from_.contains x) = some 0 ∧
      3 ∉ (a.tileSt 0).tokens ∧ 3 ∈ (b.tileSt 0).tokens ∧ e.noted = false ∧
      a.wk.emissions.findIdx? (fun e => e.token == 4 && e.to_.contains 0 && e.need.all fun x => e.from_.contains x) = none := by
  decide +kernel
theorem witness_SharesEnd_limit : State.reset.reg Reg.spLimitsTokenTicks ≠ 0 ∧
    (State.reset.setReg Reg.spLimitsTokenTicks 0).reg Reg.spLimitsTokenTicks = 0 := by decide +kernel

/-- A SCAN share of list 0 on tile 0. -/
def scanning (running : Option ScanItem) : ScanShare :=
  { work := 0, step := 0, tile := 0, desc := 0, todo := [], running := running }

/-- Item 0 of a step, of stream 3, with sequence number 7. -/
def item3 : ScanItem := { idx := 0, stream := 3, valid := 0, seq := 7 }

/-- A list runs a SCAN share on tile 0, with device virtual addresses mapped. -/
def scans (sh : ScanShare) : State :=
  let s := mapped (busy0 { tile := 0, busy := true } [])
  { s with strm := { s.strm with shares := [sh] } }

theorem witness_StreamItems_done : let a := scans (scanning (some item3))
    let r : TileRun := { tile := 0, busy := true }
    (a.runningOn 0).isSome = true ∧ a.scanShare 0 0 = some (scanning (some item3)) ∧ r.reads + r.unissued = 0 ∧ r.status = stOk ∧
      (runAcc a (writeCarry (scanning (some item3)) item3)).2 = .ok () := by decide +kernel
theorem witness_StreamItems_fails : let a := { scans (scanning (some item3)) with xlat := State.reset.xlat }
    isStatus (runAcc a (writeCarry { scanning (some item3) with carry := [1] } item3)).2 = true := by decide +kernel
theorem witness_StreamItems_none : let a := scans (scanning none)
    a.scanShare 0 0 = some (scanning none) ∧ (scanning none).running = none ∧ a.scanShare 0 1 = none := by
  decide +kernel
/-- An entry of stream 3 that fits a step of one head. -/
def entry3 : StreamEntry :=
  { valid := true, mode := 0, fp24 := false, away := false, chunk := 64, heads := 1, pc := 16, nc := 16, bc := false, state := 0,
    init := 0, next := 7, hold := 0, gen := 0 }
/-- The fields of such a step. -/
def fields3 : ScanFields :=
  { x := 0, items := 0, y := 0, marks := false, mode := 0, bc := false, io := .bf16, b := 0, chunk := 64, heads := 1, pc := 16,
    nc := 16, c := 0, yf := .bf16, a := 0, list := 0, mark := 0, work := 0 }
theorem witness_StreamItems_gate : let u := State.reset
    let g := itemGate u (scanning none) fields3
    u.chunkElsewhere 3 0 0 = false ∧ g item3 entry3 = .starts entry3 ∧ g item3 { entry3 with next := 6 } = .held ∧
      g item3 { entry3 with next := 8 } = .fails stStreamSeqStale ∧ g { item3 with dup := true } entry3 = .fails stStreamBusy ∧
      g item3 { entry3 with valid := false } = .fails stStreamInvalid ∧ g item3 { entry3 with away := true } = .held := by
  decide +kernel
theorem witness_StreamItems_hold : let u := scans (scanning none)
    (match (runAcc u (readStream (scanning none).who 3)).2 with
      | .ok e => decide (0 < u.holdLimit e) && decide (u.holdLimit e ≤ 2 ^ 32)
      | .error _ => false) = true := by decide +kernel
theorem witness_CodesConvertBack : Fmt.e4m3.decode 0x7E ≠ .nan ∧ ¬(Fmt.e4m3 = .int2 ∧ (0x7E : Nat) = 2) ∧ 0x7E < 2 ^ Fmt.e4m3.bits := by
  decide +kernel

/-- A COPY of 64 bytes: its one item reads DVA 0x1000 and writes DVA 0x2000. -/
theorem test_copy :
    let s := { stepping [copyOf 64] [{ tile := 0, busy := true }] with mem := memOf (spaceKey 0 0x1000) [9, 8, 7] }
    let w := runList .tick 1 [{ tile := 0, busy := true }]
    (runAcc s (copyKind.run (s.mkCtx w 0 0 (copyOf 64)) { no := 0, rank := 0, lo := 0, hi := 1 })).1.mem =
      memOf (spaceKey 0 0x1000) [9, 8, 7] ++ memOf (spaceKey 0 0x2000) [9, 8, 7] := by decide +kernel
/-- R248: 448 is the largest finite E4M3 value, code 0x7E; 449 saturates to it, an infinity too; FP16 0x3C00 is 1. -/
theorem test_e4m3 : Fmt.e4m3.encode false (Fp.ofInt 449) = 0x7E ∧ Fmt.e4m3.encode false (.inf true) = 0xFE ∧
    Fmt.fp16.encode false (Fp.ofInt 1) = 0x3C00 := by decide +kernel
/-- R243: to nearest even, 2.5 becomes 2 and 3.5 becomes 4; away, 2.5 becomes 3. -/
theorem test_round : roundShift false 5 1 = 2 ∧ roundShift false 7 1 = 4 ∧ roundShift true 5 1 = 3 := by decide

/-! ### Memory and tenants -/

/-- Reset with a Deed entry for page 5. -/
def page5 (e : Nat) : State := { State.reset with deed := { State.reset.deed with entries := [(5, BitVec.ofNat 64 e)] } }

/-- A move of page 5, resident in frame 9 of slice 0, to frame 7 of slice 1, for request 0 or for none. -/
def move5 (zero : Bool) (job : Option Nat) : Move :=
  { page := 5, home := 1, frame := 7, entry := BitVec.ofNat 64 (mkDeed 0 1 0 0 0 9), job := job, zero := zero }

/-- The move is under way; the entry is in a state. -/
def moving (st : Nat) (m : Move) : State :=
  let s := page5 (mkDeed 0 st 0 0 0 9)
  { s with deed := { s.deed with moves := [m] } }

theorem witness_MemoryReadsBack_wf : Mem.wf (memOf 5 [1, 0, 3]) = true := by decide +kernel
theorem witness_MemoryReadsBack_states : let s := page5
    dState ((s (mkDeed 0 5 0 0 0 9)).deedOf 5) = 5 ∧ dState (State.reset.deedOf 6) = 0 ∧
      State.reset.deedCorrupt (State.reset.deedOf 6) = false ∧ dState ((s (mkDeed 0 2 0 0 0 9)).deedOf 5) = 2 ∧
      (s (mkDeed 0 2 0 0 0 9)).deedCorrupt (mkDeed 0 2 0 0 0 9) = false ∧ dState ((s (mkDeed 0 4 0 0 0 9)).deedOf 5) = 4 ∧
      dState ((s (mkDeed 0 3 0 0 0 9)).deedOf 5) = 3 ∧ dHome ((s (mkDeed 17 1 0 0 0 9)).deedOf 5) = 17 ∧
      dEpoch ((s (mkDeed 0 1 0 0 4 9)).deedOf 5) ≠ State.reset.epoch ∧
      (s (mkDeed 0 1 0 0 0 9)).deedCorrupt (mkDeed 0 1 0 0 0 9) = false ∧
      dEpoch ((s (mkDeed 0 1 0 0 State.reset.epoch 9)).deedOf 5) = State.reset.epoch := by decide +kernel
theorem witness_PagesMove_band : State.reset.mainUp = true ∧ 0 ∉ State.reset.pwr.sensBad ∧ 35 ∉ State.reset.pwr.sensBad := by
  decide +kernel
theorem witness_PagesMove_band_bad :
    ([0, 1].all fun i =>
      let a : State := { State.reset with pwr := { State.reset.pwr with sensBad := [i] } }
      a.mainUp && decide (i ∈ a.pwr.sensBad ∧ 1 - i ∉ a.pwr.sensBad)) = true := by decide +kernel
theorem witness_PagesMove_mr4 : let a := State.reset.setReg Reg.celStatusRefmult 3
    State.reset.sty.up = true ∧ State.reset.mainUp = true ∧ bitsAt (a.reg Reg.celStatusRefmult) 0 2 = 3 ∧
      bitsAt (State.reset.reg Reg.celStatusRefmult) 0 2 ≠ 3 := by decide +kernel
theorem witness_PagesMove_fitted :
    ((State.reset.setReg Reg.celCtrlFitted 1).setReg Reg.celCtrlCap 5).celFitted 0 = true := by decide +kernel
theorem witness_PagesMove_trained :
    let a : State := { State.reset with rst := { State.reset.rst with cellarWait := true } }
    a.mainUp = true ∧ a.rst.cellarWait = true := by decide +kernel
theorem witness_PagesMove_down :
    ({ State.reset with pwr := { State.reset.pwr with mainGood := false } } : State).mainUp = false := by
  decide +kernel
theorem witness_PagesMove_none : State.reset.deed.moves = [] := by decide
theorem witness_PagesMove_ends : let a := moving 2 (move5 false (some 0))
    a.deed.moves.find? (fun m => m.page == 5 && !m.remote) = some (move5 false (some 0)) ∧ dState (a.deedOf 5) = 2 ∧
      a.badIn 0 (9 * 65536) 65536 = [] := by decide +kernel
theorem witness_PagesMove_zeroes : let a := moving 2 (move5 true (some 0))
    a.deed.moves.find? (fun m => m.page == 5 && !m.remote) = some (move5 true (some 0)) ∧ dState (a.deedOf 5) = 2 ∧
      a.badIn 0 (9 * 65536) 65536 = [] ∧ (move5 true none).job = none := by decide +kernel
theorem witness_PagesMove_failed : dState ((moving 5 (move5 false none)).deedOf 5) ≠ 2 := by decide +kernel
theorem witness_PagesMove_bad : let a := (moving 2 (move5 false none)).markBad 0 (9 * 65536)
    dState (a.deedOf 5) = 2 ∧ a.badIn 0 (9 * 65536) 65536 ≠ [] := by decide +kernel
theorem witness_PagesMove_zeroing : let a := page5 (mkDeed 0 4 0 0 0 9)
    a.mainUp = true ∧ dState (a.deedOf 5) = 4 ∧ dState (State.reset.deedOf 5) ≠ 4 := by decide +kernel
theorem witness_PagesMove_scrub : let a := page5 (mkDeed 0 3 0 0 0 9)
    a.mainUp = true ∧ a.scrubPages = [5] ∧ State.reset.scrubPages = [] ∧ a.deed.scrubPos = none := by decide +kernel
theorem witness_TenantSwitches_serves :
    let d := desc 12 0 0 State.reset.epoch
    (taking d).serves 0 d = true ∧ bitsAt d.toNat 192 16 = ((taking d).takeDesc 0 d.toNat).epoch ∧
      ((taking d).takeDesc 0 d.toNat).epoch ≠ 0xFFFF := by decide +kernel
theorem witness_TenantSwitches_refused : let d := desc 12 0 0 0x1234
    (taking d).serves 0 d = true ∧ bitsAt d.toNat 192 16 ≠ ((taking d).takeDesc 0 d.toNat).epoch := by decide +kernel
theorem witness_TenantSwitches_exhausted : let d := desc 12 0 0 0xFFFF
    let a := (taking d).setReg Reg.deedStateEpoch 0xFFFF
    a.serves 0 d = true ∧ (a.takeDesc 0 d.toNat).epoch = 0xFFFF := by decide +kernel
theorem witness_TenantSwitches_outside : State.reset.mainUp = true ∧ State.reset.sec.tsr = none := by decide +kernel
theorem witness_TenantSwitches_within :
    ([false, true].all fun b =>
      let j : TsrJob := { ticket := arming.ticket, t0 := 0, rows := [], advanced := b }
      let a : State := { State.reset with sec := { State.reset.sec with tsr := some j } }
      a.mainUp && decide (a.sec.tsr = some j) && a.fd.scrub.isEmpty) = true := by decide +kernel
theorem witness_TenantSwitches_marked :
    let j : TsrJob := { ticket := arming.ticket, t0 := 0, rows := [], advanced := true }
    let a : State := { State.reset with sec := { State.reset.sec with tsr := some j }, fd := { State.reset.fd with scrub := [(0, 5)] } }
    a.mainUp = true ∧ a.fd.scrub ≠ [] ∧ ∃ i ∈ a.fd.scrub, i.1 ≤ rowId 0 0 0 ∧ rowId 0 0 0 < i.2 := by decide +kernel

/-- R270's layout: HOME bits 4:0, STATE 7:5, EPOCH from bit 16, FRAME from bit 32 (mkDeed and its readers agree). -/
theorem test_deed : let e := mkDeed 17 3 2 1 0x1234 77
    dHome e = 17 ∧ dState e = 3 ∧ dClass e = 2 ∧ dArg e = 1 ∧ dEpoch e = 0x1234 ∧ dFrame e = 77 := by decide +kernel
/-- A move within the device ends: the bytes stand at the new home, the entry names it. -/
theorem test_move :
    let s := { moving 2 (move5 false none) with mem := memOf (spaceKey 0 (9 * 65536)) [4, 2] }
    let u := s.moveEnds 5 none
    mread u.mem (spaceKey 1 (7 * 65536)) 2 = [4, 2] ∧ dHome (u.deedOf 5) = 1 ∧ dFrame (u.deedOf 5) = 7 ∧ dState (u.deedOf 5) = 1 := by
  decide +kernel

/-! ### The Gallery -/

/-- Reset with CSI port 0 enabled, four lanes in LANE_MAP's order 0xE4. -/
def camera : State :=
  ((State.reset.setReg (Reg.galPortEnable.ix 0) 1).setReg (Reg.galPortLanesCsi.ix 0) 2).setReg (Reg.galPortLaneMapCsi.ix 0) 0xE4

/-- A frame in progress since instant 0. -/
def frame0 : GalFrame := { start := 0, tick := 0, vt := 0, frame := 1 }

/-- Input stream 0 on port 0, RAW8, 4 × 2 pixels, with a period of 1,000 µs. -/
def stream0 (cur : Option GalFrame) : GalIn :=
  { on := true, ctrl := BitVec.ofNat 32 (0x2A <<< 9 + 1), geom := BitVec.ofNat 32 (4 + 2 <<< 16), timing := 1000, cur := cur,
    lastStart := some 0 }

/-- The camera with a frame in progress on stream 0. -/
def filming : State := camera.setGalIn 0 (stream0 (some frame0))

theorem witness_FramesMeasured_off : State.reset.portOn 0 = false ∧ camera.portOn 0 = true := by decide +kernel
theorem witness_FramesMeasured_passes : (hdr 0).bad = false ∧ camera.inOrder 0 (hdr 0).wires = true ∧
    (camera.header (hdr 0)).2 = true := by decide +kernel
theorem witness_FramesMeasured_fails : let h := { hdr 0 with bad := true }
    h.bad = true ∧ (camera.header h).2 = false := by decide +kernel
theorem witness_FramesMeasured_order : camera.inOrder 0 0x1B = false ∧ (camera.galPort 0).wrong ≠ some 0x1B ∧
    ((camera.header { hdr 0 with wires := 0x1B }).1.galPort 0).wrong = some 0x1B := by decide +kernel
theorem witness_FramesMeasured_parallel : let a := State.reset.setReg (Reg.galPortEnable.ix 12) 1
    a.portOn 12 = true ∧ State.reset.portOn 13 = false := by decide +kernel
theorem witness_FramesMeasured_lines : let a := filming
    ¬(a.portOn 0 = false ∨ (a.galPort 0).faulted = true) ∧ (dtBits 0x2A).isSome = true ∧ (dtBits 0x30).isSome = false ∧
      (Instr.csiLine 0 (.csi (hdr 0x2A)) .crc [1, 2]).wellFormed = true ∧
      (Instr.embeddedDataPacket 0 (hdr 0x12) ⟨[1], false⟩).wellFormed = true := by decide +kernel
theorem witness_FramesMeasured_takers : let b := (filming.header (hdr 0x2A)).1
    b.streams (fun g => g.port == 0 && g.vc == 0 && g.dt == 0x2A) = [0] ∧
      b.streams (fun g => g.port == 0 && g.vc == 0 && g.dt == 0x2B) = [] ∧
      b.streams (fun g => g.port == 0 && g.vc == 1) = [] := by decide +kernel
theorem witness_FramesMeasured_discard : let a := camera.setGalPort 0 { camera.galPort 0 with faulted := true }
    (a.galPort 0).faulted = true := by decide +kernel
theorem witness_FramesMeasured_geometry : (stream0 none).h = 2 ∧ (stream0 none).w = 4 ∧ frame0.lines.length < (stream0 none).h ∧
    (stream0 none).h ≤ ({ frame0 with lines := [⟨[], 0⟩, ⟨[], 0⟩] } : GalFrame).lines.length := by decide +kernel
theorem witness_FramesMeasured_timeout : let a := filming.at_ 2000000
    (a.galIn 0).cur = some frame0 ∧ a.galleryUp = true ∧ (a.galIn 0).period = 1000 ∧ 0 + 2000 * (a.galIn 0).period = a.now := by
  decide +kernel
theorem witness_FramesMeasured_late : let a := filming.at_ 1000000
    let g := a.galIn 0
    g.lastStart = some 0 ∧ g.period ≠ 0 ∧ g.on = true ∧ g.lateDone = false ∧ a.galleryUp = true ∧
      0 + g.period * (50 + g.tol) * 20 = a.now := by decide +kernel
theorem witness_FramesMeasured_soon : let a := filming.at_ 999999
    ¬0 + (a.galIn 0).period * (50 + (a.galIn 0).tol) * 20 ≤ a.now := by decide +kernel
theorem witness_FramesMeasured_idle : (State.reset.galIn 0).cur = none ∧ (State.reset.galIn 0).lastStart = none := by
  decide +kernel
/-- An output stream of stream 0 into the first 64 KiB of device virtual addresses, and its source's frame. -/
def out0 : GalEnd := { stream := 0, regs := stream0 none, frame := frame0, ended := 1000, outs := [] }
theorem witness_FramesMeasured_writes : let b := mapped camera
    let o := b.galOut 0
    let e := out0.frame.sum out0.regs.h
    ¬((e.short = true ∧ out0.regs.drops = true) ∨ b.stopped = true) ∧
      isOk (runAcc b (writeRows o.slotDva [(0, [1])])).2 = true ∧ isOk (b.putFrameRecord o out0.frame e false false 1000).2 = true := by
  decide +kernel
theorem witness_FramesMeasured_drops : let g := { stream0 none with ctrl := BitVec.ofNat 32 (1 <<< 26) }
    (frame0.sum g.h).short = true ∧ g.drops = true ∧ isOk ((mapped camera).putFrameRecord {} frame0 (frame0.sum g.h) true false 0).2 = true := by
  decide +kernel
theorem witness_FramesMeasured_failed : isStatus (runAcc camera (writeRows 0 [(0, [1])])).2 = true := by
  decide +kernel
theorem witness_FrameRecords_token :
    ([0, 1].all fun k => (({ cfg := [BitVec.ofNat 32 (k <<< 28)] } : GalOut).f 0 28 1) == k) = true := by
  decide +kernel
theorem witness_FrameRecords_lane : let a := camera
    a.galleryUp = true ∧ a.flag (Reg.galPortEnable.ix 0) = true ∧ a.usesLane 0 3 = true ∧ (a.galPort 0).noted = 0 ∧
      (State.reset.setReg (Reg.galPortEnable.ix 0) 1).usesLane 0 3 = false := by decide +kernel
theorem witness_FrameRecords_order : let once := (camera.header { hdr 0 with wires := 0x1B }).1
    camera.portOn 0 = true ∧ once.portOn 0 = true := by decide +kernel
theorem witness_FrameRecords_order_lost : let h := { hdr 0 with wires := 0x1B }
    let a := (camera.header h).1
    a.portOn 0 = true ∧ (a.header h).1.portOn 0 = false := by decide +kernel
theorem witness_FrameRecords_off : State.reset.flag (Reg.galPortEnable.ix 0) = false := by decide +kernel

/-- R387: a line of six pixels in a frame of four is cut and flagged LONG_LINE; one of three SHORT_LINE. -/
theorem test_line : (addLine (stream0 none) frame0 false false false [1, 2, 3, 4, 5, 6]).lines = [⟨[1, 2, 3, 4], 2⟩] ∧
    (addLine (stream0 none) frame0 false false true [1, 2, 3]).lines = [⟨[1, 2, 3], 5⟩] := by decide +kernel
/-- A frame start of port 0 reaches stream 0: FRAME is 1 and its event 0x1000 is raised. -/
theorem test_frame_start :
    let s := ((camera.setReg (Reg.galInCtrlEnable.ix 0) 1).frameStarts (.csi (hdr 0)))
    s.reg (Reg.galFrameFrame.ix 0) = 1 ∧ (s.galIn 0).cur.isSome = true := by decide +kernel

/-! ### The Porch and the Keyhole -/

/-- Reset with the Porch enabled. -/
def porch : State := State.reset.setReg Reg.porCtrlEnable 1

/-- A window in which a channel shows so many ones, follows the pulls, and equals its partner so often. -/
def obs (ones : Nat) (follows : Bool) (same : Nat) : List MicObs := List.replicate 16 ⟨ones, follows, same⟩

/-- The Porch with some of its own state. -/
def porchWith (f : PorSt → PorSt) : State := { porch with por := f porch.por }

/-- A partial match that started at instant 0. -/
def partial0 : Partial := { start := 0, startSample := 0, startState := 0, score := 9 }

/-- A chain at stage 3. -/
def chain3 (p : ChainPhase) : Chain := { stage := 3, phase := p, seq := 1, startSample := 0, firstPost := some 0 }

/-- The Porch with this chain, in the main die's running state, with device virtual addresses mapped and rings enabled. -/
def chained (c : Chain) : State :=
  let s := mapped ringed
  { s with por := { s.por with chain := some c } }

theorem witness_PorchSamples : (porch.at_ 0).capturing = true ∧ State.reset.capturing = false ∧ State.reset.regOpen = true ∧
    (porchWith fun p => { p with settle_ := 1 }).por.settle_ = 1 ∧ State.reset.por.settle_ ≠ 1 := by decide +kernel
theorem witness_PorchSamples_ring : porch.ringChans[0]? = some 0 ∧ porch.silent 0 = false ∧
    (porch.setReg Reg.porCtrlMute 1).silent 0 = true := by decide +kernel
theorem witness_PorchSamples_closed :
    ({ State.reset with pins := { State.reset.pins with fdReady := false } } : State).regOpen = false := by
  decide +kernel
theorem witness_PorchSamples_feed :
    let f : Feed := { base := 0, pages := 1, mask := 1, fmt := 0, first := 0, next := 0 }
    let a := mapped (porchWith fun p => { p with feed := some f })
    a.por.feed = some f ∧ isOk (runAcc a (wr whoBridge (f.base.toNat + f.pages * 65536 - 32) (toBytes 32 f.record))).2 = true ∧
      porch.por.feed = none := by decide +kernel
theorem witness_PorchChecks_window : (Instr.micCheckWindow 0 (obs 2048 true 0)).wellFormed = true ∧ porch.capturing = true ∧
    (Instr.swapTestWindow 0 5 (List.replicate 16 0)).wellFormed = true ∧
    5 < (porch.setReg Reg.porCtrlDetLevel 6).reg Reg.porCtrlDetLevel ∧ ¬5 < (porch.setReg Reg.porCtrlDetLevel 5).reg Reg.porCtrlDetLevel := by
  decide +kernel
theorem witness_PorchChecks_judge : (64 * 63 < 4096 ∧ ¬64 * 64 < 4096) ∧ (63 * 4096 < 64 * 4033 ∧ ¬63 * 4096 < 64 * 4032) ∧
    micJudge ⟨63, true, 0⟩ = 1 ∧ micJudge ⟨4033, false, 0⟩ = 2 ∧ micJudge ⟨64, true, 4090⟩ = 3 ∧ micJudge ⟨4032, true, 4089⟩ = 0 := by
  decide +kernel
theorem witness_PorchChecks_channel : porch.clockOff 0 = false ∧ lget porch.por.good 0 0 + 1 < 4 ∧
    (porch.setChState 0 1).chState 0 ≠ 0 ∧ 4 ≤ lget [3] 0 0 + 1 := by decide +kernel
theorem witness_PorchChecks_beam : let low := (porchWith fun p => { p with profBeam := 1 }).setReg Reg.porCtrlMinBeam 2
    let n := ((maskBits 16 low.por.profBeam.toNat).filter fun c => low.chHealthy c || low.chState c == 4).length
    n < low.reg Reg.porCtrlMinBeam ∧ low.por.beamFault = false ∧ n = 1 := by decide +kernel
theorem witness_PorchChecks_beam_ends : let s := (porchWith fun p => { p with profBeam := 1, beamFault := true }).setReg Reg.porCtrlMinBeam 1
    ¬((maskBits 16 s.por.profBeam.toNat).filter fun c => s.chHealthy c || s.chState c == 4).length < s.reg Reg.porCtrlMinBeam ∧
      s.por.beamFault = true := by decide +kernel
theorem witness_KeyholeAndChain_frame : (Instr.keyholeFrame 0 (List.replicate 8 ⟨0, false⟩)).wellFormed = true ∧
    porch.capturing = true ∧ (porch.scoreFrame (List.replicate 8 ⟨0, false⟩)).por.partials = [] := by decide +kernel
theorem witness_KeyholeAndChain_change :
    ([2500000000, 2499999999].all fun t =>
      let a := (porchWith fun p => { p with changes := [(.profile true, 0)] }).at_ t
      (Instr.porchChangeDeadline t (List.replicate 8 ⟨0, false⟩)).wellFormed && !a.por.changes.isEmpty && a.now == t) = true := by
  decide +kernel
theorem witness_KeyholeAndChain_partial : let a := (porchWith fun p => { p with partials := [(3, partial0)] }).at_ 2500000000
    tfind a.por.partials 3 = some partial0 ∧ partial0.start + 2500000000 = a.now ∧ tfind a.por.partials 4 = none := by
  decide +kernel
theorem witness_KeyholeAndChain_scores : let s := (porch.setReg (Reg.keyPhraseArm.ix 0) 10).setReg (Reg.keyPhraseMatch.ix 0) 20
    256 * s.reg (Reg.keyPhraseArm.ix 0) = 2560 ∧ 256 * s.reg (Reg.keyPhraseMatch.ix 0) = 5120 ∧
      tfind s.por.partials 0 = none ∧ 0 ∉ s.por.blocked := by decide +kernel
theorem witness_KeyholeAndChain_starts : let a := chained (chain3 .starting)
    a.por.chain = some (chain3 .starting) ∧ a.pwr.state ≠ .s2 ∧ (a.safeFloor && a.mainUp) = false ∧
      a.stageMay (chain3 .starting) = true ∧ isOk (runAcc a (wr whoBridge (a.decideDva 3) (toBytes 8 0))).2 = true := by
  decide +kernel
theorem witness_KeyholeAndChain_starts_fails : let a := { chained (chain3 .starting) with xlat := State.reset.xlat }
    isStatus (runAcc a (wr whoBridge (a.decideDva 3) (toBytes 8 0))).2 = true := by decide +kernel
theorem witness_KeyholeAndChain_sleeps : let a := chained (chain3 .starting)
    let b : State := { a with pwr := { a.pwr with state := .s2 } }
    b.pwr.state = .s2 ∧ ({ State.reset with por := a.por } : State).stageMay (chain3 .starting) = false := by
  decide +kernel
theorem witness_KeyholeAndChain_floor :
    let a := (chained (chain3 .starting)).setReg Reg.styModeMode 1
    (a.safeFloor && a.mainUp) = true := by decide +kernel
theorem witness_KeyholeAndChain_ended : let a := chained (chain3 (.ended stOk))
    a.mainUp = true ∧ (runAcc a (rdNat whoBridge (a.decideDva 3) 8)).2 = .ok 0 ∧ a.stageAfter 3 = none ∧
      (a.setReg (stageReg Reg.porChain0En 4) 1).stageAfter 3 = some 4 := by decide +kernel
theorem witness_KeyholeAndChain_answers :
    ([1, 2, 3].all fun v => isOk (runAcc { chained (chain3 (.ended stOk)) with mem := [(spaceKey 0 0, v)] }
      (rdNat whoBridge ((chained (chain3 (.ended stOk))).decideDva 3) 8)).2) = true := by decide +kernel
theorem witness_KeyholeAndChain_timeout : let a := (chained (chain3 .starting)).setReg (stageReg Reg.porChain0TimeoutMs 3) 5
    0 + 1000000 * a.reg (stageReg Reg.porChain0TimeoutMs 3) = 5000000 ∧ (chain3 .starting).firstPost = some 0 := by
  decide +kernel

/-- R411: wire 3 carries channel 6 at the rising edge and channel 7 at the falling edge. -/
theorem test_wires : channelBits (8, 0) = 0x40 ∧ channelBits (0, 8) = 0x80 := by decide +kernel
/-- R434: the first wake record has SEQ 1 and lies in slot 1 of 16. -/
theorem test_wake : ((porch.wakeRecord 2 0 partial0).2.word 0x18A20).toNat = 1 := by decide +kernel

/-! ### Power, clocks, temperatures, resets -/

/-- Reset with some of its power state. -/
def powered (f : PwrSt → PwrSt) : State := { State.reset with pwr := f State.reset.pwr }

/-- Reset with some of its pins. -/
def pinned (f : Pins → Pins) : State := { State.reset with pins := f State.reset.pins }

/-- Reset with a start pending that may begin. -/
def starts : State := { State.reset with rst := { State.reset.rst with starting := true } }

theorem witness_LevelsAndCaps_level : State.reset.mainUp = true ∧ State.reset.pwr.target = State.reset.level ∧
    (powered fun p => { p with target := 3 }).pwr.target ≠ (powered fun p => { p with target := 3 }).level := by
  decide +kernel
theorem witness_LevelsAndCaps_avs : State.reset.pwr.startAvs = none ∧ State.reset.flag Reg.pwrStatusAvsBusy = false ∧
    (State.reset.setReg Reg.pwrStatusAvsBusy 1).flag Reg.pwrStatusAvsBusy = true ∧
    (powered fun p => { p with startAvs := some [] }).pwr.startAvs = some [] := by decide +kernel
theorem witness_LevelsAndCaps_first : let a := State.reset.setReg Reg.pwrCapsSupply 3
    a.reg (capField .supply) ≠ 7 ∧ a.causeOver .supply = true ∧ a.riseDue .supply = true ∧ a.releasing .supply = false ∧
      State.reset.reg (capField .supply) = 7 := by decide +kernel
theorem witness_LevelsAndCaps_next : let a := State.reset.setReg Reg.pwrCapsSupply 4
    a.reg (capField .supply) ≠ 7 ∧ a.riseDue .supply = true ∧ a.releasing .supply = true := by decide +kernel
theorem witness_LevelsAndCaps_thermal : let a := powered fun p => { p with thermOn := true }
    a.reg (capField .thermal) = 7 ∧ a.pwr.thermOn = true ∧ a.causeOver .thermal = true ∧ a.releasing .thermal = false := by
  decide +kernel
theorem witness_LevelsAndCaps_watts : State.reset.reg Reg.pwrLimitWatts = 0 ∧
    (State.reset.setReg Reg.pwrLimitWatts 50).reg Reg.pwrLimitWatts = 50 ∧ 50 < (51 : BitVec 10).toNat ∧ (50 : BitVec 10).toNat ≤ 50 := by
  decide +kernel
theorem witness_SuppliesAndClocks_rails : State.reset.railOn 0 = true ∧ State.reset.railOn 5 = true ∧ State.reset.railOn 7 = true ∧
    State.reset.railOn 10 = true ∧ (powered fun p => { p with mainGood := false }).railOn 5 = false := by
  decide +kernel
theorem witness_SuppliesAndClocks_asleep : let a := powered fun p => { p with state := .s2, mainGood := false }
    (a.pwr.state == .s2 && !a.mainUp) = true ∧ a.railOn 6 = true ∧ (State.reset.pwr.state == .s2 && !State.reset.mainUp) = false := by
  decide +kernel
theorem witness_SuppliesAndClocks_battery : State.reset.pwr.aonGood = true ∧ State.reset.pins.battWarnN = true ∧
    (pinned fun p => { p with battWarnN := false }).pins.battWarnN = false ∧ State.reset.pwr.battLowSince = none := by
  decide +kernel
theorem witness_SuppliesAndClocks_stuck :
    let s := (powered fun p => { p with battLowSince := some 0 }).setReg Reg.pwrCtrlBattStuckS 2
    let a := s.at_ 2000000000
    a.pwr.battLowSince = some 0 ∧ a.reg Reg.pwrCtrlBattStuckS ≠ 0 ∧ a.pwr.battFaulted = false ∧
      0 + 1000000000 * a.reg Reg.pwrCtrlBattStuckS = a.now ∧ ¬0 + 1000000000 * 2 ≤ (s.at_ 1999999999).now := by
  decide +kernel
theorem witness_SuppliesAndClocks_clocks : State.reset.pwr.refMain = true ∧ State.reset.pwr.refAon = true ∧
    (powered fun p => { p with refMain := false }).pwr.refMain = false ∧
    (powered fun p => { p with refAon := false }).pwr.refAon = false := by decide +kernel
theorem witness_SuppliesAndClocks_returns : let a := { starts with pwr := { State.reset.pwr with refMain := false } }
    let back := a.endCondition fcClockLost fun _ => true
    let freed : State := { back with pwr := { back.pwr with refMain := true }, rst := { back.rst with mdrHeld := false } }
    freed.mayStart = true ∧ freed.pwr.startAvs = none ∧ State.reset.mayStart = false := by decide +kernel
theorem witness_TemperaturesAndScans_cap : State.reset.pwr.aonGood = true ∧ State.reset.pwr.state ≠ .s3 ∧
    5 ∉ State.reset.pwr.sensBad ∧ 115 = (115 : BitVec 16).toInt ∧ (114 : BitVec 16).toInt < 115 := by decide +kernel
theorem witness_TemperaturesAndScans_step :
    let a := (powered fun p => { p with thermOn := true, temps := List.replicate 64 120, thermFall := some 0 }).setReg Reg.pwrCapsTherm 2
    a.sty.up = true ∧ a.pwr.thermOn = true ∧ a.reg Reg.pwrCapsTherm ≠ 0 ∧ a.anyHot 120 = true ∧ a.pwr.thermFall = some 0 ∧
      State.reset.pwr.thermOn = false := by decide +kernel
theorem witness_TemperaturesAndScans_trip : (130 : BitVec 16).toInt = 130 ∧ (129 : BitVec 16).toInt < 130 ∧
    (powered fun p => { p with state := .s3 }).pwr.state = .s3 := by decide +kernel
theorem witness_TemperaturesAndScans_cool : let a := powered fun p => { p with tripped := true, temps := List.replicate 64 20 }
    a.pwr.tripped = true ∧ a.hasStop = false ∧ a.anyHot 105 = false ∧ a.rst.resetLow = false ∧ State.reset.pwr.tripped = false := by
  decide +kernel
theorem witness_TemperaturesAndScans_scan : State.reset.sty.up = true ∧
    ({ State.reset with sty := { State.reset.sty with up := false } } : State).sty.up = false := by decide +kernel
theorem witness_SleepAndStarts_doze :
    let s := ((powered fun p => { p with idleSince := some 0 }).setReg Reg.pwrCtrlDozeEn 1).setReg Reg.pwrCtrlDozeUs 5
    let a := s.at_ 5000
    a.pwr.idleSince = some 0 ∧ a.mainUp = true ∧ a.pwr.state = .s0 ∧ a.flag Reg.pwrCtrlDozeEn = true ∧
      0 + a.reg Reg.pwrCtrlDozeUs * 1000 = a.now ∧ (powered fun p => { p with idleSince := none }).pwr.idleSince = none := by
  decide +kernel
theorem witness_SleepAndStarts_grace :
    let a := ((powered fun p => { p with entry := .grace false }).setReg Reg.pwrCtrlGraceMs 3).at_ 3000000
    a.pwr.entry = .grace false ∧ a.pwr.irrevAt + a.reg Reg.pwrCtrlGraceMs * 1000000 = a.now := by decide +kernel
theorem witness_SleepAndStarts_s3 :
    let a := ((powered fun p => { p with state := .s2 }).setReg Reg.pwrRetainS3AfterMin 1).at_ 60000000000
    a.pwr.state = .s2 ∧ 60 * a.reg Reg.pwrRetainS3AfterMin ≠ 0 ∧
      a.pwr.sleptAt + 1000 * (60 * a.reg Reg.pwrRetainS3AfterMin) * 1000000 = a.now := by decide +kernel
theorem witness_SleepAndStarts_wakes : let low := pinned fun p => { p with wakeIn := false }
    let high := pinned fun p => { p with wakeIn := true }
    low.pins.wakeIn = false ∧ high.pins.wakeIn = true ∧ low.pwr.aonGood = true ∧
      (powered fun p => { p with aonGood := false }).pwr.aonGood = false := by decide +kernel
theorem witness_SleepAndStarts_timer :
    let a := ((powered fun p => { p with state := .s3 }).setReg Reg.pwrWakeTimerSeconds 4).at_ 4000000000
    a.pwr.state = .s3 ∧ a.reg Reg.pwrWakeTimerSeconds ≠ 0 ∧
      a.pwr.sleptAt + 1000 * a.reg Reg.pwrWakeTimerSeconds * 1000000 = a.now := by decide +kernel
theorem witness_SleepAndStarts_reset : State.reset.rst.resetLow = false ∧ State.reset.pins.pwrEnMain = true ∧
    State.reset.pins.pwrEnLoft = true ∧ (pinned fun p => { p with pwrEnMain := false, pwrEnLoft := false }).pins.pwrEnMain = false ∧
    ({ State.reset with rst := { State.reset.rst with resetLow := true } } : State).rst.resetLow = true := by
  decide +kernel
theorem witness_SleepAndStarts_mdr :
    let j : MdrJob := { source := 11, after := .nothing, t0 := 0, countStart := true }
    let s := (State.reset.setReg Reg.pwrCtrlGraceMs 3)
    let a := ({ s with rst := { s.rst with mdr := some j } } : State).at_ 3000000
    a.rst.mdr = some j ∧ a.mainUp = true ∧ a.wk.works = [] ∧ a.rg.owed = [] ∧
      j.t0 + a.reg Reg.pwrCtrlGraceMs * 1000000 = a.now ∧ State.reset.rst.mdr = none := by decide +kernel
theorem witness_SleepAndStarts_str : ({ State.reset with rst := { State.reset.rst with strBusy := true } } : State).rst.strBusy = true ∧
    State.reset.rst.strBusy = false := by decide +kernel

/-- R461: with the supply cap at P3 and no other, level P7 requested, P3 is in force. -/
theorem test_level : ((State.reset.setReg Reg.pwrCapsSupply 3).setReg Reg.pwrCapsBatt 7).level ≤ 3 := by
  decide +kernel
/-- R468: a sensor at 130 °C takes both power enables low. -/
theorem test_trip : (match exec (.thermalTrip 0 3 130) State.reset with
    | .next s => !s.pins.pwrEnMain && !s.pins.pwrEnLoft && s.pwr.tripped
    | _ => false) = true := by decide +kernel

/-! ### The party-wall links and the Fusebox -/

/-- The device with party-wall links, port 0 enabled. -/
def linked : State :=
  let s := State.reset.setReg Reg.pwCtrlPortEn 1
  { s with fuses := { s.fuses with links := true } }

/-- Port 0 is up on eight lanes, its peer at position 2. -/
def joined : State := (linked.setReg (Reg.pwPortState.ix 0) 2).setReg (Reg.pwPortPeer.ix 0) 2

/-- What a training finds: these lanes faulty, this set, a matching check or not. -/
def training (bad : BitVec 9) (set : BitVec 32) (ok : Bool) : Training := { bad := bad, setId := set, pos := 2, pc := 1, checkOk := ok }

/-- Job 5 is open in register 0, with the member at position 2. -/
def working : State :=
  ((joined.setReg (Reg.pwJob0State.ix 0) 2).setReg (Reg.pwJob0J.ix 0) 5).setPwJob 0
    { peers := [{ pos := 2, open_ := true, ke := 3, recv := [9] }] }

/-- A packet of a type from the member at position 2. -/
def from2 (type : Nat) (seq : BitVec 64) : Packet := { emptyPacket with type := type, src := 2, job := 5, ke := 3, seq := seq }

theorem witness_PortsTrain_may : linked.linksUp = true ∧ (linked.reg Reg.pwCtrlPortEn).testBit 0 = true ∧
    linked.pins.fdReady = true ∧ linked.pwr.state = .s0 ∧ linked.sec.startOk = true ∧ State.reset.linksUp = false := by
  decide +kernel
theorem witness_PortsTrain_outcomes : (widthOf ((linked.pwPort 0).bad ||| (training 0x3F 0 true).bad).toNat).1 = 4 ∧
    (widthOf ((linked.pwPort 0).bad ||| (training 0x1F 0 true).bad).toNat).1 = 3 ∧
    (training 0 0 true).setId.toNat = (linked.setReg (Reg.pwPortPeer.ix 0) 2).reg Reg.pwSetSetId ∧
    ¬(training 0 7 true).setId.toNat = (linked.setReg (Reg.pwPortPeer.ix 0) 2).reg Reg.pwSetSetId ∧
    (training 0 0 false).checkOk = false := by decide +kernel
theorem witness_PortsTrain_up : joined.portUp 0 = true ∧ joined.portUp 1 = false ∧ linked.portUp 0 = false := by
  decide +kernel
theorem witness_PortsTrain_down :
    let down := joined.setReg (Reg.pwPortState.ix 0) 4
    let other := ((joined.setReg (Reg.pwPortState.ix 1) 3).setReg (Reg.pwPortPeer.ix 1) 2).setReg (Reg.pwPortState.ix 0) 4
    down.reaches 2 = false ∧ other.reaches 2 = true := by decide +kernel
theorem witness_PortsTrain_lost : joined.linksUp = true ∧ 2 ≠ joined.reg Reg.pwIdPos ∧ joined.reaches 2 = true ∧
    joined.reaches 3 = false ∧ joined.jobsWith 3 = [] := by decide +kernel
theorem witness_PortsTrain_widths : (maskBits 9 0).length = 0 ∧ (maskBits 9 0x100).length = 1 ∧ (maskBits 9 0x3).length = 2 ∧
    (maskBits 9 0x1F).length = 5 ∧ (maskBits 9 0x3F).length = 6 := by decide +kernel
theorem witness_PortsTrain_lane : let a := joined
    let b := a.linkRepair 0 0
    a.flag Reg.fbLedgerFull = false ∧ (a.setFlag Reg.fbLedgerFull true).flag Reg.fbLedgerFull = true ∧ a.linksUp = true ∧ a.portUp 0 = true ∧ (a.reg (Reg.pwPortBadLanes.ix 0)).testBit 0 = false ∧
      (widthOf (b.reg (Reg.pwPortBadLanes.ix 0) ||| 1)).1 = 2 ∧
      (widthOf ((b.setReg (Reg.pwPortBadLanes.ix 0) 0x3E).reg (Reg.pwPortBadLanes.ix 0) ||| 1)).1 = 4 := by
  decide +kernel
theorem witness_PacketsServed_accepted : working.linksUp = true ∧ working.portUp 0 = true ∧
    working.jobNamed (from2 2 10) = some 0 ∧
    (working.pwJob 0).peers.find? (fun q => q.pos == (from2 2 10).src) = some { pos := 2, open_ := true, ke := 3, recv := [9] } ∧
    seqOld [9] (from2 2 10).seq = false ∧ (Instr.readReq 0 0 (from2 2 10) true).wellFormed = true := by decide +kernel
theorem witness_PacketsServed_refused : seqOld [9] (from2 2 9).seq = true ∧ seqOld [5000] 903 = true ∧ seqOld [5000] 904 = false ∧
    working.jobNamed { from2 2 10 with job := 6 } = none ∧
    (working.pwJob 0).peers.find? (fun q => q.pos == 1) = none := by decide +kernel
theorem witness_PacketsServed_opens : let s := working.setReg (Reg.pwJob0State.ix 0) 1
    let p := from2 1 1
    p.type = 1 ∧ s.linksUp = true ∧ s.portUp 0 = true ∧
      firstSat 16 (fun j => s.jobState j != 0 && s.reg (Reg.pwJob0J.ix j) == p.job.toNat) = some 0 ∧ s.jobState 0 = 1 ∧
      firstSat 16 (fun j => joined.jobState j != 0 && joined.reg (Reg.pwJob0J.ix j) == p.job.toNat) = none ∧
      p.job ∉ joined.pw.used := by decide +kernel
theorem witness_PacketsServed_used : let s : State := { joined with pw := { joined.pw with used := [5] } }
    (from2 1 1).job ∈ s.pw.used := by decide +kernel
theorem witness_PacketsServed_timeout : let a := (working.setReg (Reg.pwJob0State.ix 0) 1).at_ 10000000
    a.jobState 0 = 1 ∧ (a.pwJob 0).openAt + 10000000 = a.now := by decide +kernel
theorem witness_PacketsServed_backoff :
    let q : RemoteReq := { agent := 0, rtag := 4, job := 0, page := 5, unit := 0, write := false, data := [], target := 2, waiting := true }
    let a : State := { working with pw := { working.pw with reqs := [q] } }
    a.pw.reqs.find? (fun q => q.rtag == 4 && q.waiting) = some q ∧ a.pw.reqs.find? (fun q => q.rtag == 3 && q.waiting) = none := by
  decide +kernel
theorem witness_PacketsServed_views :
    (page5 (mkDeed 0 1 0 0 State.reset.epoch 9)).pageView 5 = .resident 0 9 ∧ State.reset.pageView 5 = .unhomed ∧
      (page5 (mkDeed 0 5 0 0 0 9)).pageView 5 = .failed ∧ (page5 (mkDeed 0 2 0 0 0 9)).pageView 5 = .held ∧
      (page5 (mkDeed 0 3 0 0 0 9)).pageView 5 = .scrub 0 9 ∧ State.reset.badIn 0 (9 * 65536) 64 = [] ∧
      (State.reset.markBad 0 (9 * 65536)).badIn 0 (9 * 65536) 64 ≠ [] := by decide +kernel

/-- An L2 report of a class. -/
def report (cls : Byte) : Report := mkReport cls 1 0 0 true

/-- Reset with these records. -/
def recorded (l : Tbl FaultRec) : State := { State.reset with fb := { State.reset.fb with recs := l } }

/-- A record of that class. -/
def rec0 (active : Bool) : FaultRec := { cls := 0x20, level := 1, active := active }

theorem witness_FaultsClassified_taken : State.reset.pwr.aonGood = true ∧ State.reset.pwr.mainGood = true ∧
    ((powered fun p => { p with mainGood := false }).pwr.mainGood = false ∧ aonClass 0x20 = false ∧ aonClass 0x40 = true) := by
  decide +kernel
theorem witness_FaultsClassified_stops : let stops := fun (s : State) => (s.fb.recs.filter fun e => e.2.level == 3).length
    stops State.reset < stops (State.reset.classify (mkReport 0x20 3)) ∧
      stops (State.reset.classify (report 0x20)) ≤ stops State.reset := by decide +kernel
theorem witness_FaultsClassified_last :
    let a := (powered fun p => { p with supplyBad := [4] }).setReg Reg.pwrCapsSupply 3
    4 ∈ a.pwr.supplyBad ∧ a.pwr.supplyBad.filter (· != 4) = [] ∧ a.reg Reg.pwrCapsSupply = 3 := by decide +kernel
theorem witness_FaultsClassified_same : sameFault (recorded [(0, rec0 true)]).fb.recs (report 0x20) = some (0, rec0 true) := by
  decide +kernel
theorem witness_FaultsClassified_merge : let r := (recorded [(0, { rec0 false with level := 2 })]).fb.recs
    sameFault r (report 0x20) = none ∧ (earliest r 0x20).map (fun e => min 3 (max 1 (e.level + 1))) = some 3 ∧
      mergeSlot r 0x20 2 = some (0, { rec0 false with level := 2 }) ∧ mergeSlot r 0x20 3 = none ∧ freeSlot r = some 1 := by
  decide +kernel
theorem witness_FaultsClassified_fresh : sameFault State.reset.fb.recs (report 0x20) = none ∧
    mergeSlot State.reset.fb.recs 0x20 1 = none ∧ freeSlot State.reset.fb.recs = some 0 := by decide +kernel
theorem witness_FaultsClassified_full : let l := (List.range 64).map fun i => (i, ({ rec0 false with cls := 0x21 } : FaultRec))
    sameFault l (report 0x20) = none ∧ mergeSlot l 0x20 1 = none ∧ freeSlot l = none ∧ (tfind l 63).isSome = true := by
  decide +kernel
theorem witness_FaultRecordsAndUnits_ledger : let r : Repair := { kind := 4, place := 17, bay := 3, index := 1151, source := 4 }
    r.kind < 16 ∧ r.place < 32 ∧ r.bay < 4 ∧ r.index < 8192 ∧ r.source < 8 ∧ 3 < bitsAt (4#128).toNat 0 4 ∧
      bitsAt (3#128).toNat 0 4 ≤ 3 := by decide +kernel
theorem witness_FaultRecordsAndUnits_test : State.reset.fb.test = none ∧
    ({ State.reset with fb := { State.reset.fb with test := some { ptile := 3 } } } : State).fb.test.isSome
      = true := by decide +kernel
theorem witness_FaultRecordsAndUnits_lanes : let e := fun n => (List.range n).map fun i => (0, i)
    let s := fun n => ({ State.reset with fb := { State.reset.fb with bondBad := e n } } : State)
    State.reset.mainUp = true ∧ (0, 9) ∉ State.reset.flash.bondBad ∧ (0, 9) ∉ State.reset.fb.bondBad ∧ (s 1).badLanes 0 0 < 2 ∧
      (s 2).badLanes 0 0 = 2 ∧ 2 < (s 3).badLanes 0 0 ∧ (0, 0) ∈ (s 1).fb.bondBad := by decide +kernel

/-- R593: the second report of a fault that stands only counts. -/
theorem test_counts : (((State.reset.classify (report 0x20)).classify (report 0x20)).fb.recs.map fun e => (e.1, e.2.count)) = [(0, 2)] := by
  decide +kernel

/-! ### Set-up registers -/

/-- A register's fields do not overlap `f`. -/
def apart (off : Nat) (f : Field) : Bool :=
  f.off == off && (Reg.fieldsAt off).contains f && decide (f.lo + f.width ≤ 32) &&
    (Reg.fieldsAt off).all fun g => g == f || decide (g.lo + g.width ≤ f.lo) || decide (f.lo + f.width ≤ g.lo)

/-- Reset with the set-up lock set. -/
def locked : State := State.reset.setReg Reg.rstLockLocked 1

/-- Submission ring 0 enabled with 64 entries at a base in the ring area (3 * 2^24) or outside it. -/
def sqAt (base : Nat) : State :=
  ((State.reset.setReg (Reg.rgSqCfgEnable.ix 0) 1).setReg (Reg.rgSqCfgLog2Entries.ix 0) 6).setReg (Reg.rgSqBaseBase.ix 0) base

/-- The same of a completion ring. -/
def cqAt (base : Nat) : State :=
  ((State.reset.setReg (Reg.rgCqCfgEnable.ix 0) 1).setReg (Reg.rgCqCfgLog2Entries.ix 0) 6).setReg (Reg.rgCqBaseBase.ix 0) base

theorem witness_RegisterFields_stored : (∀ n, normalise 0x6000 n = n) ∧ (∀ n, normalise 0x7000 n = n) ∧
    (∀ n, normalise 0x6020 n = n) ∧ (∀ n, normalise 0x5000 n = n) ∧ (∀ n, normalise 0x000 n = n) := by
  refine ⟨?_, ?_, ?_, ?_, ?_⟩ <;> intro n <;> simp [normalise]
theorem witness_RegisterFields_fields : apart 0x6000 Reg.rgCtrlEnable = true ∧ apart 0x7000 Reg.tkCtrlEnable = true ∧
    apart 0x6020 Reg.rgAttnStatusFault = true ∧ apart 0x5000 Reg.fdCtrlClrCnt = true ∧
    ((Reg.fieldsAt 0).head?.map fun f => apart 0 f && f.acc == .ro) = some true := by decide +kernel
theorem witness_RegisterFields_codes : Reg.rgCtrlEnable.acc = .rw ∧ Reg.tkCtrlEnable.acc = .rwl ∧
    Reg.rgAttnStatusFault.acc = .w1c ∧ Reg.fdCtrlClrCnt.acc = .wo ∧ locked.flag Reg.rstLockLocked = true ∧
    State.reset.flag Reg.rstLockLocked = false := by decide +kernel
theorem witness_RegisterFields_counts : Reg.tkCtrlEnable ∈ Reg.fieldsAt 0x7000 ∧
    bitsAt (locked.word 0x7000).toNat 0 1 ≠ bitsAt (writtenWord 0x7000 (locked.word 0x7000).toNat 1) 0 1 ∧
    writtenWord 0x7000 (locked.word 0x7000).toNat 0 = (locked.word 0x7000).toNat := by decide +kernel
theorem witness_RegisterWrites_open : State.reset.regOpen = true ∧ starts.regOpen = false ∧
    State.reset.regAbsent 0x15100 = true ∧ linked.regAbsent 0x15100 = false ∧ State.reset.regAbsent 0x5000 = false ∧
    Reg.fieldsAt 0x5000 ≠ [] ∧ Reg.fieldsAt 0x2FFC = [] := by decide +kernel
theorem witness_RegisterWrites_keys : bitsAt 0x5A01 8 8 = 0x5A ∧ bitsAt 0x5A01 0 4 = 1 ∧ bitsAt 0x5A72 4 4 = 7 ∧
    bitsAt 0xA540 8 8 = 0xA5 ∧ bitAt 0xA540 6 = true ∧ bitsAt 0x4C02 8 8 = 0x4C ∧ bitAt 0x4C02 1 = true ∧
    State.reset.present 7 = true := by decide +kernel
theorem witness_RegisterWrites_ack : (tfind (recorded [(0, rec0 true)]).fb.recs (bitsAt 0xA500 0 6)).isSome = true ∧
    (tfind State.reset.fb.recs (bitsAt 0xA500 0 6)).isSome = false := by decide +kernel
theorem witness_RegisterWrites_revert : State.reset.revert.isNone = true := by decide +kernel
theorem witness_RegisterWrites_sq : bitAt 0x26 5 = true ∧ bitAt 0x06 5 = false ∧ (sqAt 0x6000).sqOn 0 = true ∧
    State.reset.sqOn 0 = false ∧ ringFits ((sqAt 0x6000).reg (Reg.rgSqBaseBase.ix 0) * 2 ^ 11) ((sqAt 0x6000).sqSlots 0 * 64) = true ∧
    ¬ringFits ((sqAt 0).reg (Reg.rgSqBaseBase.ix 0) * 2 ^ 11) ((sqAt 0).sqSlots 0 * 64) = true := by decide +kernel
theorem witness_RegisterWrites_cq : bitAt 0x86 7 = true ∧ bitAt 0x06 7 = false ∧ (cqAt 0x6000).cqOn 0 = true ∧
    State.reset.cqOn 0 = false ∧ ringFits ((cqAt 0x6000).reg (Reg.rgCqBaseBase.ix 0) * 2 ^ 11) ((cqAt 0x6000).cqSlots 0 * 32) = true ∧
    ¬ringFits ((cqAt 0).reg (Reg.rgCqBaseBase.ix 0) * 2 ^ 11) ((cqAt 0).cqSlots 0 * 32) = true := by decide +kernel
theorem witness_RegisterWrites_size : let f := Reg.rgSqCfgLog2Entries.ix 0
    f.lo + f.width ≤ 32 ∧ (sqAt 0).reg f ≠ bitsAt 0x27 f.lo f.width ∧ (sqAt 0).reg f = bitsAt 0x26 f.lo f.width := by
  decide +kernel
theorem witness_RegisterWrites_row : let s := State.reset.setReg Reg.rgStatusRowValid 1
    s.flag Reg.rgStatusRowValid = true ∧ winExcluded (s.reg Reg.rgStatusRowRowOff * 2 ^ 11) = true := by
  decide +kernel
theorem witness_RegisterWrites_porch : State.reset.flag Reg.porCtrlMute = false ∧
    (State.reset.setReg Reg.keyCtrlEnable 1).flag Reg.keyCtrlEnable = true ∧ State.reset.flag Reg.keyCtrlEnable = false := by
  decide +kernel

/-- R14: a W1C bit goes when it is written 1, and stays when it is written 0. -/
theorem test_w1c : let s := State.reset.setReg Reg.rgAttnStatusFault 1
    (s.putWritten 0x6020 2).reg Reg.rgAttnStatusFault = 0 ∧ (s.putWritten 0x6020 1).reg Reg.rgAttnStatusFault = 1 := by
  decide +kernel
/-- R653: TK_CTRL keeps its value under the set-up lock, and the write counts. -/
theorem test_lock : (locked.putWritten 0x7000 1).reg Reg.tkCtrlEnable = 0 ∧
    (locked.putWritten 0x7000 1).reg Reg.rstLockIgnored = 1 := by decide +kernel

/-! ### The Study -/

/-- The header of a request: TYPE, SESSION and COUNTER. -/
def head (type session counter : Nat) : List Byte := toBytes 2 type ++ [0, 0] ++ toBytes 4 session ++ toBytes 8 counter

/-- Reset with the management port enabled. -/
def net : State := State.reset.setReg Reg.styNetPortEn 1

/-- Session 3, under a key of zeros, after a request with this counter. -/
def session3 (counter : Nat) : Session := { num := 3, key := bytes 32, last := 0, counter := counter }

/-- A state whose port has that session open. -/
def logged (s : State) (counter : Nat) : State := { s with sty := { s.sty with sessions := [session3 counter] } }

/-- A request in that session, with its tag. -/
def sealedMsg (type : Nat) (body : List Byte) : List Byte :=
  head type 3 1 ++ body ++ kmac256 (bytes 32) (head type 3 1 ++ body) "SH16 MSG"

/-- The fields that it reads as. -/
def msgOf (type : Nat) (body : List Byte) : Msg :=
  { type := type, session := 3, counter := 1, body := body, signed := head type 3 1 ++ body,
    tag := kmac256 (bytes 32) (head type 3 1 ++ body) "SH16 MSG", ok := true }

theorem sealed_reads (type : Nat) (body : List Byte) (h : type < 65536) : readMsg (sealedMsg type body) = msgOf type body := by
  have hl : (head type 3 1).length = 16 := by simp [head, Laws.toBytes_length]
  have ht : (head type 3 1 ++ body).take 16 = head type 3 1 := List.take_left' hl
  have hd : (head type 3 1 ++ body).drop 16 = body := List.drop_left' hl
  have hn : ofBytes (head type 3 1) = type + 3 * 2 ^ 32 + 2 ^ 64 := by
    simp [head, toBytes, ofBytes]; omega
  have e0 : bitsAt (type + 3 * 2 ^ 32 + 2 ^ 64) 0 16 = type := by simp [bitsAt]; omega
  have e1 : bitsAt (type + 3 * 2 ^ 32 + 2 ^ 64) 16 16 = 0 := by simp [bitsAt, Nat.shiftRight_eq_div_pow]; omega
  have e2 : bitsAt (type + 3 * 2 ^ 32 + 2 ^ 64) 32 32 = 3 := by simp [bitsAt, Nat.shiftRight_eq_div_pow]; omega
  have e3 : bitsAt (type + 3 * 2 ^ 32 + 2 ^ 64) 64 64 = 1 := by simp [bitsAt, Nat.shiftRight_eq_div_pow]; omega
  rw [sealedMsg, Laws.readMsg_tagged _ _ (by simp [hl]) (by simp) (by rw [ht, hn, e2]; decide), ht, hd, hn, e0, e1, e2, e3]
  rfl

theorem sealed_taken (s : State) (type : Nat) (body : List Byte) (h : type < 65536) (hb : body.length ≤ 1184)
    (h1 : s.pwr.aonGood = true) (h2 : s.sty.up = true) (h3 : s.flag Reg.styNetPortEn = true) (h4 : s.safeFloor = false)
    (h5 : s.now = 0) :
    (logged s 0).takesMsg (.port true (sealedMsg type body)) type false (msgOf type body) (some (session3 1)) (logged s 1) := by
  refine ⟨logged s 0, sealedMsg type body, ?_, sealed_reads type body h, rfl, ?_, rfl, ?_⟩
  · have : (sealedMsg type body).length ≤ 1232 := by simp [sealedMsg, head, Laws.toBytes_length]; omega
    have h3' : (logged s 0).flag Reg.styNetPortEn = true := h3
    have hp : (!(logged s 0).pwr.aonGood || !(logged s 0).sty.up || !(logged s 0).flag Reg.styNetPortEn) = false := by
      rw [h3']; simp [logged, h1, h2]
    simp only [State.arrivedMsg, hp]; simp [this]
  · simp [State.admitMsg, logged, msgOf, session3, h5]
  · have h4' : (logged s 1).safeFloor = false := h4
    simp [State.modeAccepts, h4']

/-- The same by the mailbox. -/
theorem sealed_mailed (s : State) (type : Nat) (body : List Byte) (h : type < 65536) (h1 : s.mainUp = true) (h2 : s.sty.up = true)
    (h3 : s.sty.replyMail = none) (h4 : s.safeFloor = false) (h5 : s.now = 0) (open_ : Bool)
    (h6 : s.rg.mail = some { seq := 1, body := sealedMsg type body, bad := false }) :
    (logged s 0).takesMsg .mailbox type open_ (msgOf type body) (some (session3 1)) (logged s 1) := by
  refine ⟨logged s 0, sealedMsg type body, ?_, sealed_reads type body h, rfl, ?_, rfl, ?_⟩
  · have h1' : (logged s 0).mainUp = true := h1
    have h2' : (logged s 0).sty.up = true := h2
    have h3' : (logged s 0).sty.replyMail = none := h3
    have h6' : (logged s 0).rg.mail = some { seq := 1, body := sealedMsg type body, bad := false } := h6
    simp [State.arrivedMsg, h1', h2', h3', h6']
  · simp [State.admitMsg, logged, msgOf, session3, h5]
  · have h4' : (logged s 1).safeFloor = false := h4
    simp [State.modeAccepts, h4']

/-- A message on the management port. -/
def datagram (bs : List Byte) : MsgSrc := .port true bs

/-- The port with its set-up and this state of the Study. -/
def study (f : StudySt → StudySt) : State := { net with sty := f net.sty }

/-- Safe Floor, entered for a reason. -/
def floored (reason : Nat) : State := (net.setReg Reg.styModeMode 1).setReg Reg.styModeSfReason reason

/-- A request of the mailbox. -/
def mailed (bs : List Byte) : State := { net with rg := { net.rg with mail := some { seq := 1, body := bs, bad := false } } }

/-- An open message that `net` takes. -/
abbrev openTakes (type : Nat) (body : List Byte) : Prop :=
  net.takesMsg (datagram (head type 0 0 ++ body)) type true (readMsg (head type 0 0 ++ body)) none net

theorem witness_MessagesAdmitted_arrives : (State.reset.arrivedMsg (mail 16)).2 = none ∧
    (net.arrivedMsg (mail 16)).2 = some (bytes 16) ∧ (net.arrivedMsg (mail 1233)).2 = none ∧
    (net.arrivedMsg .mailbox).2 = none ∧ ((mailed (bytes 16)).arrivedMsg .mailbox).2 = some (bytes 16) := by
  decide +kernel
theorem witness_MessagesAdmitted_types : (readMsg (bytes 16)).type ∉ messageTypes ∧
    (∀ t ∈ messageTypes, (readMsg (head t 0 0)).type = t) := by decide +kernel
theorem witness_MessagesAdmitted_answers : let m := fun t => readMsg (head t 0 0)
    (net.admitMsg (m 0x11) false true).2 = .refused ∧ (net.admitMsg (m 0x01) true true).2 = .accepted none ∧
    (m 0x01).ok = true ∧ (readMsg [1, 0]).ok = false ∧ (readMsg [1, 0]).type = 1 ∧
    (net.admitMsg (readMsg [1, 0]) true true).2 = .accepted none ∧ (floored 1).modeAccepts 0x42 = false ∧
    (floored 1).modeAccepts 0x10 = false ∧ (floored 2).modeAccepts 0x10 = true ∧ net.modeAccepts 0x42 = true := by
  decide +kernel
theorem witness_MessagesAdmitted_sessions : let s := logged net 5
    s.sty.sessions.find? (fun y => y.num == (msgOf 0x11 []).session) = some (session3 5) ∧ (msgOf 0x11 []).session ≠ 0 ∧
      (∀ x ∈ net.sty.sessions, x.num ≠ 3) ∧ (msgOf 0x11 []).counter ≤ (session3 5).counter ∧
      (session3 0).counter < (msgOf 0x11 []).counter := by
  refine ⟨?_, ?_, ?_, ?_, ?_⟩ <;> decide +kernel
theorem witness_MessagesAdmitted_tags : (msgOf 0x11 []).tag = kmac256 (session3 0).key (msgOf 0x11 []).signed "SH16 MSG" ∧
    ({ msgOf 0x11 [] with tag := [] } : Msg).tag ≠ kmac256 (session3 0).key (msgOf 0x11 []).signed "SH16 MSG" := by
  refine ⟨by simp only [msgOf, session3], fun h => ?_⟩
  have := congrArg List.length h
  simp at this
theorem witness_MessagesAdmitted_fails : let n := fun (s : State) =>
      (((s.sty.fails.filter fun f => decide (s.now < f.1 + 60000000000)) ++ [(s.now, true)]).filter fun f => f.2 == true).length
    n net < 8 ∧ 8 ≤ n (study fun y => { y with fails := List.replicate 7 (0, true) }) := by decide +kernel

theorem witness_MessagesRead_open (t : Nat) (ht : t ∈ [0x01, 0x02, 0x03, 0x10]) : openTakes t [] := by
  rcases List.mem_cons.mp ht with rfl | ht
  · refine ⟨net, head 1 0 0 ++ [], ?_, rfl, ?_, ?_, ?_, ?_⟩ <;> decide +kernel
  rcases List.mem_cons.mp ht with rfl | ht
  · refine ⟨net, head 2 0 0 ++ [], ?_, rfl, ?_, ?_, ?_, ?_⟩ <;> decide +kernel
  rcases List.mem_cons.mp ht with rfl | ht
  · refine ⟨net, head 3 0 0 ++ [], ?_, rfl, ?_, ?_, ?_, ?_⟩ <;> decide +kernel
  rcases List.mem_cons.mp ht with rfl | ht
  · refine ⟨net, head 16 0 0 ++ [], ?_, rfl, ?_, ?_, ?_, ?_⟩ <;> decide +kernel
  · cases ht
theorem witness_MessagesRead_body : openTakes 0x05 (bytes 32) ∧ openTakes 0x06 (bytes 32) := by
  refine ⟨⟨net, head 5 0 0 ++ bytes 32, ?_, rfl, ?_, ?_, ?_, ?_⟩, ⟨net, head 6 0 0 ++ bytes 32, ?_, rfl, ?_, ?_, ?_, ?_⟩⟩ <;> decide +kernel
/-- `net` with the first attestation block used up and a flash that takes no reservation record. -/
def spent : State := ({ net with flash := { net.flash with recordOk := false } }).setReg Reg.secAttIdxLoIndexLo 1024

theorem witness_MessagesRead_quote : let msg := head 6 0 0 ++ bytes 32
    spent.takesMsg (datagram msg) 6 true (readMsg msg) none spent ∧
      ¬(spent.attIndex / 1024 ≤ spent.sec.attHigh ∨ spent.flash.recordOk = true) ∧ net.attIndex / 1024 ≤ net.sec.attHigh := by
  refine ⟨⟨spent, head 6 0 0 ++ bytes 32, ?_, rfl, ?_, ?_, ?_, ?_⟩, ?_, ?_⟩ <;> decide +kernel
theorem witness_MessagesRead_lengths : (readMsg (head 5 0 0 ++ bytes 32)).body.length = 32 ∧
    (readMsg (head 1 0 0 ++ [])).body = [] ∧ (readMsg (head 1 0 0 ++ [0])).body ≠ [] ∧ (readMsg (head 5 0 0)).body.length ≠ 32 := by
  decide +kernel
theorem witness_MessagesRead_other : openTakes 0x01 [0] ∧ openTakes 0x05 [0] := by
  refine ⟨⟨net, head 1 0 0 ++ [0], ?_, rfl, ?_, ?_, ?_, ?_⟩, ⟨net, head 5 0 0 ++ [0], ?_, rfl, ?_, ?_, ?_, ?_⟩⟩ <;> decide +kernel
theorem witness_MessagesRead_layout : net.sty.scans < 2 ^ 32 ∧ net.sty.logSeq < 2 ^ 32 ∧ net.sty.hbSeq < 2 ^ 32 := by
  decide +kernel

/-- A request in a session is taken, whatever the session's update. -/
abbrev taken (s : State) (type : Nat) (body : List Byte) : Prop :=
  (logged s 0).takesMsg (datagram (sealedMsg type body)) type false (msgOf type body) (some (session3 1)) (logged s 1)

/-- The Study with this update under way. -/
def updating (u : Update) : State := study fun y => { y with update := some u }

/-- An update of session 3: a kind, in a phase, holding this. -/
def update3 (kind phase : Nat) (what : Option Staged) : Update :=
  { kind := kind, length := 100, digest := bytes 32, phase := phase, session := 3, what := what }

theorem net_set : net.pwr.aonGood = true ∧ net.sty.up = true ∧ net.flag Reg.styNetPortEn = true ∧ net.safeFloor = false ∧
    net.now = 0 := by decide +kernel

theorem study_flag (f : StudySt → StudySt) (x : Field) : (study f).flag x = net.flag x := by
  simp only [study, State.flag, State.reg, State.word]

theorem updating_taken (u : Update) (type : Nat) (body : List Byte) (h : type < 65536) (hb : body.length ≤ 1184) :
    taken (updating u) type body :=
  sealed_taken (updating u) type body h hb net_set.1 net_set.2.1 ((study_flag _ _).trans net_set.2.2.1)
    (by have := net_set.2.2.2.1; simp only [updating, study, State.safeFloor, State.reg, State.word] at this ⊢; exact this)
    net_set.2.2.2.2

theorem net_taken (type : Nat) (body : List Byte) (h : type < 65536) (hb : body.length ≤ 1184) : taken net type body :=
  sealed_taken net type body h hb net_set.1 net_set.2.1 net_set.2.2.1 net_set.2.2.2.1 net_set.2.2.2.2

theorem witness_MessagesRead_log : taken net 0x11 (bytes 4) ∧ taken net 0x11 [] :=
  ⟨net_taken _ _ (by decide) (by decide), net_taken _ _ (by decide) (by decide)⟩

/-- The port with a nonce issued and, if any, an owner's secret. -/
def challenged (slots : List (BitVec 256)) : State :=
  { study (fun y => { y with nonces := [(bytes 32, 0)] }) with fuses := { net.fuses with slots := slots } }

/-- AUTH with this proof. -/
def authMsg (proof : List Byte) : List Byte := head 4 0 0 ++ (bytes 8 ++ proof)

theorem authMsg_reads (p : List Byte) : readMsg (authMsg p) =
    { type := 4, session := 0, counter := 0, body := bytes 8 ++ p, signed := authMsg p, tag := [], ok := true } := by
  have hl : (head 4 0 0).length = 16 := by simp [head, Laws.toBytes_length]
  have ht : (authMsg p).take 16 = head 4 0 0 := List.take_left' hl
  have hd : (authMsg p).drop 16 = bytes 8 ++ p := List.drop_left' hl
  have hn : ofBytes (head 4 0 0) = 4 := by decide
  have h1 : ¬(authMsg p).length < 16 := by simp [authMsg, hl]
  have h2 : 16 ≤ (authMsg p).length := by omega
  simp [readMsg, ht, hn, h1, h2, hd, bitsAt]

theorem auth_taken (slots : List (BitVec 256)) (p : List Byte) (hp : p.length ≤ 1000) :
    (challenged slots).takesMsg (datagram (authMsg p)) 0x04 true (readMsg (authMsg p)) none (challenged slots) := by
  refine ⟨challenged slots, authMsg p, ?_, rfl, ?_, ?_, ?_, ?_⟩
  · have hf : (challenged slots).flag Reg.styNetPortEn = true := by
      have := net_set.2.2.1
      simp only [challenged, study, State.flag, State.reg, State.word] at this ⊢; exact this
    have ha : (challenged slots).pwr.aonGood = true := net_set.1
    have hb : (challenged slots).sty.up = true := net_set.2.1
    have hl : (authMsg p).length ≤ 1232 := by simp [authMsg, head, bytes, Laws.toBytes_length]; omega
    simp [datagram, State.arrivedMsg, hf, ha, hb, hl]
  · rw [authMsg_reads]
  · rw [authMsg_reads]; simp [State.admitMsg]
  · rw [authMsg_reads]
  · have : (challenged slots).safeFloor = false := by
      have := net_set.2.2.2.1
      simp only [challenged, study, State.safeFloor, State.reg, State.word] at this ⊢; exact this
    simp [State.modeAccepts, this]

theorem witness_SessionsAndTimes_auth : let key := toBytes 32 (7#256).toNat
    let p := kmac256 key (bytes 32 ++ bytes 8) "SH16 AUTH"
    let c := challenged [7]
    let m := readMsg (authMsg p)
    let live := c.sty.nonces.filter fun x => decide (c.now ≤ x.2 + 10000000000)
    m.body.length = 40 ∧ c.authRefused true = false ∧ c.fuses.slots.getLast? = some 7 ∧
      live.find? (fun x => kmac256 key (x.1 ++ m.body.take 8) "SH16 AUTH" == m.body.drop 8) = some (bytes 32, 0) := by
  intro key p c m live
  have hb : m.body = bytes 8 ++ p := by simp [m, authMsg_reads]
  have h8 : (bytes 8 ++ p).take 8 = bytes 8 := List.take_left' rfl
  have h9 : (bytes 8 ++ p).drop 8 = p := List.drop_left' rfl
  have hlive : live = [(bytes 32, 0)] := rfl
  refine ⟨?_, rfl, rfl, ?_⟩
  · rw [hb]; simp [p, bytes]
  · rw [hb, h8, h9, hlive]; simp [p]
theorem witness_SessionsAndTimes_fails : let m := readMsg (authMsg (bytes 32))
    m.body.length = 40 ∧ (readMsg (authMsg [])).body.length ≠ 40 ∧ (challenged []).fuses.slots = [] ∧
      (study fun y => { y with lockout := [(5, true)] }).authRefused true = true ∧ net.authRefused true = false ∧
      (net.sty.nonces.filter fun x => decide (net.now ≤ x.2 + 10000000000)) = [] := by decide +kernel
theorem witness_SessionsAndTimes_provision :
    let bs := head 0x50 0 0 ++ bytes 64
    (mailed bs).takesMsg .mailbox 0x50 (mailed bs).fuses.slots.isEmpty (readMsg bs) none (mailed bs) ∧
      (readMsg bs).body.length = 64 ∧ (readMsg (head 0x50 0 0)).body.length ≠ 64 ∧ (mailed bs).fuses.slots.length < 4 ∧
      fromPort .mailbox = false ∧ fromPort (datagram bs) = true ∧ (head 0x50 3 1).length = 16 := by
  refine ⟨⟨mailed (head 0x50 0 0 ++ bytes 64), head 0x50 0 0 ++ bytes 64, ?_, rfl, ?_, ?_, ?_, ?_⟩, ?_, ?_, ?_, ?_, ?_, ?_⟩ <;> decide +kernel
theorem witness_SessionsAndTimes_port : let bs := head 0x50 0 0 ++ bytes 64
    net.takesMsg (datagram bs) 0x50 net.fuses.slots.isEmpty (readMsg bs) none net := by
  refine ⟨net, head 0x50 0 0 ++ bytes 64, ?_, rfl, ?_, ?_, ?_, ?_⟩ <;> decide +kernel
theorem witness_SessionsAndTimes_owned :
    let s : State := { mailed (sealedMsg 0x50 (bytes 64)) with fuses := { net.fuses with slots := [1, 2, 3, 4] } }
    4 ≤ (logged s 1).fuses.slots.length ∧
      (logged s 0).takesMsg .mailbox 0x50 s.fuses.slots.isEmpty (msgOf 0x50 (bytes 64)) (some (session3 1)) (logged s 1) := by
  refine ⟨?_, sealed_mailed _ _ _ (by decide) ?_ ?_ ?_ ?_ ?_ _ rfl⟩ <;> decide +kernel
theorem witness_SessionsAndTimes_closes : let s := logged (updating (update3 1 1 none)) 0
    s.sty.update = some (update3 1 1 none) ∧ (update3 1 1 none).session = 3 ∧ net.sty.update = none := by
  refine ⟨rfl, rfl, ?_⟩; decide +kernel
theorem witness_SessionsAndTimes_gptp : let on := net.setReg Reg.styNetGptpEn 1
    let ahead : State := { on with sty := { on.sty with gptpGood := 7 } }
    let locked : State := { on with tick := { on.tick with vtSync := true } }
    on.sty.up = true ∧ on.flag Reg.styNetGptpEn = true ∧ net.flag Reg.styNetGptpEn = false ∧ on.tick.vtSync = false ∧
      locked.tick.vtSync = true ∧ ahead.sty.gptpGood + 1 = 8 := by decide +kernel
theorem witness_SessionsAndTimes_silent : let s := net.setReg Reg.styHbPeriodMs 5
    s.sty.up = true ∧ s.reg Reg.styHbPeriodMs = 5 ∧ s.sty.hbLast + 3 * 5 * 1000000 ≤ (s.at_ 15000000).now ∧
      net.reg Reg.styHbPeriodMs = 0 := by decide +kernel
theorem witness_SessionsAndTimes_flush : (study fun y => { y with tail := [1] }).sty.tail ≠ [] ∧ net.safeFloor = false ∧
    net.sty.tail = [] := by decide +kernel

/-- The body of UPDATE_BEGIN for 100 bytes of a kind. -/
def beginBody (kind : Nat) : List Byte := [BitVec.ofNat 8 kind] ++ toBytes 4 100 ++ bytes 32

/-- Generation 2 staged beside generation 1. -/
def generation (n : Nat) : Generation := { number := n, vals := [], keyhole := none, ticks := 3, starts := 2, good := true }
def generations (second : GenState) : State :=
  { net with flash := { net.flash with gens := [some (generation 1), some (generation 2)], genState := [.settled, second] } }

/-- An image of the Study. -/
def image1 (rollback floor : Nat) : Image :=
  { version := 0, level := 1, release := 1, rollback := rollback, floor := floor, kind := 1, good := true, steppings := [],
    compat := [] }

theorem witness_UpdatesAndOrders_none :
    taken net 0x20 (beginBody 1) ∧ taken net 0x21 [] ∧ taken net 0x22 [] ∧ taken net 0x23 [] ∧ taken net 0x24 [] ∧
      taken net 0x25 [] ∧ (logged net 1).sty.update = none := by
  refine ⟨?_, ?_, ?_, ?_, ?_, ?_, by decide +kernel⟩ <;> exact net_taken _ _ (by decide) (by decide)
theorem witness_UpdatesAndOrders_under_way (u : Update) :
    taken (updating u) 0x20 [] ∧ taken (updating u) 0x21 [] ∧ taken (updating u) 0x21 (bytes 5) ∧ taken (updating u) 0x22 [] ∧
      taken (updating u) 0x22 [0] ∧ taken (updating u) 0x23 [] ∧ taken (updating u) 0x23 [0] ∧ taken (updating u) 0x24 [] ∧
      taken (updating u) 0x24 [0] ∧ taken (updating u) 0x25 [] ∧ taken (updating u) 0x25 [0] ∧
      (logged (updating u) 1).sty.update = some u := by
  refine ⟨?_, ?_, ?_, ?_, ?_, ?_, ?_, ?_, ?_, ?_, ?_, rfl⟩ <;> exact updating_taken _ _ _ (by decide) (by decide)
theorem witness_UpdatesAndOrders_begin : let b := beginBody 1
    b.length = 37 ∧ ofBytes (b.take 1) = 1 ∧ ofBytes ((b.drop 1).take 4) = 100 ∧ 100 ≤ updateLimit 1 ∧ net.safeFloor = false ∧
      net.inTrial = false ∧ ofBytes ((beginBody 4).take 1) = 4 ∧ (generations .trial).inTrial = true := by
  decide +kernel
theorem witness_UpdatesAndOrders_trial : taken (generations .trial) 0x20 (beginBody 4) := by
  refine sealed_taken _ _ _ (by decide) (by decide) ?_ ?_ ?_ ?_ ?_ <;> decide +kernel
theorem witness_UpdatesAndOrders_phases : (update3 1 1 none).session = (msgOf 0x21 []).session ∧
    ({ update3 1 1 none with session := 4 } : Update).session ≠ (msgOf 0x21 []).session ∧ (update3 1 3 none).phase ∉ [1, 2] ∧
    (update3 1 2 none).phase ∈ [2] ∧ (update3 1 1 none).phase ∈ [1] := ⟨rfl, by decide, by decide, by decide, by decide⟩
theorem witness_UpdatesAndOrders_data : let fit := bytes 5
    fit.drop 4 ≠ [] ∧ ofBytes (fit.take 4) + (fit.drop 4).length ≤ (update3 1 1 none).length ∧ (fit.drop 4).length ≤ 1024 ∧
      (bytes 4).drop 4 = [] ∧ (update3 1 1 none).kind ≠ 5 ∧ (update3 5 1 none).kind = 5 := by decide
theorem witness_UpdatesAndOrders_verify : let k : KeyImage := { level := 1, phrases := [500], size := 100, digestOk := true }
    net.verdictOf 5 (.keyhole k) = 0 ∧ net.verdictOf 5 (.keyhole { k with level := 3 }) ≠ 0 ∧ net.verdictOf 1 (.keyhole k) ≠ 0 ∧
      net.verdictOf 4 (.generation true (generation 2)) = 0 ∧ net.verdictOf 4 (.generation false (generation 2)) ≠ 0 := by
  decide +kernel
theorem witness_UpdatesAndOrders_commit : let i : Image := image1 0 5
    (max net.fuses.rollback i.floor = 5 ∧ net.fuses.rollback < 5 ∧ net.riseBars 5 = true ∧
      ¬net.fuses.rollback < max net.fuses.rollback (image1 0 0).floor) ∧
    (update3 1 2 (some (.image true i))).what = some (.image true i) ∧
    ({ net with flash := { net.flash with images := [] } } : State).riseBars 5 = false := by decide +kernel
theorem witness_UpdatesAndOrders_generation : let s := generations .staged
    s.genStateAt (s.stageSlot 4) = .staged ∧ s.currentGen.map (·.number) = some 1 ∧ 1 < (generation 2).number ∧
      ¬net.genStateAt (net.stageSlot 4) = .staged := by decide +kernel
theorem witness_UpdatesAndOrders_orders : taken net 0x30 [] ∧ taken net 0x30 [0] ∧ taken net 0x40 [1] ∧ taken net 0x40 [3] ∧
    taken net 0x40 [4] ∧ taken net 0x40 [] ∧ taken net 0x41 [] ∧ taken net 0x42 [] ∧ taken net 0x41 [0] ∧ taken net 0x42 [0] ∧
    (logged net 1).revert = none := by
  refine ⟨?_, ?_, ?_, ?_, ?_, ?_, ?_, ?_, ?_, ?_, by decide +kernel⟩ <;> exact net_taken _ _ (by decide) (by decide)
theorem witness_UpdatesAndOrders_reverts : taken (generations .settled) 0x30 [] ∧
    (logged (generations .settled) 1).revert.isSome = true := by
  refine ⟨sealed_taken _ _ _ (by decide) (by decide) ?_ ?_ ?_ ?_ ?_, ?_⟩ <;> decide +kernel
theorem witness_UpdatesAndOrders_sleeps : let s : State := { net with pwr := { net.pwr with state := .s2 } }
    taken s 0x41 [] ∧ s.pwr.state = .s2 ∧ s.pwr.entry = .none ∧ s.pwr.waking = none ∧ ¬net.pwr.state = .s2 := by
  intro s
  refine ⟨sealed_taken _ _ _ (by decide) (by decide) ?_ ?_ ?_ ?_ ?_, rfl, ?_, ?_, ?_⟩ <;> decide +kernel
theorem witness_UpdatesAndOrders_mailbox : let s := mailed (sealedMsg 0x42 [])
    (logged s 0).takesMsg .mailbox 0x42 false (msgOf 0x42 []) (some (session3 1)) (logged s 1) := by
  refine sealed_mailed _ _ _ (by decide) ?_ ?_ ?_ ?_ ?_ _ rfl <;> decide +kernel

/-! ### Reset -/

theorem witness_ResetState_field : Reg.fdCtrlClrCnt ∈ Reg.allFields := by decide +kernel

end Sys2Proof.Tests
end

/-! PROOFS. Register writes by access code under the set-up lock (00_scope.md R13, R14; 22_register_index.md R653). A write is
a fold of field stores over the word, and so is what the lock holds back: one law says what a field reads after such a fold. -/

namespace Sys2Proof.Proofs
open Sys2Proof Sys2Proof.Machine Sys2Proof.Laws

/-! ### Storing a list of fields in a word -/

/-- Store in a word the value that `val` gives for a field, where it gives one. -/
def putField (val : Field → Option Nat) (x : Nat) (f : Field) : Nat :=
  match val f with
  | some n => putBits x f.lo f.width n
  | none => x

/-- Two fields of one register share no bit. -/
def BitsApart (g f : Field) : Prop := g.lo + g.width ≤ f.lo ∨ f.lo + f.width ≤ g.lo

theorem bitsAt_putField_other {val : Field → Option Nat} {f g : Field} (h : val g = none ∨ BitsApart g f) (x : Nat) :
    bitsAt (putField val x g) f.lo f.width = bitsAt x f.lo f.width := by
  unfold putField
  split
  next n hn => exact bitsAt_putBits_other _ _ _ _ _ _ (h.resolve_left (by simp [hn]))
  next => rfl

theorem bitsAt_putField_same {val : Field → Option Nat} {f : Field} {n : Nat} (h : val f = some n) (x : Nat) :
    bitsAt (putField val x f) f.lo f.width = n % 2 ^ f.width := by
  simp only [putField, h]
  exact bitsAt_putBits_same _ _ _ _

/-- Storing other fields leaves a field as it is. -/
theorem bitsAt_putFields_other {val : Field → Option Nat} {f : Field} {l : List Field}
    (h : ∀ g ∈ l, val g = none ∨ BitsApart g f) (x : Nat) :
    bitsAt (l.foldl (putField val) x) f.lo f.width = bitsAt x f.lo f.width := by
  induction l generalizing x with
  | nil => rfl
  | cons g l ih =>
    obtain ⟨hg, hl⟩ := List.forall_mem_cons.1 h
    exact (ih hl _).trans (bitsAt_putField_other hg x)

/-- Of fields that share no bit, each reads what was stored in it. -/
theorem bitsAt_putFields_same {val : Field → Option Nat} {f : Field} {n : Nat} {l : List Field} (hf : f ∈ l)
    (hn : val f = some n) (h : ∀ g ∈ l, g = f ∨ BitsApart g f) (x : Nat) :
    bitsAt (l.foldl (putField val) x) f.lo f.width = n % 2 ^ f.width := by
  induction l generalizing x with
  | nil => simp at hf
  | cons g l ih =>
    obtain ⟨-, hl⟩ := List.forall_mem_cons.1 h
    by_cases hfl : f ∈ l
    · exact ih hfl hl _
    · obtain rfl : f = g := (List.mem_cons.1 hf).resolve_right hfl
      have hrest : ∀ g ∈ l, val g = none ∨ BitsApart g f := fun g hg =>
        .inr ((hl g hg).resolve_left fun e => hfl (e ▸ hg))
      exact (bitsAt_putFields_other hrest _).trans (bitsAt_putField_same hn x)

theorem bitsAt_mod_two_pow (x : Nat) {lo w n : Nat} (h : lo + w ≤ n) : bitsAt (x % 2 ^ n) lo w = bitsAt x lo w := by
  apply Nat.eq_of_testBit_eq
  intro i
  rw [testBit_bitsAt, testBit_bitsAt, Nat.testBit_mod_two_pow]
  by_cases hi : i < w
  · simp [show lo + i < n by omega]
  · simp [hi]

/-! ### The written word -/

/-- What a write of `v` stores in a field by its access code, the lock apart (R13); none: the field takes no write. -/
def accessValue (old v : Nat) (f : Field) : Option Nat :=
  match f.acc with
  | .rw | .rwl => some (bitsAt v f.lo f.width)
  | .w1c => some (bitsAt old f.lo f.width &&& (2 ^ f.width - 1 - bitsAt v f.lo f.width))
  | .ro | .wo => none

theorem writtenWord_eq (off old v : Nat) :
    writtenWord off old v = normalise off ((Reg.fieldsAt off).foldl (putField (accessValue old v)) old) := by
  have h : putField (accessValue old v) = fun x f => match f.acc with
      | .rw | .rwl => putBits x f.lo f.width (bitsAt v f.lo f.width)
      | .w1c => putBits x f.lo f.width (bitsAt old f.lo f.width &&& (2 ^ f.width - 1 - bitsAt v f.lo f.width))
      | _ => x := by
    funext x f
    unfold putField accessValue
    cases f.acc <;> rfl
  rw [h]
  rfl

/-- The fields whose change the set-up lock holds back when `v` is written (R653). -/
def heldFields (s : State) (off v : Nat) : List Field :=
  if s.flag Reg.rstLockLocked then lockedChanges off (s.word off).toNat (writtenWord off (s.word off).toNat v) else []

/-- The value that a field held is stored again. -/
def heldValue (old : Nat) (f : Field) : Option Nat := some (bitsAt old f.lo f.width)

/-- The word that a write leaves: the written word, its held fields put back. -/
def storedWord (s : State) (off v : Nat) : Nat :=
  (heldFields s off v).foldl (putField (heldValue (s.word off).toNat)) (writtenWord off (s.word off).toNat v)

theorem putWritten_eq (s : State) (off v : Nat) :
    s.putWritten off v =
      if (heldFields s off v).isEmpty then s.setWord off (BitVec.ofNat 32 (storedWord s off v))
      else (s.setWord off (BitVec.ofNat 32 (storedWord s off v))).bump Reg.rstLockIgnored := rfl

theorem mem_heldFields {s : State} {off v : Nat} {f : Field} :
    f ∈ heldFields s off v ↔ s.flag Reg.rstLockLocked = true ∧ f ∈ Reg.fieldsAt off ∧ f.acc = .rwl ∧
      bitsAt (s.word off).toNat f.lo f.width ≠ bitsAt (writtenWord off (s.word off).toNat v) f.lo f.width := by
  unfold heldFields lockedChanges
  split <;> simp_all

theorem mem_fieldsAt_of_held {s : State} {off v : Nat} {f : Field} (h : f ∈ heldFields s off v) : f ∈ Reg.fieldsAt off :=
  let ⟨_, hmem, _⟩ := mem_heldFields.1 h
  hmem

/-! ### What a write leaves of every register -/

theorem word_bump_other (s : State) (f : Field) (n : Nat) {o : Nat} (h : o ≠ f.off) :
    (s.bump f n).word o = s.word o := word_setWord_other _ _ h

/-- A saturating count of all the bits of its field. -/
theorem reg_bump_same (s : State) (f : Field) (n : Nat) (h : f.lo + f.width ≤ 32) :
    (s.bump f n).reg f = min (s.reg f + n) (2 ^ f.width - 1) := by
  unfold State.bump
  rw [reg_setReg_same _ _ _ h]
  exact Nat.mod_eq_of_lt (by have := Nat.two_pow_pos f.width; omega)

theorem reg_setWord_other (s : State) {off : Nat} (w : Word) {f : Field} (h : f.off ≠ off) :
    (s.setWord off w).reg f = s.reg f := by
  simp only [State.reg, word_setWord_other _ _ h]

section
variable {s : State} {off v : Nat}

/-- A write changes its own register, and of the others RST_LOCK alone. -/
theorem word_putWritten_other {o : Nat} (ho : o ≠ off) (hl : o ≠ 0x3018) : (s.putWritten off v).word o = s.word o := by
  rw [putWritten_eq]
  split
  · exact word_setWord_other _ _ ho
  · exact (word_bump_other _ _ _ hl).trans (word_setWord_other _ _ ho)

theorem word_putWritten_same (hl : off ≠ 0x3018) :
    (s.putWritten off v).word off = BitVec.ofNat 32 (storedWord s off v) := by
  rw [putWritten_eq]
  split
  · exact word_setWord_same _ _ _
  · exact (word_bump_other _ _ _ hl).trans (word_setWord_same _ _ _)

/-- The write of another register leaves RST_LOCK.LOCKED. -/
theorem reg_putWritten_locked (hl : off ≠ 0x3018) :
    (s.putWritten off v).reg Reg.rstLockLocked = s.reg Reg.rstLockLocked := by
  rw [putWritten_eq]
  split
  · exact reg_setWord_other _ _ hl.symm
  · exact (reg_setReg_other _ _ _ _ (by decide) (by decide)).trans (reg_setWord_other _ _ hl.symm)

/-- RST_LOCK.IGNORED counts a write of another register that has held fields once, and saturates (R653). -/
theorem reg_putWritten_ignored (hl : off ≠ 0x3018) :
    (s.putWritten off v).reg Reg.rstLockIgnored =
      if heldFields s off v = [] then s.reg Reg.rstLockIgnored else min (s.reg Reg.rstLockIgnored + 1) 0xFFFF := by
  rw [putWritten_eq]
  simp only [List.isEmpty_iff]
  split
  · exact reg_setWord_other _ _ hl.symm
  · rw [reg_bump_same _ _ _ (by decide), reg_setWord_other _ _ hl.symm]
    rfl

/-! ### What a write leaves in a field of its register -/

variable {f : Field}

theorem reg_putWritten (hoff : f.off = off) (hw : f.lo + f.width ≤ 32) (hl : off ≠ 0x3018) :
    (s.putWritten off v).reg f = bitsAt (storedWord s off v) f.lo f.width := by
  unfold State.reg
  rw [hoff, word_putWritten_same hl, BitVec.toNat_ofNat, bitsAt_mod_two_pow _ hw]

/-- A field that takes no write keeps its value in the written word. -/
theorem bitsAt_writtenWord_of_none {old : Nat} (hnorm : ∀ n, normalise off n = n)
    (hsep : ∀ g ∈ Reg.fieldsAt off, g = f ∨ BitsApart g f) (h : accessValue old v f = none) :
    bitsAt (writtenWord off old v) f.lo f.width = bitsAt old f.lo f.width := by
  rw [writtenWord_eq, hnorm]
  exact bitsAt_putFields_other (fun g hg => (hsep g hg).imp_left fun e => e ▸ h) _

/-- A field that takes the write holds the value that its access code gives. -/
theorem bitsAt_writtenWord_of_some {old n : Nat} (hf : f ∈ Reg.fieldsAt off) (hnorm : ∀ n, normalise off n = n)
    (hsep : ∀ g ∈ Reg.fieldsAt off, g = f ∨ BitsApart g f) (h : accessValue old v f = some n) :
    bitsAt (writtenWord off old v) f.lo f.width = n % 2 ^ f.width := by
  rw [writtenWord_eq, hnorm]
  exact bitsAt_putFields_same hf h hsep _

/-- A field that the lock does not guard reads as in the written word. -/
theorem bitsAt_storedWord_of_not_guarded (hsep : ∀ g ∈ Reg.fieldsAt off, g = f ∨ BitsApart g f)
    (h : f.acc = .rwl → s.flag Reg.rstLockLocked = false) :
    bitsAt (storedWord s off v) f.lo f.width = bitsAt (writtenWord off (s.word off).toNat v) f.lo f.width := by
  refine bitsAt_putFields_other (fun g hg => .inr ?_) _
  obtain ⟨hlock, hmem, hacc, -⟩ := mem_heldFields.1 hg
  refine (hsep g hmem).resolve_left ?_
  rintro rfl
  simp [h hacc] at hlock

/-- An RWL field keeps its value under the lock. -/
theorem bitsAt_storedWord_of_guarded (hf : f ∈ Reg.fieldsAt off) (hsep : ∀ g ∈ Reg.fieldsAt off, g = f ∨ BitsApart g f)
    (hacc : f.acc = .rwl) (hlock : s.flag Reg.rstLockLocked = true) :
    bitsAt (storedWord s off v) f.lo f.width = bitsAt (s.word off).toNat f.lo f.width := by
  have hheld : ∀ g ∈ heldFields s off v, g = f ∨ BitsApart g f := fun g hg => hsep g (mem_fieldsAt_of_held hg)
  by_cases hmem : f ∈ heldFields s off v
  · exact (bitsAt_putFields_same hmem rfl hheld _).trans (Nat.mod_eq_of_lt (bitsAt_lt _ _ _))
  · have hsame : bitsAt (s.word off).toNat f.lo f.width =
        bitsAt (writtenWord off (s.word off).toNat v) f.lo f.width := by
      by_contra hne
      exact hmem (mem_heldFields.2 ⟨hlock, hf, hacc, hne⟩)
    have hother : ∀ g ∈ heldFields s off v, heldValue (s.word off).toNat g = none ∨ BitsApart g f := fun g hg =>
      .inr ((hheld g hg).resolve_left fun e => hmem (e ▸ hg))
    exact (bitsAt_putFields_other hother _).trans hsame.symm

/-- A W1C field loses the bits written 1 (R14). -/
theorem testBit_clearOnes {old new w i : Nat} (hnew : new < 2 ^ w) (hi : i < w) :
    ((old &&& (2 ^ w - 1 - new)) % 2 ^ w).testBit i = (old.testBit i && !new.testBit i) := by
  rw [Nat.testBit_mod_two_pow, Nat.testBit_and, Nat.sub_sub, Nat.add_comm 1 new, Nat.testBit_two_pow_sub_succ hnew]
  simp [hi]

/-- A field of the register reads, after a write, what its access code and the lock give. -/
theorem reg_putWritten_of_access (hf : f ∈ Reg.fieldsAt off) (hoff : f.off = off) (hw : f.lo + f.width ≤ 32)
    (hsep : ∀ g ∈ Reg.fieldsAt off, g = f ∨ BitsApart g f) (hnorm : ∀ n, normalise off n = n) (hl : off ≠ 0x3018) :
    (s.putWritten off v).reg f =
      if f.acc = .rwl ∧ s.flag Reg.rstLockLocked = true then s.reg f
      else ((accessValue (s.word off).toNat v f).map (· % 2 ^ f.width)).getD (s.reg f) := by
  have hold : s.reg f = bitsAt (s.word off).toNat f.lo f.width := by rw [State.reg, hoff]
  rw [reg_putWritten hoff hw hl, hold]
  split
  next hg =>
    obtain ⟨hacc, hlock⟩ := hg
    exact bitsAt_storedWord_of_guarded hf hsep hacc hlock
  next hg =>
    rw [bitsAt_storedWord_of_not_guarded hsep fun ha => Bool.eq_false_iff.2 fun hlk => hg ⟨ha, hlk⟩]
    cases hval : accessValue (s.word off).toNat v f with
    | none => exact bitsAt_writtenWord_of_none hnorm hsep hval
    | some n => exact bitsAt_writtenWord_of_some hf hnorm hsep hval

/-- A write holds no field back unless the lock is set and the written word differs in an RWL field. -/
theorem heldFields_eq_nil : heldFields s off v = [] ↔ ¬(s.flag Reg.rstLockLocked = true ∧
    ∃ f ∈ Reg.fieldsAt off, f.acc = .rwl ∧
      bitsAt (s.word off).toNat f.lo f.width ≠ bitsAt (writtenWord off (s.word off).toNat v) f.lo f.width) := by
  simp only [List.eq_nil_iff_forall_not_mem, mem_heldFields, not_and, not_exists]
  exact forall_comm

end

/-- Settles O54, from what a field reads after a write by its access code and the lock, and from the held fields that the
count goes by. -/
theorem registerFields : Obligations.RegisterFields := by
  refine ⟨fun s off v f hf hoff hw hsep hnorm hl => ?_, fun s off v hl => ⟨fun h => ?_, fun h => ?_⟩⟩
  · have hreg := reg_putWritten_of_access (s := s) (v := v) hf hoff hw hsep hnorm hl
    have hnew : bitsAt v f.lo f.width % 2 ^ f.width = bitsAt v f.lo f.width := Nat.mod_eq_of_lt (bitsAt_lt _ _ _)
    have hold : bitsAt (s.word off).toNat f.lo f.width = s.reg f := by rw [State.reg, hoff]
    refine ⟨fun ha => ?_, fun ha hk => ?_, fun ha hk => ?_, fun ha => ?_, fun ha => ?_, fun ha i hi => ?_,
      fun o ho hlo => word_putWritten_other ho hlo, ?_⟩
    · simpa [ha, accessValue, hnew] using hreg
    · simpa [ha, hk, accessValue, hnew] using hreg
    · simpa [ha, hk] using hreg
    · simpa [ha, accessValue] using hreg
    · simpa [ha, accessValue] using hreg
    · simp only [ha, accessValue, hold] at hreg
      rw [hreg]
      exact testBit_clearOnes (bitsAt_lt _ _ _) hi
    · simp only [State.flag, reg_putWritten_locked hl]
  · rw [reg_putWritten_ignored hl, if_neg fun e => heldFields_eq_nil.1 e h]
  · rw [reg_putWritten_ignored hl, if_pos (heldFields_eq_nil.2 h)]

end Sys2Proof.Proofs

/-! PROOFS. The machine after its power-on reset (00_scope.md R15). The register table is compared with the Reset columns from
its own side: every word that it lists holds them, and a field whose Reset column gives another value than 0 is listed. What
no word lists reads 0. -/

namespace Sys2Proof.Proofs
open Sys2Proof Sys2Proof.Machine Sys2Proof.Laws

/-! ### The registers that a field stands for -/

/-- Offset of the last register of a field. -/
def lastOffset (f : Field) : Nat := f.off + (f.dims.map fun d => (d.2 - 1) * d.1).sum

/-- The inner registers of a doubly indexed field lie within one outer stride. -/
def strideFits (f : Field) : Bool :=
  match f.dims with
  | (s, _) :: (s2, c2) :: _ => (c2 - 1) * s2 < s
  | _ => true

/-- A register that a field stands for: the same bits there, within the field's bounds, and covered by it. -/
theorem mem_all {f g : Field} (h : g ∈ f.all) (hs : strideFits f = true) :
    g.lo = f.lo ∧ g.width = f.width ∧ f.covers g.off = true ∧ f.off ≤ g.off ∧ g.off ≤ lastOffset f := by
  obtain ⟨off, lo, width, dims, acc, rst, kept⟩ := f
  match dims with
  | [] =>
    simp only [Field.all, List.mem_singleton] at h
    subst h
    simp [Field.covers, lastOffset]
  | [(s, c)] =>
    simp only [Field.all, List.mem_map, List.mem_range] at h
    obtain ⟨i, hi, rfl⟩ := h
    have hle : i * s ≤ (c - 1) * s := Nat.mul_le_mul_right _ (by omega)
    have hdiv : i * s / s < c := (Nat.div_le_of_le_mul (by rw [Nat.mul_comm])).trans_lt hi
    simp [Field.covers, lastOffset, hle, hdiv]
  | (s, c) :: (s2, c2) :: rest =>
    simp only [Field.all, List.mem_flatMap, List.mem_map, List.mem_range] at h
    obtain ⟨i, hi, j, hj, rfl⟩ := h
    have hle : i * s ≤ (c - 1) * s := Nat.mul_le_mul_right _ (by omega)
    have hle2 : j * s2 ≤ (c2 - 1) * s2 := Nat.mul_le_mul_right _ (by omega)
    have hlt : j * s2 < s := hle2.trans_lt (of_decide_eq_true hs)
    have hdiv : (i * s + j * s2) / s = i := by
      rw [Nat.add_comm, Nat.add_mul_div_right _ _ (by omega), Nat.div_eq_of_lt hlt, Nat.zero_add]
    have hmod : (i * s + j * s2) % s = j * s2 := by
      rw [Nat.add_comm, Nat.add_mul_mod_self_right, Nat.mod_eq_of_lt hlt]
    have hdiv2 : j * s2 / s2 < c2 := (Nat.div_le_of_le_mul (by rw [Nat.mul_comm])).trans_lt hj
    refine ⟨rfl, rfl, ?_, ?_, ?_⟩
    · simp [Field.covers, hdiv, hmod, hdiv2, hi, Nat.add_assoc]
    · simp [Nat.add_assoc]
    · simp only [lastOffset, List.map_cons, List.sum_cons]
      omega

theorem allFields_strideFits : ∀ f ∈ Reg.allFields, strideFits f = true := by decide +kernel

theorem blockFields_congr {o p : Nat} (h : o / 0x1000 = p / 0x1000) : Reg.blockFields o = Reg.blockFields p := by
  unfold Reg.blockFields
  rw [h]

/-- The register tables: a field's registers lie in one block or two, whose fields list it. -/
theorem allFields_in_blocks : ∀ f ∈ Reg.allFields, f ∈ Reg.blockFields f.off ∧ f ∈ Reg.blockFields (lastOffset f) ∧
    lastOffset f / 0x1000 ≤ f.off / 0x1000 + 1 := by
  decide +kernel

/-- The block of a register lists every field that stands for it. -/
theorem mem_blockFields {f : Field} (hf : f ∈ Reg.allFields) {o : Nat} (hlo : f.off ≤ o) (hhi : o ≤ lastOffset f) :
    f ∈ Reg.blockFields o := by
  obtain ⟨hfirst, hlast, hspan⟩ := allFields_in_blocks f hf
  have h1 : f.off / 0x1000 ≤ o / 0x1000 := Nat.div_le_div_right hlo
  have h2 : o / 0x1000 ≤ lastOffset f / 0x1000 := Nat.div_le_div_right hhi
  rcases (by omega : o / 0x1000 = f.off / 0x1000 ∨ o / 0x1000 = lastOffset f / 0x1000) with h | h
  · rwa [blockFields_congr h]
  · rwa [blockFields_congr h]

/-! ### The Reset columns -/

/-- The Reset column allows a value: the one that it gives, or any. -/
def admits (c : ResetCol) (x : Nat) : Bool :=
  match c with
  | .val n => x == n
  | .gen | .record => true

/-- The fields that start-up has changed from their Reset column: MEM_KEYS, BG_PHASE, and STATE and SWAP_UNTESTABLE of
POR_CH (R50, R412, R421). -/
def startedFields : List Field := [Reg.secStatusMemKeys, Reg.tkStatusBgPhase, Reg.porChState, Reg.porChSwapUntestable]

@[simp] theorem admits_val (n x : Nat) : admits (.val n) x = true ↔ x = n := beq_iff_eq

/-- The word of a register holds the Reset columns of its fields. -/
def holdsReset (o : Nat) (w : Word) : Bool :=
  (Reg.blockFields o).all fun f => !f.covers o || startedFields.contains f || admits f.rst (bitsAt w.toNat f.lo f.width)

/-- The Reset column's value of every field of a listed register stands in its word. -/
theorem listed_holdsReset : ∀ e ∈ State.reset.regs, holdsReset e.1 e.2 = true := by decide +kernel

/-- A field that may not read 0 is listed in every register that it stands for. -/
theorem listed_of_not_admits_zero : ∀ f ∈ Reg.allFields, ¬admits f.rst 0 = true →
    ∀ g ∈ f.all, (tfind State.reset.regs g.off).isSome = true := by decide +kernel

theorem mem_of_tfind {α : Type} {m : Tbl α} {q : Nat} {v : α} (h : tfind m q = some v) : (q, v) ∈ m := by
  induction m with
  | nil => simp [tfind] at h
  | cons e r ih =>
    obtain ⟨k, w⟩ := e
    simp only [tfind] at h
    split at h
    · simp_all
    · exact List.mem_cons_of_mem _ (ih h)

theorem reg_of_listed {s : State} {f : Field} {w : Word} (h : tfind s.regs f.off = some w) :
    s.reg f = bitsAt w.toNat f.lo f.width := by
  simp [State.reg, State.word, tget, h]

theorem reg_of_unlisted {s : State} {f : Field} (h : tfind s.regs f.off = none) : s.reg f = 0 := by
  simp [State.reg, State.word, tget, h, bitsAt]

/-- After the power-on reset every field holds what its Reset column allows, those that start-up changes apart (R15). -/
theorem reset_reg_admits {f g : Field} (hf : f ∈ Reg.allFields) (hx : f ∉ startedFields) (hg : g ∈ f.all) :
    admits f.rst (State.reset.reg g) = true := by
  obtain ⟨hlo, hwidth, hcov, hfirst, hlast⟩ := mem_all hg (allFields_strideFits f hf)
  cases hw : tfind State.reset.regs g.off with
  | some w =>
    have hword : holdsReset g.off w = true := listed_holdsReset _ (mem_of_tfind hw)
    have hfield := List.all_eq_true.1 hword f (mem_blockFields hf hfirst hlast)
    rw [reg_of_listed hw, hlo, hwidth]
    simpa [hcov, hx] using hfield
  | none =>
    rw [reg_of_unlisted hw]
    by_contra hzero
    have := listed_of_not_admits_zero f hf hzero g hg
    simp [hw] at this

/-- POR_CH.STATE: the channels 8 to 15 have no clock (R412). -/
theorem reset_porChState : ∀ g ∈ Reg.porChState.all, State.reset.reg g =
    if 8 ≤ Reg.porChState.all.findIdx (· == g) then 4 else 0 := by decide +kernel

/-- POR_CH.SWAP_UNTESTABLE: a TRIM of 0 shows it (R421). -/
theorem reset_porChSwapUntestable : ∀ g ∈ Reg.porChSwapUntestable.all, State.reset.reg g = 1 := by decide +kernel

/-- Settles O60: a field is one that start-up changes, or holds its Reset column; the rest of the machine is evaluated. -/
theorem resetState : Obligations.ResetState := by
  refine ⟨fun f hf hkeys hphase n hn g hg => ?_, rfl, by decide +kernel, rfl, rfl, rfl, rfl, by decide +kernel,
    by decide +kernel, rfl⟩
  by_cases hstate : f = Reg.porChState
  · subst hstate
    obtain rfl : 0 = n := ResetCol.val.inj hn
    simpa [show Reg.porChState ≠ Reg.porChSwapUntestable by decide] using reset_porChState g hg
  by_cases hswap : f = Reg.porChSwapUntestable
  · subst hswap
    simpa [hstate] using reset_porChSwapUntestable g hg
  · have hx : f ∉ startedFields := by simp [startedFields, hkeys, hphase, hstate, hswap]
    have hval : admits f.rst (State.reset.reg g) = true := reset_reg_admits hf hx hg
    rw [hn, admits_val] at hval
    simpa [hstate, hswap] using hval

end Sys2Proof.Proofs

/-! PROOFS. The events of a tick beside its boundary (02_the_tick.md R41 to R45, R50, R54 to R56, R62 to R73): when a boundary
is due, budgets and limits, the background phase, vehicle time and the tick's registers. Each event of the model is first given
by an equation per case. -/

namespace Sys2Proof.Proofs
open Sys2Proof Sys2Proof.Machine Sys2Proof.Laws

/-- A command leaves a state under any name that the state has. -/
theorem runs_congr {i : Instr} {s u v : State} (h : Runs i s u) (e : u = v) : Runs i s v := e ▸ h

/-! ### Runs of updates -/

section
variable {α β : Type}

/-- What every update of a run leaves, the run leaves. -/
theorem each_keeps (π : State → β) {f : State → α → State} (hf : ∀ s a, π (f s a) = π s) (s : State) (l : List α) :
    π (s.each l f) = π s := by
  unfold State.each
  induction l generalizing s with
  | nil => rfl
  | cons a l ih => exact (ih (f s a)).trans (hf s a)

/-- Updates that agree wherever what they leave is the same make the same run. -/
theorem each_congr (π : State → β) {f g : State → α → State} {s : State} (hg : ∀ u a, π (g u a) = π u)
    (h : ∀ u a, π u = π s → f u a = g u a) (l : List α) : s.each l f = s.each l g := by
  suffices ∀ u : State, π u = π s → u.each l f = u.each l g from this s rfl
  unfold State.each
  induction l with
  | nil => exact fun _ _ => rfl
  | cons a l ih =>
    intro u hu
    rw [List.foldl_cons, List.foldl_cons, h u a hu]
    exact ih _ ((hg u a).trans hu)

end

/-! ### Boundaries by the timer, as substitutes and by vehicle time (R41, R44, R54 to R56) -/

theorem timerTick_eq (s : State) : s.timerTick =
    if s.ticking = true ∧ s.reg Reg.tkCtrlSource = 0 ∧ s.tickBase + s.period ≤ s.now then s.boundary else s := by
  simp [State.timerTick, and_assoc]

theorem substituteTick_eq (s : State) : s.substituteTick =
    if s.ticking = true ∧ (s.reg Reg.tkCtrlSource = 1 ∨ s.reg Reg.tkCtrlSource = 2) ∧ s.tickBase + s.periodHigh ≤ s.now
    then s.boundary true else s := by
  simp [State.substituteTick, and_assoc]

/-- A correction is the phase error, clamped to 1 % of the period. -/
theorem slewStep_eq (s : State) :
    s.slewStep = max (-((s.period : Int) / 100)) (min ((s.period : Int) / 100) s.tick.vtError) := by
  unfold State.slewStep
  dsimp only
  split
  · omega
  · split <;> omega

section
variable {s : State} (ht : s.ticking = true) (h3 : s.reg Reg.tkCtrlSource = 3)
include ht h3

theorem vehicleTick_of_holdover (hs : s.tick.vtSync = false) (hdue : s.tickBase + s.period ≤ s.now) :
    s.vehicleTick = s.boundary := by
  simp [State.vehicleTick, ht, h3, hs, hdue]

theorem vehicleTick_of_error (hs : s.tick.vtSync = true) (he : s.tick.vtError ≠ 0)
    (hdue : (s.tickBase : Int) + s.period + s.slewStep ≤ s.now) :
    s.vehicleTick = ({ s with tick := { s.tick with vtError := s.tick.vtError - s.slewStep } }).boundary := by
  simp [State.vehicleTick, ht, h3, hs, he, hdue]

theorem vehicleTick_of_instant (hs : s.tick.vtSync = true) (he : s.tick.vtError = 0)
    (hfresh : s.tick.lastBoundary + s.period / 2 ≤ s.now)
    (hnear : (s.toInstant ((s.now : Int) + s.tick.vtBase)).natAbs ≤ 2000) : s.vehicleTick = s.boundary := by
  have hd : -2000 ≤ s.toInstant ((s.now : Int) + s.tick.vtBase) ∧ s.toInstant ((s.now : Int) + s.tick.vtBase) ≤ 2000 := by
    omega
  simp [State.vehicleTick, ht, h3, hs, he, hfresh, hd]

end

/-- Settles O5, from the instant at which each kind of boundary is due. -/
theorem tickBoundariesOccur : Obligations.TickBoundariesOccur := by
  refine ⟨fun t s => ⟨fun h => ?_, fun h => ?_⟩, fun t s => ⟨fun h => ?_, fun h => ?_⟩,
    fun t s ht h3 => ⟨fun hs hdue => ?_, fun hs he hdue => ?_, fun hs he hfresh hnear => ?_⟩⟩
  · exact runs_congr (runs_timerBoundary t s) ((timerTick_eq _).trans (if_pos h))
  · exact runs_congr (runs_timerBoundary t s) ((timerTick_eq _).trans (if_neg h))
  · exact runs_congr (runs_substituteBoundary t s) ((substituteTick_eq _).trans (if_pos h))
  · exact runs_congr (runs_substituteBoundary t s) ((substituteTick_eq _).trans (if_neg h))
  · exact runs_congr (runs_vehicleTimeBoundary t s) (vehicleTick_of_holdover ht h3 hs hdue)
  · have hstep := slewStep_eq (s.at_ t)
    rw [← hstep] at hdue ⊢
    exact runs_congr (runs_vehicleTimeBoundary t s) (vehicleTick_of_error ht h3 hs he hdue)
  · exact runs_congr (runs_vehicleTimeBoundary t s) (vehicleTick_of_instant ht h3 hs he hfresh hnear)

/-! ### Edges of a source (R43, R50) -/

theorem sourceEdge_eq (s : State) (e : EdgeSrc) : s.sourceEdge e =
    if s.ticking = true ∧ s.edgeCounts e = true then
      if s.tick.armedAt.isSome = true ∨ s.tick.lastBoundary + s.periodLow ≤ s.now then s.boundary
      else ({ s with tick := { s.tick with early := true } }).note fcTickSource
    else s := by
  by_cases h : s.ticking = true ∧ s.edgeCounts e = true
  · simp [State.sourceEdge, h]
  · rw [if_neg h]
    exact if_pos (by simpa [imp_iff_not_or] using h)

/-- Settles O6, by the source of the edge and the early window. -/
theorem sourceEdgeWindow : Obligations.SourceEdgeWindow := by
  refine fun t e s => ⟨fun hmine hin => ?_, fun hmine hout => ?_, fun hmine => ?_⟩
  · exact runs_congr (runs_tickSourceEdge t e s) ((sourceEdge_eq _ e).trans ((if_pos hmine).trans (if_pos hin)))
  · exact runs_congr (runs_tickSourceEdge t e s) ((sourceEdge_eq _ e).trans ((if_pos hmine).trans (if_neg hout)))
  · exact runs_congr (runs_tickSourceEdge t e s) ((sourceEdge_eq _ e).trans (if_neg hmine))

/-! ### Budgets (R68 to R70) -/

@[simp] theorem mapWork_tick (s : State) (id : Nat) (f : Work → Work) : (s.mapWork id f).tick = s.tick := rfl

@[simp] theorem releaseBatch_tick (s : State) (id : Nat) : (s.releaseBatch id).tick = s.tick := rfl

@[simp] theorem releaseBatch_regs (s : State) (id : Nat) : (s.releaseBatch id).regs = s.regs := rfl

@[simp] theorem releaseWhere_tick (s : State) (p : Batch → Bool) : (s.releaseWhere p).tick = s.tick :=
  each_keeps State.tick (fun u (b : Batch) => releaseBatch_tick u b.id) s _

@[simp] theorem releaseWhere_regs (s : State) (p : Batch → Bool) : (s.releaseWhere p).regs = s.regs :=
  each_keeps State.regs (fun u (b : Batch) => releaseBatch_regs u b.id) s _

@[simp] theorem endAll_tick (s : State) (l : List Work) (st : Byte) : (s.endAll l st).tick = s.tick :=
  each_keeps State.tick (fun u (x : Work) => mapWork_tick u x.id fun w => w.end_ st) s l

/-- A field reads the same where the registers are the same. -/
theorem reg_congr {s t : State} (h : s.regs = t.regs) (f : Field) : s.reg f = t.reg f := by
  simp only [State.reg, State.word, h]

/-- The policy of a wing stands in the tick table, at the cursor. -/
theorem policyOf_congr {s t : State} (hr : s.regs = t.regs) (hk : s.tick.table = t.tick.table) (w : Nat) :
    s.policyOf w = t.policyOf w := by
  simp only [State.policyOf, State.tickEntry, hk, reg_congr hr]

theorem fromBefore_congr {s t : State} (h : s.tick.number = t.tick.number) : s.fromBefore = t.fromBefore := by
  funext x
  simp only [State.fromBefore, h]

/-- The budget of the wing has expired in this tick. -/
def markExpired (s : State) (w : Nat) : State :=
  { s with tick := { s.tick with expired := s.tick.expired ||| 1#4 <<< w } }

/-- It has expired with Tick work left: the wing has overrun, and its open Tick batches are released. -/
def markOverrun (s : State) (w : Nat) : State :=
  let m := markExpired s w
  ({ m with tick := { m.tick with overrun := m.tick.overrun ||| 1#4 <<< w } }).releaseWhere fun b =>
    b.cls == Cls.tick && b.wing == w

theorem markOverrun_regs (s : State) (w : Nat) : (markOverrun s w).regs = s.regs := releaseWhere_regs _ _

theorem markOverrun_number (s : State) (w : Nat) : (markOverrun s w).tick.number = s.tick.number := by
  rw [markOverrun, releaseWhere_tick]
  rfl

theorem markOverrun_policyOf (s : State) (w : Nat) : (markOverrun s w).policyOf w = s.policyOf w :=
  policyOf_congr (markOverrun_regs s w) (by rw [markOverrun, releaseWhere_tick]; rfl) w

theorem budgetOver_eq_expire {s : State} {w : Nat} (hup : s.mainUp = true) (hb : s.budgetOf w ≠ 0)
    (hdue : s.tick.lastBoundary + 1000 * (16 * s.budgetOf w) ≤ s.now) : s.budgetOver w = s.expire w := by
  have hlate : ¬s.now < s.tick.lastBoundary + us (16 * s.budgetOf w) := by
    rw [us, Nat.mul_comm]
    omega
  simp [State.budgetOver, hup, hb, hlate]

section
variable {s : State} {w : Nat} (hx : s.tick.expired.getLsbD w = false)
include hx

theorem expire_of_done (hl : s.dueOn w = []) : s.expire w = markExpired s w := by
  have hl' : (markExpired s w).dueOn w = [] := hl
  unfold markExpired at *
  simp [State.expire, hx, hl']

variable (hl : s.dueOn w ≠ [])
include hl

/-- Work carried from an earlier tick is left at the expiry: all work that is left ends. -/
theorem expire_of_carried (hold : (s.dueOn w).filter s.fromBefore ≠ []) : s.expire w =
    (((markOverrun s w).endAll ((s.dueOn w).filter s.fromBefore) stDroppedAfterCarry).endAll
      ((s.dueOn w).filter fun x => !s.fromBefore x) stTickSkipped).raise (mkReport fcTickOverrun 1) := by
  have hmarked : (markOverrun s w).fromBefore = s.fromBefore := fromBefore_congr (markOverrun_number s w)
  have hended : ((markOverrun s w).endAll ((s.dueOn w).filter s.fromBefore) stDroppedAfterCarry).fromBefore =
      s.fromBefore := fromBefore_congr (by rw [endAll_tick, markOverrun_number])
  have hleft : ¬(s.dueOn w).isEmpty = true := by simpa using hl
  have hcarried : (!((s.dueOn w).filter (markOverrun s w).fromBefore).isEmpty) = true := by simpa [hmarked] using hold
  refine (if_neg (by simp [hx])).trans ((if_neg hleft).trans ((if_pos hcarried).trans ?_))
  change (State.endAll ((markOverrun s w).endAll ((s.dueOn w).filter (markOverrun s w).fromBefore) stDroppedAfterCarry)
    ((s.dueOn w).filter fun x => !((markOverrun s w).endAll ((s.dueOn w).filter (markOverrun s w).fromBefore)
      stDroppedAfterCarry).fromBefore x) stTickSkipped).raise _ = _
  rw [hmarked, hended]

/-- No work carried from an earlier tick is left: the policy decides. -/
theorem expire_of_new (hold : (s.dueOn w).filter s.fromBefore = []) : s.expire w =
    match s.policyOf w with
    | 1 => (markOverrun s w).note fcTickOverrun
    | 2 => ((markOverrun s w).endAll (s.dueOn w) stOverrunDropped).raise (mkReport fcTickOverrun 1)
    | _ => ((markOverrun s w).endAll (s.dueOn w) stOverrunDropped).note fcTickOverrun := by
  have hmarked : (markOverrun s w).fromBefore = s.fromBefore := fromBefore_congr (markOverrun_number s w)
  have hleft : ¬(s.dueOn w).isEmpty = true := by simpa using hl
  have hcarried : ¬(!((s.dueOn w).filter (markOverrun s w).fromBefore).isEmpty) = true := by simpa [hmarked] using hold
  rw [← markOverrun_policyOf]
  exact (if_neg (by simp [hx])).trans ((if_neg hleft).trans (if_neg hcarried))

end

/-- Settles O8: the budget is due, so the expiry is that of a wing without work left, with carried work left, or with
work of this tick left under each of the three policies. -/
theorem budgetPolicies : Obligations.BudgetPolicies := by
  intro t w s a hup hb hdue hx l old new m o
  have hrun : Runs (.budgetExpiry t w) s (a.expire w) :=
    runs_congr (runs_budgetExpiry t w s) (budgetOver_eq_expire hup hb hdue)
  refine ⟨fun hl => ?_, fun hl hold => ?_, fun hl hold hp => ?_, fun hl hold hp => ?_, fun hl hold hp => ?_⟩
  · exact runs_congr hrun (expire_of_done hx hl)
  · exact runs_congr hrun (expire_of_carried hx hl hold)
  · exact runs_congr hrun ((expire_of_new hx hl hold).trans (by rw [hp]; rfl))
  · exact runs_congr hrun ((expire_of_new hx hl hold).trans (by rw [hp]; rfl))
  · exact runs_congr hrun ((expire_of_new hx hl hold).trans (by rw [hp]; rfl))

/-! ### Urgent work at its limit (R71) -/

theorem urgentOver_of_disabled {s : State} (h : s.reg Reg.tkUrgLimitLimitUs = 0) : s.urgentOver = s := if_pos h

/-- The level of the report is that of URG_POLICY before the expiry, which ends no list by changing a register. -/
theorem urgentOver_of_limit {s : State} (h : s.reg Reg.tkUrgLimitLimitUs ≠ 0) : s.urgentOver =
    s.each (s.wk.works.filter fun x => x.cls == .urgent && x.ending.isNone &&
        decide (x.admTime + us (s.reg Reg.tkUrgLimitLimitUs) ≤ s.now)) fun s' x =>
      let u := s'.mapWork x.id fun w => w.end_ stUrgentLimit
      ({ u with tick := { u.tick with urgLimit := true } }).raise
        (mkReport fcUrgentLimit (if s.reg Reg.tkUrgLimitUrgPolicy = 0 then 0 else 1)) := by
  refine (if_neg h).trans (each_congr State.regs (by intros; rfl) (fun u x hu => ?_) _)
  have hpolicy : u.reg Reg.tkUrgLimitUrgPolicy = s.reg Reg.tkUrgLimitUrgPolicy := reg_congr hu _
  rw [← hpolicy]
  show ite (u.reg Reg.tkUrgLimitUrgPolicy = 0) _ _ = _
  split <;> rfl

/-- Settles O9: the policy that each stopped list reads is the one in force when the limit expired. -/
theorem urgentLimitStops : Obligations.UrgentLimitStops := fun t s =>
  ⟨fun h => runs_congr (runs_urgentLimitExpiry t s) (urgentOver_of_disabled h),
   fun h => runs_congr (runs_urgentLimitExpiry t s) (urgentOver_of_limit h)⟩

/-! ### The background phase and vehicle time (R55, R56, R63) -/

theorem tickDone_iff (s : State) : s.tickDone = true ↔
    ∀ x ∈ s.wk.works, s.due x = true → x.ending.isSome = true := by
  simp [State.tickDone, imp_iff_not_or]

theorem backgroundStart_eq {s : State} (hup : s.computeUp = true) (hbg : s.tick.bgStart = none) :
    s.backgroundStart =
      if s.tickDone = true then ({ s with tick := { s.tick with bgStart := some s.now } }).replaceLanes.testBegin
      else s := by
  by_cases h : s.tickDone = true <;> simp [State.backgroundStart, hup, hbg, h]

/-- Source 3 is selected and enabled. -/
def OnVehicleTime (s : State) : Prop := s.reg Reg.tkCtrlSource = 3 ∧ s.flag Reg.tkCtrlEnable = true

theorem onVehicleTime_iff (s : State) :
    OnVehicleTime s ↔ (decide (s.reg Reg.tkCtrlSource = 3) && s.flag Reg.tkCtrlEnable) = true := by
  simp [OnVehicleTime]

theorem synced_of_other {s : State} (h : ¬OnVehicleTime s) (vt : Nat) :
    s.synced vt = { s with tick := { s.tick with vtSync := true, vtBase := (vt : Int) - s.now } } :=
  if_neg fun hon => h ((onVehicleTime_iff s).2 hon)

theorem synced_of_on {s : State} (h : OnVehicleTime s) (vt : Nat) :
    s.synced vt = { s with tick := { s.tick with
      vtSync := true, vtBase := (vt : Int) - s.now, sourceState := 0,
      vtError := s.toInstant ((s.tickBase : Int) + s.period + ((vt : Int) - s.now)) } } :=
  if_pos ((onVehicleTime_iff s).1 h)

theorem unsynced_of_other {s : State} (hs : s.tick.vtSync = true) (h : ¬OnVehicleTime s) :
    s.unsynced = { s with tick := { s.tick with vtSync := false, vtError := 0 } } :=
  (if_neg (by simp [hs])).trans (if_neg fun hon =>
    h ((onVehicleTime_iff s).2 (Bool.and_eq_true_iff.1 hon).1))

theorem unsynced_of_on {s : State} (hs : s.tick.vtSync = true) (h : OnVehicleTime s) (hup : s.mainUp = true) :
    s.unsynced = ({ s with tick := { s.tick with vtSync := false, vtError := 0, sourceState := 2 } }).note fcTickSource :=
  (if_neg (by simp [hs])).trans (if_pos (Bool.and_eq_true_iff.2 ⟨(onVehicleTime_iff s).1 h, hup⟩))

/-- Settles O10, by whether Tick work that is due is left, and whether source 3 is selected and enabled. -/
theorem backgroundAndVehicleTime : Obligations.BackgroundAndVehicleTime := by
  refine ⟨fun t s hup hbg => ⟨fun hdone => ?_, fun hdone => ?_⟩,
    fun t vt s => ⟨fun hon => ?_, fun hon => ?_, fun hs hon => ?_, fun hs hon hup => ?_⟩⟩
  · exact runs_congr (runs_backgroundPhaseStart t s)
      ((backgroundStart_eq hup hbg).trans (if_pos ((tickDone_iff _).2 hdone)))
  · exact runs_congr (runs_backgroundPhaseStart t s)
      ((backgroundStart_eq hup hbg).trans (if_neg fun h => hdone ((tickDone_iff _).1 h)))
  · exact runs_congr (runs_syncReported t vt s) (synced_of_other hon _)
  · exact runs_congr (runs_syncReported t vt s) (synced_of_on hon _)
  · exact runs_congr (runs_syncLost t s) (unsynced_of_other hs hon)
  · exact runs_congr (runs_syncLost t s) (unsynced_of_on hs hon hup)

/-! ### TK_NUMBER and TK_CTRL (R50, R73) -/

theorem regAbsent_tick (s : State) {off : Nat} (h : off / 0x1000 = 7) : s.regAbsent off = false := by
  have htile : tileOfReg off = none := by
    unfold tileOfReg
    simp only [Bool.and_eq_true, decide_eq_true_eq]
    repeat rw [if_neg (by omega)]
  simp [State.regAbsent, htile, h]

/-- TK_NUMBER_LO reads the tick number's low half. -/
theorem regValue_tkNumberLo (s : State) :
    BitVec.ofNat 32 (s.regValue 0x7018) = BitVec.ofNat 32 s.tick.number.toNat := by
  have hlive : s.liveAon 0x7018 ++ s.liveMain 0x7018 = [(Reg.tkNumberLoNumberLo, s.tick.number.toNat)] := by
    simp [State.liveAon, State.liveMain]
  have hword : (s.word 0x7018).toNat < 2 ^ 32 := (s.word 0x7018).isLt
  rw [State.regValue, regAbsent_tick s (by decide), hlive]
  apply BitVec.eq_of_toNat_eq
  simp only [List.foldl, putBits_eq, Reg.tkNumberLoNumberLo, BitVec.toNat_ofNat, Bool.false_eq_true, if_false]
  omega

theorem hostRead_tkNumberLo {s : State} (h : s.regOpen = true) : s.hostRead 0x7018 =
    { s.setReg Reg.tkNumberHiNumberHi (s.tick.number.toNat / 2 ^ 32) with
        readData := BitVec.ofNat 32 s.tick.number.toNat } := by
  rw [← regValue_tkNumberLo, ← Nat.shiftRight_eq_div_pow]
  exact if_pos h

/-- Without the lock a write stores the written word. -/
theorem putWritten_unlocked {s : State} (h : s.flag Reg.rstLockLocked = false) (off v : Nat) :
    s.putWritten off v = s.setWord off (BitVec.ofNat 32 (writtenWord off (s.word off).toNat v)) := by
  simp [State.putWritten, h]

/-- A write stores the fields of TK_CTRL: ENABLE, SOURCE, GAL_STREAM and PIN_EDGE among them. -/
theorem testBit_writtenWord_tkCtrl (old v : Nat) {i : Nat} (h : i < 9) :
    (writtenWord 0x7000 old v).testBit i = v.testBit i := by
  have hfields : Reg.fieldsAt 0x7000 = [Reg.tkCtrlEnable, Reg.tkCtrlSource, Reg.tkCtrlGalStream, Reg.tkCtrlPinEdge,
    Reg.tkCtrlTolerance, Reg.tkCtrlSubLimit, Reg.tkCtrlBgStarve] := by decide +kernel
  have hnorm : ∀ n, normalise 0x7000 n = n := fun _ => rfl
  rw [writtenWord, hnorm, hfields]
  simp only [List.foldl, Reg.tkCtrlEnable, Reg.tkCtrlSource, Reg.tkCtrlGalStream, Reg.tkCtrlPinEdge, Reg.tkCtrlTolerance,
    Reg.tkCtrlSubLimit, Reg.tkCtrlBgStarve, testBit_putBits, testBit_bitsAt]
  interval_cases i <;> simp

theorem hostWrite_tkCtrl {s : State} (hopen : s.regOpen = true) (hlock : s.flag Reg.rstLockLocked = false) (v : Word) :
    s.hostWrite 0x7000 v =
      (s.setWord 0x7000 (BitVec.ofNat 32 (writtenWord 0x7000 (s.word 0x7000).toNat v.toNat))).tickWritten
        (s.word 0x7000).toNat := by
  have hreg : s.noReg 0x7000 = false := by
    rw [State.noReg, regAbsent_tick s (by decide)]
    decide +kernel
  rw [State.hostWrite, if_pos hopen, State.regWrite, hreg, putWritten_unlocked hlock]
  rfl

theorem bitsAt_writtenWord_tkCtrl (old v : Nat) :
    bitsAt (writtenWord 0x7000 old v % 2 ^ 32) 1 8 = bitsAt v 1 8 := by
  rw [bitsAt_mod_two_pow _ (by decide)]
  apply Nat.eq_of_testBit_eq
  intro i
  rw [testBit_bitsAt, testBit_bitsAt]
  by_cases hi : i < 8
  · rw [testBit_writtenWord_tkCtrl old v (by omega)]
  · simp [hi]

/-- TK_CTRL has been written with `v`: ENABLE and the fields that select a source decide what follows (R50). -/
theorem tickWritten_eq (s : State) (old v : Nat) :
    let w := s.setWord 0x7000 (BitVec.ofNat 32 (writtenWord 0x7000 old v))
    w.tickWritten old =
      if bitAt v 0 = false then { w with tick := { w.tick with armedAt := none, sourceState := 3 } }
      else if bitAt old 0 = false ∨ bitsAt v 1 8 ≠ bitsAt old 1 8 then w.arm
      else w := by
  intro w
  have hword : (w.word Reg.tkCtrlEnable.off).toNat = writtenWord 0x7000 old v % 2 ^ 32 := by
    rw [show w.word Reg.tkCtrlEnable.off = _ from word_setWord_same s 0x7000 _, BitVec.toNat_ofNat]
  have henable : bitAt (writtenWord 0x7000 old v % 2 ^ 32) 0 = bitAt v 0 := by
    rw [bitAt, Nat.testBit_mod_two_pow, testBit_writtenWord_tkCtrl old v (by decide)]
    rfl
  simp only [State.tickWritten, hword, henable, bitsAt_writtenWord_tkCtrl, Bool.not_eq_true', Bool.or_eq_true, bne_iff_ne]
  simp only [ne_comm (a := bitsAt old 1 8)]

/-! ### Arming a source (R50, R56) -/

theorem arm_armedAt (s : State) : s.arm.tick.armedAt = some s.now := by
  unfold State.arm
  dsimp only
  split
  · rw [note_tick]
    rfl
  · rfl

theorem arm_of_timer {s : State} (h : s.reg Reg.tkCtrlSource = 0) : s.arm.tick.sourceState = 0 ∧ s.arm.fb = s.fb := by
  simp [State.arm, State.fresh, h]

theorem arm_of_synced {s : State} (h : s.reg Reg.tkCtrlSource = 3) (hs : s.tick.vtSync = true) :
    s.arm.tick.sourceState = 0 ∧ s.arm.fb = s.fb := by
  simp [State.arm, State.fresh, h, hs]

theorem arm_of_unsynced {s : State} (h : s.reg Reg.tkCtrlSource = 3) (hs : s.tick.vtSync = false) :
    s.arm.tick.sourceState = 2 ∧ s.arm.fb.collector = s.fb.collector ++ [mkReport fcTickSource 0] := by
  simp [State.arm, State.fresh, h, hs, State.note, State.raise, State.markL2]

/-- Settles O11: the read, the write by what ENABLE and the source fields were and become, and the arming by its source. -/
theorem tickRegisters : Obligations.TickRegisters := by
  refine ⟨fun t s => ⟨fun h => ?_, fun h => ?_⟩, fun t v s hopen hlock => ?_,
    fun s => ⟨arm_armedAt s, arm_of_timer, arm_of_synced, arm_of_unsynced⟩⟩
  · exact runs_congr (runs_tkNumberLoRead t s) (hostRead_tkNumberLo h)
  · exact runs_congr (runs_tkNumberLoRead t s) (if_neg (by rw [h]; decide))
  · have hrun := runs_congr (runs_tickCtrlWrite t v s)
      ((hostWrite_tkCtrl hopen hlock v).trans (tickWritten_eq (s.at_ t) _ v.toNat))
    refine ⟨fun hoff => ?_, fun hon harm => ?_, fun hon hwas hsame => ?_⟩
    · exact runs_congr hrun (if_pos hoff)
    · exact runs_congr hrun ((if_neg (by rw [hon]; decide)).trans (if_pos harm))
    · exact runs_congr hrun ((if_neg (by rw [hon]; decide)).trans (if_neg (by simp [hwas, hsame])))

end Sys2Proof.Proofs

/-! PROOFS. The boundary (02_the_tick.md R44 to R52, R75; 19_fusebox.md R606). A boundary sets the marks of the new tick first;
what follows, the read of a tick table and the records of what waited among it, leaves them: they are part of a frame of the
state that each operation and each read keeps. -/

namespace Sys2Proof.Proofs
open Sys2Proof Sys2Proof.Machine Sys2Proof.Laws

/-! ### The frame of a boundary -/

/-- The marks of the tick under way: its fields but the tick table, its switches, the run of substitutes and the L2 mark. -/
def tickMarks (k : TickSt) : TickSt :=
  { k with l2 := false, substRun := 0, substFault := false, table := [], switches := [] }

/-- What the operations of a boundary leave as it is: the tick's marks, what waits for the boundary, the rotating test. -/
structure TickFrame where
  marks : TickSt
  wingJobs : List (Ticket × BitVec 256)
  perfJobs : List (Ticket × BitVec 256)
  test : Option RotTest

/-- The frame of a state. -/
def tickFrame (s : State) : TickFrame := ⟨tickMarks s.tick, s.wk.wingJobs, s.wk.perfJobs, s.fb.test⟩

section
variable (s : State)

@[simp] theorem tickFrame_setReg (f : Field) (v : Nat) : tickFrame (s.setReg f v) = tickFrame s := rfl
@[simp] theorem tickFrame_bump (f : Field) (n : Nat) : tickFrame (s.bump f n) = tickFrame s := rfl
@[simp] theorem tickFrame_raise (r : Report) : tickFrame (s.raise r) = tickFrame s := rfl
@[simp] theorem tickFrame_setCq (n : Nat) (x : CqSt) : tickFrame (s.setCq n x) = tickFrame s := rfl
@[simp] theorem tickFrame_release (n : Nat) : tickFrame (s.release n) = tickFrame s := rfl
@[simp] theorem tickFrame_mapWork (id : Nat) (f : Work → Work) : tickFrame (s.mapWork id f) = tickFrame s := rfl
@[simp] theorem tickFrame_mapWorks (f : Work → Work) : tickFrame (s.mapWorks f) = tickFrame s := rfl
@[simp] theorem tickFrame_releaseBatch (id : Nat) : tickFrame (s.releaseBatch id) = tickFrame s := rfl
@[simp] theorem tickFrame_countHolds : tickFrame s.countHolds = tickFrame s := rfl
@[simp] theorem tickFrame_tilesBack : tickFrame s.tilesBack = tickFrame s := rfl
@[simp] theorem tickFrame_cacheLeaf (a : Nat) (x : XlatEntry) : tickFrame (s.cacheLeaf a x) = tickFrame s := rfl
@[simp] theorem tickFrame_sendReq (a j pos page unit : Nat) (w : Bool) (data : List Byte) (k dva : Nat) :
    tickFrame (s.sendReq a j pos page unit w data k dva) = tickFrame s := rfl
@[simp] theorem tickFrame_owe (n : Nat) (sq : Option Nat) (b : Nat → Nat) (u : Bool) :
    tickFrame (s.owe n sq b u) = tickFrame s := rfl
@[simp] theorem tickFrame_putSector (ch bank row sec : Nat) (bs : List Byte) :
    tickFrame (s.putSector ch bank row sec bs) = tickFrame s := rfl

@[simp] theorem tickFrame_countUnits (who : Who) (dva u : Nat) (l : List (Nat × Nat)) :
    tickFrame (s.countUnits who dva u l) = tickFrame s := by
  unfold State.countUnits
  split <;> rfl

@[simp] theorem tickFrame_logRead (who : Who) (k n : Nat) : tickFrame (s.logRead who k n) = tickFrame s := by
  unfold State.logRead
  split <;> rfl

@[simp] theorem tickFrame_countUncorr (n : Nat) : tickFrame (s.countUncorr n) = tickFrame s := by
  unfold State.countUncorr
  split
  · exact tickFrame_bump s _ _
  · split <;> exact tickFrame_bump s _ _

/-- A run of updates that keep the frame keeps it. -/
@[simp] theorem tickFrame_each {α : Type} {f : State → α → State} (hf : ∀ s a, tickFrame (f s a) = tickFrame s)
    (l : List α) : tickFrame (s.each l f) = tickFrame s := each_keeps tickFrame hf s l

@[simp] theorem tickFrame_reportBad (n : Nat) (l : List Nat) : tickFrame (s.reportBad n l) = tickFrame s :=
  tickFrame_each s (f := fun s u => (s.countUncorr n).raise (s.memReport n u)) (by simp) l

@[simp] theorem tickFrame_reportKeys (l : List Nat) : tickFrame (s.reportKeys l) = tickFrame s :=
  tickFrame_each s (f := fun s k => s.reportBad (keySpace k) [keyOff k]) (by simp) l

@[simp] theorem tickFrame_winReport (off n : Nat) :
    tickFrame (s.winReport off n) = tickFrame s := tickFrame_reportKeys s _

@[simp] theorem tickFrame_clearBad (n : Nat) (l : List Nat) : tickFrame (s.clearBad n l) = tickFrame s :=
  tickFrame_each s (by intros; rfl) l

@[simp] theorem tickFrame_clearKeys (l : List Nat) : tickFrame (s.clearKeys l) = tickFrame s :=
  tickFrame_each s (f := fun s k => s.clearBad (keySpace k) [keyOff k]) (by simp) _

/-! ### Writing a record -/

@[simp] theorem tickFrame_zeroRow (ch bank row : Nat) :
    tickFrame (s.zeroRow ch bank row) = tickFrame s := tickFrame_clearKeys s _

@[simp] theorem tickFrame_winPut (off : Nat) (bs : List Byte) : tickFrame (s.winPut off bs) = tickFrame s := by
  unfold State.winPut
  dsimp only
  split <;> split <;> simp

@[simp] theorem tickFrame_winWriteN (off : Nat) (bs : List Byte) (fuel : Nat) :
    tickFrame (s.winWriteN off bs fuel) = tickFrame s := by
  induction fuel generalizing s off bs with
  | zero => rfl
  | succ fuel ih =>
    unfold State.winWriteN
    split
    · rfl
    · exact (ih _ _ _).trans (tickFrame_winPut s off _)

@[simp] theorem tickFrame_winWrite (off : Nat) (bs : List Byte) : tickFrame (s.winWrite off bs) = tickFrame s := by
  simp [State.winWrite]

@[simp] theorem tickFrame_recordArrived (n : Nat) (u : Bool) : tickFrame (s.recordArrived n u) = tickFrame s := by
  unfold State.recordArrived
  split <;> rfl

@[simp] theorem tickFrame_writeRecord (n : Nat) (b : Nat → Nat) (u : Bool) :
    tickFrame (s.writeRecord n b u) = tickFrame s := by
  simp [State.writeRecord]

@[simp] theorem tickFrame_putRecord (n : Nat) (b : Nat → Nat) (u : Bool) :
    tickFrame (s.putRecord n b u) = tickFrame s := by
  unfold State.putRecord
  dsimp only
  split <;> simp

@[simp] theorem tickFrame_complete (t : Ticket) (st : Byte) (d : BitVec 32) (n : Nat) (k : Option (BitVec 64)) :
    tickFrame (s.complete t st d n k) = tickFrame s := by
  unfold State.complete
  dsimp only
  split <;> simp

/-! ### Failed pages -/

@[simp] theorem tickFrame_dropHeld (page : Nat) : tickFrame (s.dropHeld page) = tickFrame s := by
  unfold State.dropHeld
  dsimp only
  refine (tickFrame_each _ (by intros; rfl) _).trans ?_
  exact tickFrame_each _ (by intros; rfl) _

@[simp] theorem tickFrame_failEntry (page : Nat) : tickFrame (s.failEntry page) = tickFrame s := by
  unfold State.failEntry
  dsimp only
  rw [tickFrame_raise, tickFrame_bump, tickFrame_dropHeld]
  rfl

end

/-! ### What an access keeps -/

section
variable {P : State → Prop} {α β : Type}

/-- An access keeps what a predicate says of the state, whether it succeeds or fails; `Holds` is the case of the queue,
memory and registers. -/
def Keeps (P : State → Prop) (x : Acc α) : Prop := ∀ s, P s → P (StateT.run (ExceptT.run x) s).2

theorem keeps_pure (a : α) : Keeps P (pure a : Acc α) := fun _ h => h

theorem keeps_throw (e : AFail) : Keeps P (throw e : Acc α) := fun _ h => h

theorem keeps_set {t : State} (h : P t) : Keeps P (set t : Acc PUnit) := fun _ _ => h

theorem keeps_modify {f : State → State} (hf : ∀ s, P s → P (f s)) : Keeps P (modify f : Acc PUnit) := hf

theorem keeps_bind {x : Acc α} {f : α → Acc β} (hx : Keeps P x) (hf : ∀ a, Keeps P (f a)) : Keeps P (x >>= f) := by
  intro s h
  have ht := hx s h
  rw [ExceptT.run_bind, StateT.run_bind]
  generalize StateT.run (ExceptT.run x) s = p at ht ⊢
  obtain ⟨r, t⟩ := p
  cases r with
  | ok a => exact hf a t ht
  | error e => exact ht

/-- An access that begins by reading the state may use what the predicate says of it. -/
theorem keeps_get {f : State → Acc β} (hf : ∀ s, P s → Keeps P (f s)) : Keeps P (get >>= f) := fun s h => hf s h s h

theorem keeps_mapM {f : α → Acc β} (hf : ∀ a, Keeps P (f a)) (l : List α) : Keeps P (l.mapM f) := by
  suffices ∀ acc, Keeps P (List.mapM.loop f l acc) from this []
  induction l with
  | nil => exact fun acc => keeps_pure _
  | cons a l ih => exact fun acc => keeps_bind (hf a) fun b => ih (b :: acc)

theorem keeps_tryCatch {x : Acc α} {f : AFail → Acc α} (hx : Keeps P x) (hf : ∀ e, Keeps P (f e)) :
    Keeps P (tryCatch x f) := by
  intro s h
  have ht := hx s h
  rw [ExceptT.run_tryCatch, StateT.run_bind]
  generalize StateT.run (ExceptT.run x) s = p at ht ⊢
  obtain ⟨r, t⟩ := p
  cases r with
  | ok a => exact ht
  | error e => exact hf e t ht

end

/-! ### Reads keep the frame -/

/-- The state has a frame. -/
def HasFrame (b : TickFrame) (s : State) : Prop := tickFrame s = b

theorem hasFrame_of_eq {b : TickFrame} {s t : State} (h : tickFrame t = tickFrame s) (hs : HasFrame b s) : HasFrame b t :=
  h.trans hs

section
variable (b : TickFrame) (who : Who) (dva : Nat)

theorem keepsFrame_mediaRead (d : BitVec 32) (space off n : Nat) : Keeps (HasFrame b) (mediaRead d space off n) := by
  refine keeps_get fun s hs => ?_
  dsimp only
  split
  · exact keeps_pure _
  · exact keeps_bind (keeps_set (hasFrame_of_eq (tickFrame_reportBad s space _) hs)) fun _ => keeps_throw _

/-- A fold that carries a state beside another value keeps the frame where each of its steps does. -/
theorem tickFrame_foldl_fst {α γ : Type} {f : State × γ → α → State × γ}
    (hf : ∀ p a, tickFrame (f p a).1 = tickFrame p.1) (l : List α) (p : State × γ) :
    tickFrame (l.foldl f p).1 = tickFrame p.1 := by
  induction l generalizing p with
  | nil => rfl
  | cons a l ih => exact (ih (f p a)).trans (hf p a)

theorem keepsFrame_remoteRead (pos page off n : Nat) : Keeps (HasFrame b) (remoteRead who dva pos page off n) := by
  refine keeps_get fun s hs => ?_
  dsimp only
  split
  · exact keeps_throw _
  · split
    · exact keeps_pure _
    · split
      · exact keeps_throw _
      · split
        · exact keeps_throw _
        · refine keeps_bind (keeps_set (hasFrame_of_eq ?_ hs)) fun _ => keeps_throw _
          refine (tickFrame_foldl_fst (fun p u => ?_) _ (s, 0))
          split <;> simp

theorem keepsFrame_upaRead (addr n : Nat) : Keeps (HasFrame b) (upaRead who dva addr n) := by
  refine keeps_get fun s hs => ?_
  dsimp only
  split
  case h_1 => exact keeps_throw _
  case h_2 => exact keeps_throw _
  case h_3 => exact keeps_throw _
  case h_4 => exact keeps_bind (keeps_set (hasFrame_of_eq (tickFrame_failEntry s _) hs)) fun _ => keeps_throw _
  case h_5 => exact keeps_pure _
  case h_6 =>
    exact keeps_bind (keeps_modify fun u => hasFrame_of_eq (tickFrame_countUnits u ..)) fun _ =>
      keepsFrame_mediaRead b _ _ _ _
  case h_7 => exact keepsFrame_remoteRead b _ _ _ _ _ _

theorem keepsFrame_readEntry (addr : Nat) : Keeps (HasFrame b) (readEntry who dva addr) := by
  refine keeps_bind (keeps_tryCatch (keepsFrame_upaRead b _ dva addr 8) fun e => ?_) fun _ => keeps_pure _
  split <;> exact keeps_throw _

theorem keepsFrame_xfault {α : Type} : Keeps (HasFrame b) (xfault dva : Acc α) := keeps_throw _

theorem keepsFrame_walk : Keeps (HasFrame b) (walk who dva) := by
  refine keeps_get fun s hs => keeps_bind (keepsFrame_readEntry b who dva _) fun e1 => ?_
  split
  · exact keepsFrame_xfault b dva
  · refine keeps_bind (keepsFrame_readEntry b who dva _) fun e2 => ?_
    split
    · exact keepsFrame_xfault b dva
    · split
      · split
        · exact keeps_pure _
        · exact keepsFrame_xfault b dva
      · split
        · exact keepsFrame_xfault b dva
        · refine keeps_bind (keepsFrame_readEntry b who dva _) fun e3 => ?_
          split
          · exact keeps_pure _
          · exact keepsFrame_xfault b dva

theorem keepsFrame_leafOf : Keeps (HasFrame b) (leafOf who dva) := by
  have hcache : ∀ x, Keeps (HasFrame b) (modify fun s => s.cacheLeaf who.agent x) := fun x =>
    keeps_modify fun s => hasFrame_of_eq (tickFrame_cacheLeaf s who.agent x)
  refine keeps_get fun s hs => ?_
  split
  · exact keeps_bind (hcache _) fun _ => keeps_pure _
  · exact keeps_bind (keepsFrame_walk b who dva) fun x => keeps_bind (hcache x) fun _ => keeps_pure _

theorem keepsFrame_translate (write : Bool) : Keeps (HasFrame b) (translate who dva write) := by
  refine keeps_bind (keepsFrame_leafOf b who dva) fun x => ?_
  dsimp only
  split
  · exact keepsFrame_xfault b dva
  · split
    · exact keeps_pure _
    · split
      · exact keeps_pure _
      · split <;> exact keeps_pure _

theorem keepsFrame_winReadDva (off n : Nat) : Keeps (HasFrame b) (winReadDva dva off n) := by
  refine keeps_get fun s hs => ?_
  split
  · exact keeps_throw _
  · split
    · exact keeps_pure _
    · exact keeps_bind (keeps_set (hasFrame_of_eq (tickFrame_winReport s off n) hs)) fun _ => keeps_throw _

theorem keepsFrame_packedRead (comp : Nat) (fmt : Fmt) (base off n : Nat) :
    Keeps (HasFrame b) (packedRead who dva comp fmt base off n) :=
  keeps_bind (keeps_mapM (fun _ => keeps_bind (keepsFrame_upaRead b who dva _ _) fun _ => keeps_pure _) _) fun _ =>
    keeps_pure _

theorem keepsFrame_rdPiece (n : Nat) : Keeps (HasFrame b) (rdPiece who dva n) := by
  have hlog : ∀ s k m, HasFrame b s → HasFrame b (s.logRead who k m) := fun s k m =>
    hasFrame_of_eq (tickFrame_logRead s who k m)
  unfold rdPiece
  split
  · exact keepsFrame_xfault b dva
  · refine keeps_bind (keepsFrame_translate b who dva false) fun target => ?_
    split
    · exact keeps_bind (keeps_modify fun s hs => hlog _ _ _ (hasFrame_of_eq (tickFrame_countUnits s ..) hs)) fun _ =>
        keepsFrame_winReadDva b dva _ n
    · exact keeps_bind (keeps_modify fun s => hlog s _ _) fun _ => keepsFrame_upaRead b who dva _ n
    · exact keeps_bind (keeps_modify fun s => hlog s _ _) fun _ => keepsFrame_packedRead b who dva _ _ _ _ n

/-- A read at a DVA keeps the frame. -/
theorem keepsFrame_rd (n : Nat) : Keeps (HasFrame b) (rd who dva n) := by
  unfold rd
  split
  · exact keeps_pure _
  · split
    · split
      · exact keeps_bind (keeps_modify fun s => hasFrame_of_eq (tickFrame_logRead s who ..)) fun _ =>
          keepsFrame_mediaRead b _ _ _ _
      · exact keepsFrame_xfault b _
    · refine keeps_bind (keeps_mapM ?_ _) fun _ => keeps_pure _
      exact fun p => keepsFrame_rdPiece b who p.1 p.2

end

@[simp] theorem tickFrame_blockedFrom (s t : State) : tickFrame (s.blockedFrom t) = tickFrame s :=
  tickFrame_each _ (by intros; rfl) _

/-- An access that keeps the frame leaves it however it ends. -/
theorem tickFrame_runAcc {α : Type} {x : Acc α} (hx : ∀ b, Keeps (HasFrame b) x) (s : State) :
    tickFrame (runAcc s x).1 = tickFrame s := by
  have h := hx (tickFrame s) s rfl
  unfold runAcc
  generalize StateT.run (ExceptT.run x) s = p at h ⊢
  obtain ⟨r, t⟩ := p
  rcases r with ⟨_ | _⟩ | _
  · exact h
  · exact tickFrame_blockedFrom s t
  · exact h

/-! ### The parts of a boundary -/

section
variable (s : State)

@[simp] theorem tickFrame_countSubstitute (sub : Bool) : tickFrame (s.countSubstitute sub) = tickFrame s := by
  unfold State.countSubstitute
  dsimp only
  split
  · rfl
  · split <;> rfl

/-- A switch of the tick table changes the table and the switches that wait, which the frame leaves out. -/
theorem tickFrame_tableSwitch : tickFrame s.tableSwitch.1 = tickFrame s := by
  unfold State.tableSwitch
  dsimp only
  refine (tickFrame_foldl_fst (fun p j => ?_) _ _).trans rfl
  have hread := tickFrame_runAcc (fun b => keepsFrame_rd b whoBridge j.dva.toNat (32 * j.len)) p.1
  have htable : ∀ (u : State) (l : List (BitVec 256)), 
      tickFrame { u with tick := { u.tick with table := l } } = tickFrame u := fun _ _ => rfl
  split
  next u bs hu =>
    rw [hu] at hread
    split
    · simpa [htable] using hread
    · simpa using hread
  next u st d hu =>
    rw [hu] at hread
    exact (tickFrame_complete _ _ _ _ _ _).trans hread
  next u v w hu =>
    rw [hu] at hread
    exact hread

@[simp] theorem tickFrame_nextEntry : tickFrame s.nextEntry = tickFrame s := by
  unfold State.nextEntry
  dsimp only
  rw [tickFrame_setReg, tickFrame_setReg]
  split
  · exact tickFrame_tableSwitch s
  · exact (tickFrame_setReg _ _ _).trans (tickFrame_tableSwitch s)

@[simp] theorem tickFrame_putWings (j : Ticket × BitVec 256) : tickFrame (s.putWings j) = tickFrame s := by
  simp [State.putWings]

@[simp] theorem tickFrame_relevel : tickFrame s.relevel = tickFrame s := by
  have h : ∀ u p, tickFrame { u with pwr := p } = tickFrame u := fun _ _ => rfl
  unfold State.relevel
  dsimp only
  split
  · simp
  · rw [h]
    exact tickFrame_setReg _ _ _

@[simp] theorem tickFrame_putLevel (j : Ticket × BitVec 256) : tickFrame (s.putLevel j) = tickFrame s := by
  unfold State.putLevel
  rw [tickFrame_complete, tickFrame_relevel]
  rfl

@[simp] theorem tickFrame_releaseWhere (p : Batch → Bool) : tickFrame (s.releaseWhere p) = tickFrame s :=
  tickFrame_each s (fun u (b : Batch) => tickFrame_releaseBatch u b.id) _

@[simp] theorem tickFrame_endAll (l : List Work) (st : Byte) : tickFrame (s.endAll l st) = tickFrame s :=
  tickFrame_each s (fun u (x : Work) => tickFrame_mapWork u x.id fun w => w.end_ st) l

/-- The background phase ends with its test. -/
theorem tickFrame_stopBackground : tickFrame s.stopBackground = { tickFrame s with test := none } := by
  have h : ∀ u : State, tickFrame u.testDrop = { tickFrame u with test := none } := fun _ => rfl
  rw [State.stopBackground, h, tickFrame_mapWorks, tickFrame_releaseWhere]

@[simp] theorem tickFrame_dropMisfits (old : List (List Nat)) : tickFrame (s.dropMisfits old) = tickFrame s := by
  unfold State.dropMisfits
  dsimp only
  refine (tickFrame_each _ (fun u w => ?_) _).trans (tickFrame_each _ (fun u w => ?_) _)
  · split <;> simp
  · split <;> simp

@[simp] theorem tickFrame_boundaryTokens : tickFrame s.boundaryTokens = tickFrame s :=
  (tickFrame_each _ (by intros; rfl) _).trans (tickFrame_mapWorks s _)

/-- What a boundary sets of the tick that begins, in the state at the end of the one before. -/
def beginTick (sub : Bool) : TickSt :=
  { s.tick with
    number := s.tick.number + 1, lastBoundary := s.now, armedAt := none, early := false, gap := s.tick.gapNext,
    gapNext := false, overrun := 0, carried := 0, expired := 0, urgLimit := false, bgStart := none, l2 := false,
    vtStamp := s.vtNow, sourceState := s.sourceAfter sub }

/-- The new tick has begun, with the entry of the tick table that is its own. -/
def begun (sub : Bool) : State := ({ s.endTick with tick := beginTick s.endTick sub }.countSubstitute sub).nextEntry

/-- What waited for the boundary has been taken. -/
def takeJobs : State := { s with wk := { s.wk with wingJobs := [], perfJobs := [] } }

theorem tickFrame_takeJobs : tickFrame (takeJobs s) = { tickFrame s with wingJobs := [], perfJobs := [] } := rfl

theorem tickFrame_begun (sub : Bool) : (tickFrame (begun s sub)).marks = tickMarks (beginTick s.endTick sub) := by
  rw [begun, tickFrame_nextEntry, tickFrame_countSubstitute]
  rfl

/-- The new tick has its own marks, nothing waits for the boundary and no test runs. -/
theorem tickFrame_boundary (sub : Bool) :
    tickFrame (s.boundary sub) = ⟨tickMarks (beginTick s.endTick sub), [], [], none⟩ := by
  let n := begun s sub
  let x := ((takeJobs n).each n.wk.wingJobs State.putWings).each n.wk.perfJobs State.putLevel
  have hx : tickFrame x = tickFrame (takeJobs n) :=
    (tickFrame_each _ tickFrame_putLevel _).trans (tickFrame_each _ tickFrame_putWings _)
  calc tickFrame (s.boundary sub) = tickFrame x.stopBackground :=
        (tickFrame_bump _ _ _).trans <| (tickFrame_tilesBack _).trans <| (tickFrame_countHolds _).trans <|
          (tickFrame_boundaryTokens _).trans (tickFrame_dropMisfits _ _)
    _ = _ := by rw [tickFrame_stopBackground, hx, tickFrame_takeJobs, ← tickFrame_begun]

end

/-! ### Substitutes (R44, R45) -/

section
variable (s : State)

theorem sourceAfter_of_edges (h : s.reg Reg.tkCtrlSource = 1 ∨ s.reg Reg.tkCtrlSource = 2) (sub : Bool) :
    s.sourceAfter sub = b2n sub := by
  rcases h with h | h <;> simp only [State.sourceAfter, h]

/-- A substitute counts in the run and raises its note; the first one at which the run is long enough raises the fault. -/
theorem countSubstitute_true : s.countSubstitute true =
    let n := ({ s with tick := { s.tick with substRun := s.tick.substRun + 1 } }).note fcTickSource
    if s.tick.substFault = false ∧ s.reg Reg.tkCtrlSubLimit ≠ 0 ∧ s.reg Reg.tkCtrlSubLimit ≤ s.tick.substRun + 1 then
      ({ n with tick := { n.tick with substFault := true } }).raise (mkReport fcTickSource 1)
    else n := by
  by_cases h : s.tick.substFault = false ∧ s.reg Reg.tkCtrlSubLimit ≠ 0 ∧ s.reg Reg.tkCtrlSubLimit ≤ s.tick.substRun + 1
  · have hquiet : ¬(s.tick.substFault || decide (s.reg Reg.tkCtrlSubLimit = 0) ||
        decide (s.tick.substRun + 1 < s.reg Reg.tkCtrlSubLimit)) = true := by
      simpa [and_assoc] using h
    dsimp only
    rw [if_pos h]
    exact if_neg hquiet
  · have hquiet : (s.tick.substFault || decide (s.reg Reg.tkCtrlSubLimit = 0) ||
        decide (s.tick.substRun + 1 < s.reg Reg.tkCtrlSubLimit)) = true := by
      by_contra hn
      exact h (by simpa [and_assoc] using hn)
    dsimp only
    rw [if_neg h]
    exact if_pos hquiet

/-- What a substitute leaves of the run and of the collector (R45). -/
theorem countSubstitute_true_effect :
    let first := s.tick.substFault = false ∧ s.reg Reg.tkCtrlSubLimit ≠ 0 ∧
      s.reg Reg.tkCtrlSubLimit ≤ s.tick.substRun + 1
    (s.countSubstitute true).fb.collector = s.fb.collector ++ [mkReport fcTickSource 0] ++
      (if first then [mkReport fcTickSource 1] else []) ∧
    (s.countSubstitute true).tick.substRun = s.tick.substRun + 1 ∧
    (s.countSubstitute true).tick.substFault = (s.tick.substFault || decide first) := by
  rw [countSubstitute_true]
  dsimp only
  split
  next hfirst => simp [hfirst, State.note, State.raise, State.markL2]
  next hfirst => simp [hfirst, State.note, State.raise, State.markL2]

end

/-! ### The layout of a record (R52) -/

theorem bitsAt_of_lt {v w : Nat} (h : v < 2 ^ w) : bitsAt v 0 w = v := Nat.mod_eq_of_lt h

theorem bitsAt_of_lt_lo {x lo : Nat} (h : x < 2 ^ lo) (w : Nat) : bitsAt x lo w = 0 := by
  rw [bitsAt, Nat.shiftRight_eq_div_pow, Nat.div_eq_of_lt h, Nat.zero_mod]

/-- A field above the bits read changes none of them. -/
theorem bitsAt_add_shiftLeft_of_le (x v : Nat) {k lo w : Nat} (h : lo + w ≤ k) :
    bitsAt (x + v <<< k) lo w = bitsAt x lo w := by
  obtain ⟨m, rfl⟩ := Nat.exists_eq_add_of_le h
  have hv : v <<< (lo + w + m) = 2 ^ lo * (2 ^ w * (2 ^ m * v)) := by
    rw [Nat.shiftLeft_eq, Nat.pow_add, Nat.pow_add]
    ring
  rw [bitsAt, bitsAt, hv, Nat.shiftRight_eq_div_pow, Nat.add_mul_div_left _ _ (Nat.two_pow_pos lo),
    Nat.add_mul_mod_self_left, Nat.shiftRight_eq_div_pow]

/-- The topmost field, above all that lies below it. -/
theorem bitsAt_add_shiftLeft_top {x v k w : Nat} (hx : x < 2 ^ k) (hv : v < 2 ^ w) : bitsAt (x + v <<< k) k w = v := by
  rw [bitsAt, Nat.shiftRight_eq_div_pow, Nat.shiftLeft_eq, Nat.add_mul_div_right _ _ (Nat.two_pow_pos k),
    Nat.div_eq_of_lt hx, Nat.zero_add, Nat.mod_eq_of_lt hv]

theorem add_shiftLeft_lt {x v k w n : Nat} (hx : x < 2 ^ k) (hv : v < 2 ^ w) (hn : k + w = n) : x + v <<< k < 2 ^ n := by
  subst hn
  have hle : (v + 1) * 2 ^ k ≤ 2 ^ w * 2 ^ k := Nat.mul_le_mul_right _ hv
  rw [Nat.shiftLeft_eq, Nat.pow_add, Nat.mul_comm (2 ^ k)]
  rw [Nat.add_mul] at hle
  omega

theorem b2n_lt (b : Bool) : b2n b < 2 ^ 1 := by cases b <;> decide

theorem min_pred_lt (n w : Nat) : min n (2 ^ w - 1) < 2 ^ w :=
  (Nat.min_le_right _ _).trans_lt (Nat.pred_lt (Nat.two_pow_pos w).ne')

/-- TAG of the tick's entry; 0 without a table. -/
def recordTag (s : State) : Nat := (s.tickEntry.map fun e => bitsAt e 96 32).getD 0

/-- BG_US of the tick that ends. -/
def recordBg (s : State) : Nat := (s.tick.bgStart.map fun b => min ((s.now - b) / 1000) (2 ^ 32 - 1)).getD 0

theorem recordTag_lt (s : State) : recordTag s < 2 ^ 32 := by
  unfold recordTag
  cases s.tickEntry with
  | none => exact Nat.two_pow_pos 32
  | some e => exact bitsAt_lt e 96 32

theorem recordBg_lt (s : State) : recordBg s < 2 ^ 32 := by
  unfold recordBg
  cases s.tick.bgStart with
  | none => exact Nat.two_pow_pos 32
  | some b => exact min_pred_lt _ 32

theorem tickRecord_eq (s : State) : s.tickRecord =
    s.tick.number.toNat + s.tick.vtStamp.toNat <<< 64 + min ((s.now - s.tick.lastBoundary) / 1000) (2 ^ 20 - 1) <<< 128
      + s.reg Reg.tkStatusCursor <<< 148 + (s.tick.sourceState % 4) <<< 156 + b2n s.tick.gap <<< 158
      + b2n s.tick.early <<< 159 + s.tick.overrun.toNat <<< 160 + s.tick.carried.toNat <<< 164
      + b2n s.tick.urgLimit <<< 168 + b2n s.bgZero <<< 169 + recordTag s <<< 192 + recordBg s <<< 224 := by
  unfold State.tickRecord recordTag recordBg
  dsimp only
  cases s.tickEntry <;> cases s.tick.bgStart <;> rfl

/-- Each field stands above the bits of those before it and below the next one's place. -/
theorem tickRecord_fields (s : State) :
    bitsAt s.tickRecord 0 64 = s.tick.number.toNat ∧ bitsAt s.tickRecord 64 64 = s.tick.vtStamp.toNat ∧
    bitsAt s.tickRecord 128 20 = min ((s.now - s.tick.lastBoundary) / 1000) (2 ^ 20 - 1) ∧
    bitsAt s.tickRecord 148 8 = s.reg Reg.tkStatusCursor ∧ bitsAt s.tickRecord 156 2 = s.tick.sourceState % 4 ∧
    bitsAt s.tickRecord 158 1 = b2n s.tick.gap ∧ bitsAt s.tickRecord 159 1 = b2n s.tick.early ∧
    bitsAt s.tickRecord 160 4 = s.tick.overrun.toNat ∧ bitsAt s.tickRecord 164 4 = s.tick.carried.toNat ∧
    bitsAt s.tickRecord 168 1 = b2n s.tick.urgLimit ∧ bitsAt s.tickRecord 169 1 = b2n s.bgZero ∧
    bitsAt s.tickRecord 170 22 = 0 ∧ bitsAt s.tickRecord 192 32 = recordTag s ∧
    bitsAt s.tickRecord 224 32 = recordBg s := by
  have hcur : s.reg Reg.tkStatusCursor < 2 ^ 8 := reg_lt s Reg.tkStatusCursor
  have hsrc : s.tick.sourceState % 4 < 2 ^ 2 := Nat.mod_lt _ (by decide)
  have h64 := s.tick.number.isLt
  have h128 := add_shiftLeft_lt (n := 128) h64 s.tick.vtStamp.isLt rfl
  have h148 := add_shiftLeft_lt (n := 148) h128 (min_pred_lt ((s.now - s.tick.lastBoundary) / 1000) 20) rfl
  have h156 := add_shiftLeft_lt (n := 156) h148 hcur rfl
  have h158 := add_shiftLeft_lt (n := 158) h156 hsrc rfl
  have h159 := add_shiftLeft_lt (n := 159) h158 (b2n_lt s.tick.gap) rfl
  have h160 := add_shiftLeft_lt (n := 160) h159 (b2n_lt s.tick.early) rfl
  have h164 := add_shiftLeft_lt (n := 164) h160 s.tick.overrun.isLt rfl
  have h168 := add_shiftLeft_lt (n := 168) h164 s.tick.carried.isLt rfl
  have h169 := add_shiftLeft_lt (n := 169) h168 (b2n_lt s.tick.urgLimit) rfl
  have h170 := add_shiftLeft_lt (n := 170) h169 (b2n_lt s.bgZero) rfl
  have h192 := h170.trans (show 2 ^ 170 < 2 ^ 192 by decide)
  have h224 := add_shiftLeft_lt (n := 224) h192 (recordTag_lt s) rfl
  rw [tickRecord_eq]
  simp (disch := omega) only [bitsAt_add_shiftLeft_of_le]
  exact ⟨bitsAt_of_lt h64, bitsAt_add_shiftLeft_top h64 s.tick.vtStamp.isLt,
    bitsAt_add_shiftLeft_top h128 (min_pred_lt _ 20), bitsAt_add_shiftLeft_top h148 hcur,
    bitsAt_add_shiftLeft_top h156 hsrc, bitsAt_add_shiftLeft_top h158 (b2n_lt _),
    bitsAt_add_shiftLeft_top h159 (b2n_lt _), bitsAt_add_shiftLeft_top h160 s.tick.overrun.isLt,
    bitsAt_add_shiftLeft_top h164 s.tick.carried.isLt, bitsAt_add_shiftLeft_top h168 (b2n_lt _),
    bitsAt_add_shiftLeft_top h169 (b2n_lt _), bitsAt_of_lt_lo h170 22, bitsAt_add_shiftLeft_top h192 (recordTag_lt s),
    bitsAt_add_shiftLeft_top h224 (recordBg_lt s)⟩

/-! ### What a boundary leaves -/

/-- The frame fixes the fields of the tick that it covers. -/
theorem fields_of_tickFrame {s : State} {k : TickSt} (h : tickFrame s = ⟨tickMarks k, [], [], none⟩) :
    s.tick.number = k.number ∧ s.tick.lastBoundary = k.lastBoundary ∧ s.tick.armedAt = k.armedAt ∧
    s.tick.bgStart = k.bgStart ∧ s.tick.early = k.early ∧ s.tick.overrun = k.overrun ∧ s.tick.expired = k.expired ∧
    s.tick.carried = k.carried ∧ s.tick.urgLimit = k.urgLimit ∧ s.tick.gap = k.gap ∧ s.tick.gapNext = k.gapNext ∧
    s.tick.vtStamp = k.vtStamp ∧ s.tick.sourceState = k.sourceState ∧ s.wk.wingJobs = [] ∧ s.wk.perfJobs = [] ∧
    s.fb.test = none := by
  simp only [tickFrame, tickMarks, TickFrame.mk.injEq, TickSt.mk.injEq] at h
  simp [h]

/-- Settles O7: the frame of a boundary gives the new tick, the run of substitutes is counted once, and the fields of the
record are read off its layout. -/
theorem boundaryStartsTick : Obligations.BoundaryStartsTick := by
  refine ⟨fun s sub => ?_, fun s => ⟨sourceAfter_of_edges s, ?_⟩, tickRecord_fields⟩
  · exact fields_of_tickFrame (tickFrame_boundary s sub)
  · obtain ⟨hcollector, hrun, hfault⟩ := countSubstitute_true_effect s
    exact ⟨hcollector, hrun, hfault, rfl⟩

end Sys2Proof.Proofs

/-! PROOFS. What the descriptors of the ring engine do (04_rings_and_doorbells.md R118 to R125, R137 to R139; 02_the_tick.md R58
to R67; 05_steps_and_wings.md R165; 08_memory_tiers.md R291, R292; 14_power.md R465, R471). -/

namespace Sys2Proof.Proofs
open Sys2Proof Sys2Proof.Machine Sys2Proof.Laws

/-! ### What a descriptor does, by its kind -/

section
variable (s : State) (t : Ticket) {d : Nat}

theorem perform_list (h : bitsAt d 16 8 = 0x01) : s.perform t d = s.admitList t d := by
  simp only [State.perform, dOp, h]

theorem perform_table (h : bitsAt d 16 8 = 0x02) : s.perform t d = s.admitTable t d := by
  simp only [State.perform, dOp, h]

theorem perform_wings (h : bitsAt d 16 8 = 0x03) : s.perform t d = s.admitWings t d := by
  simp only [State.perform, dOp, h]

theorem perform_invalidate (h : bitsAt d 16 8 = 0x06) : s.perform t d = s.invalBegin t (dOps d).toNat := by
  simp only [State.perform, dOp, h]

theorem perform_place (h : bitsAt d 16 8 = 0x07) : s.perform t d = s.admitPlace t d := by
  simp only [State.perform, dOp, h]

theorem perform_fence (h : bitsAt d 16 8 = 0x08) : s.perform t d = s.complete t stOk := by
  simp only [State.perform, dOp, h]

theorem perform_arm (h : bitsAt d 16 8 = 0x09) : s.perform t d = s.admitArm t d := by
  simp only [State.perform, dOp, h]

theorem perform_disarm (h : bitsAt d 16 8 = 0x0A) : s.perform t d = s.admitDisarm t d := by
  simp only [State.perform, dOp, h]

theorem perform_perf (h : bitsAt d 16 8 = 0x0D) : s.perform t d = s.admitPerf t d := by
  simp only [State.perform, dOp, h]

end

/-! ### The descriptor that the engine serves (R118, R137 to R139) -/

@[simp] theorem takeDesc_now (s : State) (n d : Nat) : (s.takeDesc n d).now = s.now := by
  unfold State.takeDesc
  dsimp only
  split <;> rfl

section
variable {s : State} {n : Nat} {d : BitVec 512} (h : s.serves n d = true)
include h

/-- The descriptor that the engine serves is taken, and does what its kind says. -/
theorem admitOne_of_serves :
    s.admitOne n = (s.takeDesc n d.toNat).perform (s.ticketOf n d.toNat) d.toNat := by
  simp only [State.serves, Bool.and_eq_true, beq_iff_eq, Bool.not_eq_true'] at h
  obtain ⟨⟨⟨-, hacc⟩, hgood⟩, hfence⟩ := h
  simp [State.admitOne, hacc, hgood, hfence]

theorem admitIf_of_serves {p : Nat → Bool} (hp : p d.toNat = true) :
    s.admitIf n p = (s.takeDesc n d.toNat).perform (s.ticketOf n d.toNat) d.toNat := by
  rw [← admitOne_of_serves h]
  simp only [State.serves, Bool.and_eq_true, beq_iff_eq] at h
  obtain ⟨⟨⟨hnext, hacc⟩, -⟩, -⟩ := h
  simp [State.admitIf, hnext, hacc, hp]

theorem admitIf_isOp {op : Nat} (hop : bitsAt d.toNat 16 8 = op) :
    s.admitIf n (isOp op) = (s.takeDesc n d.toNat).perform (s.ticketOf n d.toNat) d.toNat :=
  admitIf_of_serves h (by simp [isOp, dOp, hop])

theorem admitIf_isPerf {k : Nat} (hop : bitsAt d.toNat 16 8 = 0x0D) (hk : bitsAt d.toNat 196 2 = k) :
    s.admitIf n (isPerf k) = (s.takeDesc n d.toNat).admitPerf (s.ticketOf n d.toNat) d.toNat :=
  (admitIf_of_serves h (by simp [isPerf, dOp, hop, hk])).trans (perform_perf _ _ hop)

end

/-! ### Step lists (R62 to R67) -/

section
variable (s : State) (t : Ticket) (d : Nat)

/-- The list that a STEP_LIST describes, as Tick work. -/
def tickList : Work :=
  { id := 0, cls := .tick, wing := bitsAt d 26 2, src := .ring t, dva := BitVec.ofNat 48 (bitsAt d 192 48),
    count := bitsAt d 256 16, admTime := s.now,
    target := if bitsAt d 128 64 = 2 ^ 64 - 1 then s.tick.number + 1 else BitVec.ofNat 64 (bitsAt d 128 64) }

/-- TARGET_TICK of all ones names the next tick. -/
theorem targetOf_eq (next : BitVec 64) :
    targetOf d next = if bitsAt d 128 64 = 2 ^ 64 - 1 then next else BitVec.ofNat 64 (bitsAt d 128 64) := by
  have hlt : bitsAt d 128 64 < 2 ^ 64 := bitsAt_lt _ _ _
  have hones : dTarget d = BitVec.allOnes 64 ↔ bitsAt d 128 64 = 2 ^ 64 - 1 := by
    rw [← BitVec.toNat_inj, dTarget, BitVec.toNat_ofNat, BitVec.toNat_allOnes, Nat.mod_eq_of_lt hlt]
  simp only [targetOf, hones]
  rfl

variable {s t d}

theorem admitList_tick (hc : bitsAt d 24 2 = 0) : s.admitList t d =
    if (tickList s t d).target.toNat ≤ s.tick.number.toNat then s.complete t stTickPassed
    else s.addWork (tickList s t d) := by
  simp only [State.admitList, dCls, hc, targetOf_eq]
  rfl

theorem admitList_background (hc : bitsAt d 24 2 = 1) : s.admitList t d =
    s.addWork { tickList s t d with cls := .background, target := 0 } := by
  simp only [State.admitList, dCls, hc]
  rfl

theorem admitList_urgent (hc : bitsAt d 24 2 = 2) : s.admitList t d =
    if s.tickWing (bitsAt d 26 2) = [] then s.complete t stNoSuchWing
    else s.addWork { tickList s t d with
      cls := .urgent, target := 0, tiles := freshRuns (s.tickWing (bitsAt d 26 2)) } := by
  simp only [State.admitList, dCls, hc, List.isEmpty_iff]
  rfl

/-! ### Armings (R122, R123, R125) -/

theorem admitArm_eq : s.admitArm t d =
    if 16 ≤ s.rg.armings.length ∨ (s.arming? (bitsAt d 272 16)).isSome = true then s.complete t stArmRejected
    else { s with rg := { s.rg with armings := s.rg.armings ++
      [{ event := bitsAt d 272 16, wing := bitsAt d 26 2, dva := BitVec.ofNat 48 (bitsAt d 192 48),
         count := bitsAt d 256 16, rearm := bitAt d 288, ticket := t, reserved := true, run := none, disarm := none }] } } := by
  simp only [State.admitArm, Bool.or_eq_true, decide_eq_true_eq]
  rfl

theorem admitDisarm_of_none (h : s.arming? (bitsAt d 272 16) = none) : s.admitDisarm t d = s.complete t stNotArmed := by
  simp [State.admitDisarm, h]

theorem admitDisarm_of_some {x : Arming} (h : s.arming? (bitsAt d 272 16) = some x) : s.admitDisarm t d =
    if x.disarm.isSome = true then s.complete t stNotArmed
    else if x.run.isSome = true then s.mapArming (bitsAt d 272 16) fun a => { a with disarm := some t }
    else ((if x.reserved then s.release x.ticket.cq else s).dropArming (bitsAt d 272 16)).complete t stOk := by
  simp only [State.admitDisarm, h]

end

/-- Settles O26, by the kind of the descriptor that the engine serves and the cases of its admission. -/
theorem listsFencesArmings : Obligations.ListsFencesArmings := by
  refine ⟨?_, ?_⟩
  · intro t n d s a f took tk target w tiles hs hop
    have hrun : Runs (.stepList t n) s (took.admitList tk d.toNat) :=
      runs_congr (runs_stepList t n s) ((admitIf_isOp hs hop).trans (perform_list _ _ hop))
    have hw : tickList took tk d.toNat = w := by
      rw [tickList, takeDesc_now]
    have htick := admitList_tick (s := took) (t := tk) (d := d.toNat)
    have hback := admitList_background (s := took) (t := tk) (d := d.toNat)
    have hurgent := admitList_urgent (s := took) (t := tk) (d := d.toNat)
    rw [hw] at htick hback hurgent
    refine ⟨fun hc hpast => ?_, fun hc hnext => ?_, fun hc => ?_, fun hc hno => ?_, fun hc hwing => ?_⟩
    · exact runs_congr hrun ((htick hc).trans (if_pos hpast))
    · exact runs_congr hrun ((htick hc).trans (if_neg (Nat.not_le.2 hnext)))
    · exact runs_congr hrun (hback hc)
    · exact runs_congr hrun ((hurgent hc).trans (if_pos hno))
    · exact runs_congr hrun ((hurgent hc).trans (if_neg hwing))
  · intro t n d s a f took tk ev arm hs
    refine ⟨fun hop => ?_, fun hop hfull => ?_, fun hop hroom hfree => ?_, fun hop hnone => ?_, fun hop x hx => ?_⟩
    · exact runs_congr (runs_fence t n s) ((admitIf_isOp hs hop).trans (perform_fence _ _ hop))
    · exact runs_congr (runs_armUrgent t n s)
        ((admitIf_isOp hs hop).trans ((perform_arm _ _ hop).trans (admitArm_eq.trans (if_pos hfull))))
    · have hfits : ¬(16 ≤ took.rg.armings.length ∨ (took.arming? ev).isSome = true) := by
        rw [hfree]
        simpa using hroom
      exact runs_congr (runs_armUrgent t n s)
        ((admitIf_isOp hs hop).trans ((perform_arm _ _ hop).trans (admitArm_eq.trans (if_neg hfits))))
    · exact runs_congr (runs_disarm t n s)
        ((admitIf_isOp hs hop).trans ((perform_disarm _ _ hop).trans (admitDisarm_of_none hnone)))
    · have hrun := runs_congr (runs_disarm t n s)
        ((admitIf_isOp hs hop).trans ((perform_disarm _ _ hop).trans (admitDisarm_of_some hx)))
      refine ⟨fun hdis => ?_, fun hdis hrunning => ?_, fun hdis hidle => ?_⟩
      · exact runs_congr hrun (if_pos hdis)
      · exact runs_congr hrun ((if_neg (by simp [hdis])).trans (if_pos hrunning))
      · exact runs_congr hrun ((if_neg (by simp [hdis])).trans (if_neg (by simp [hidle])))

/-! ### Descriptors that wait for a boundary (R58, R59, R165, R465) -/

section
variable {s : State} {t : Ticket} {d : Nat}

theorem admitTable_eq : s.admitTable t d =
    let first := s.tick.number + 2
    let want := if bitsAt d 128 64 = 2 ^ 64 - 1 then first else BitVec.ofNat 64 (bitsAt d 128 64)
    { s with tick := { s.tick with switches := s.tick.switches ++
      [{ ticket := t, dva := BitVec.ofNat 48 (bitsAt d 192 48), len := bitsAt d 240 9,
         target := if want.toNat < first.toNat then first else want }] } } := by
  simp only [State.admitTable, targetOf_eq]

/-- A WING_TABLE that is rejected (R165). -/
def BadWings (s : State) (d : Nat) : Prop :=
  let mask := fun w => bitsAt d (208 + 16 * w) 16
  let all := mask 0 ||| mask 1 ||| mask 2 ||| mask 3
  (∃ i < 4, ∃ j < 4, i < j ∧ mask i &&& mask j ≠ 0) ∨ all = 0 ∨ all &&& s.reg Reg.wgCurrentPresent ≠ all

theorem admitWings_of_bad (h : BadWings s d) : s.admitWings t d = s.complete t stWingRejected :=
  if_pos (by simpa [BadWings, or_assoc] using h)

theorem admitWings_of_good (h : ¬BadWings s d) :
    s.admitWings t d = { s with wk := { s.wk with wingJobs := s.wk.wingJobs ++ [(t, dOps d)] } } :=
  if_neg (by simpa [BadWings, or_assoc] using h)

theorem admitPerf_level (h : bitsAt d 196 2 = 0) :
    s.admitPerf t d = { s with wk := { s.wk with perfJobs := s.wk.perfJobs ++ [(t, dOps d)] } } := by
  simp only [State.admitPerf, h]

theorem admitPerf_s2 (h : bitsAt d 196 2 = 2) : s.admitPerf t d = s.sleepBegin t false (bitsAt d 192 3) := by
  simp only [State.admitPerf, h]
  rfl

theorem admitPerf_s3 (h : bitsAt d 196 2 = 3) : s.admitPerf t d = s.sleepBegin t true (bitsAt d 192 3) := by
  simp only [State.admitPerf, h]
  rfl

/-! ### INVALIDATE (R291, R292) -/

/-- A field of OPERANDS is a field of the descriptor. -/
theorem bitsAt_dOps (d : Nat) {lo w : Nat} (h : lo + w ≤ 256) :
    bitsAt (dOps d).toNat lo w = bitsAt d (192 + lo) w := by
  rw [dOps, BitVec.toNat_ofNat, bitsAt_mod_two_pow _ h]
  apply Nat.eq_of_testBit_eq
  intro i
  simp only [testBit_bitsAt, Nat.add_assoc]
  by_cases hi : i < w
  · simp [hi, show lo + i < 256 by omega]
  · simp [hi]

theorem bitAt_dOps (d : Nat) {i : Nat} (h : i < 256) : bitAt (dOps d).toNat i = bitAt d (192 + i) := by
  rw [dOps, BitVec.toNat_ofNat, bitAt, bitAt, Nat.testBit_mod_two_pow, testBit_bitsAt]
  simp [h]

/-- The range of an INVALIDATE. -/
def invalJob (t : Ticket) (d : Nat) : InvalJob :=
  { ticket := t, lo := bitsAt d 192 48 / 65536, pages := bitsAt d 240 32, all_ := bitAt d 272 }

theorem invalBegin_eq : s.invalBegin t (dOps d).toNat =
    { s with
      xlat := { s.xlat with caches := (s.xlat.caches.map fun e =>
        (e.1, e.2.filter fun x => !x.hit (invalJob t d))).filter fun e => !e.2.isEmpty }
      wk := { s.wk with invals := s.wk.invals ++
        [{ invalJob t d with waits := s.accessing (invalJob t d) }] } } := by
  have hlo : bitsAt (dOps d).toNat 0 48 = bitsAt d 192 48 := bitsAt_dOps d (by decide)
  have hpages : bitsAt (dOps d).toNat 48 32 = bitsAt d 240 32 := bitsAt_dOps d (by decide)
  have hall : bitAt (dOps d).toNat 80 = bitAt d 272 := bitAt_dOps d (by decide)
  simp only [State.invalBegin, hlo, hpages, hall]
  rfl

end

theorem covers_iff (j : InvalJob) (dva : Nat) :
    j.covers dva = true ↔ j.all_ = true ∨ (j.lo ≤ dva / 65536 ∧ dva / 65536 < j.lo + j.pages) := by
  simp [InvalJob.covers]

theorem accesses_iff (r : TileRun) (j : InvalJob) : r.accesses j = true ↔
    (r.busy = true ∨ r.spilled = true) ∧ ((∃ h ∈ r.held, j.covers h.1 = true) ∨
      (0 < r.reads ∧ ∃ p ∈ r.pages, j.covers (p.1 * 65536) = true)) := by
  simp only [TileRun.accesses, Bool.and_eq_true, Bool.or_eq_true, decide_eq_true_eq, List.any_eq_true, Option.any_eq_true,
    Option.mem_def]

theorem mem_accessing {s : State} {j : InvalJob} {x : Nat × Nat} : x ∈ s.accessing j ↔
    ∃ w ∈ s.wk.works, ∃ u ∈ w.tiles, x = (u.tile, w.id) ∧ u.accesses j = true := by
  simp only [State.accessing, List.mem_flatMap, List.mem_map, List.mem_filter]
  constructor
  · rintro ⟨w, hw, u, ⟨hu, ha⟩, rfl⟩
    exact ⟨w, hw, u, hu, rfl, ha⟩
  · rintro ⟨w, hw, u, hu, rfl, ha⟩
    exact ⟨w, hw, u, ⟨hu, ha⟩, rfl⟩

theorem invalClear_iff (s : State) (j : InvalJob) : s.invalClear j = true ↔
    (∀ x ∈ j.waits, x ∉ s.accessing j) ∧
    (∀ tile < 16, ∀ o ∈ (s.tileSt tile).orphans, ∀ p ∈ o.pages, ¬j.covers (p.1 * 65536) = true) ∧
    (∀ h ∈ s.deed.held, ¬j.covers h.dva = true) ∧ ∀ q ∈ s.pw.reqs, q.write = true → ¬j.covers q.dva = true := by
  simp [State.invalClear, and_assoc]

theorem invalEnd_eq {s : State} {j : InvalJob} {r : List InvalJob} (h : s.wk.invals = j :: r) : s.invalEnd =
    if s.invalClear j = true then ({ s with wk := { s.wk with invals := r } }).complete j.ticket stOk else s := by
  simp only [State.invalEnd, h]

/-- Settles O27, by the kind of the descriptor that the engine serves; INVALIDATE_COMPLETE, by what its range still has
under way. -/
theorem waitingDescriptors : Obligations.WaitingDescriptors := by
  refine ⟨?_, ?_, ?_⟩
  · intro t n d s a f took tk first want switch mask all clash bad hs
    refine ⟨fun hop => ?_, fun hop hbad => ?_, fun hop hgood => ?_, fun hop hlevel => ?_⟩
    · exact runs_congr (runs_tickControl t n s)
        ((admitIf_isOp hs hop).trans ((perform_table _ _ hop).trans admitTable_eq))
    · exact runs_congr (runs_wingTable t n s)
        ((admitIf_isOp hs hop).trans ((perform_wings _ _ hop).trans (admitWings_of_bad hbad)))
    · exact runs_congr (runs_wingTable t n s)
        ((admitIf_isOp hs hop).trans ((perform_wings _ _ hop).trans (admitWings_of_good hgood)))
    · exact runs_congr (runs_perfRequest t n s) ((admitIf_isPerf hs hop hlevel).trans (admitPerf_level hlevel))
  · intro t n d s a f took tk job left p sleep hs
    refine ⟨fun hop => ?_, fun hop => ?_, fun hop hstate => ?_, fun hop hstate => ?_⟩
    · exact runs_congr (runs_invalidate t n s)
        ((admitIf_isOp hs hop).trans ((perform_invalidate _ _ hop).trans invalBegin_eq))
    · exact runs_congr (runs_place t n s) ((admitIf_isOp hs hop).trans (perform_place _ _ hop))
    · exact runs_congr (runs_perfRequestS2 t n s) ((admitIf_isPerf hs hop hstate).trans (admitPerf_s2 hstate))
    · exact runs_congr (runs_perfRequestS3 t n s) ((admitIf_isPerf hs hop hstate).trans (admitPerf_s3 hstate))
  · intro t j r s a inRange accesses done hj
    have hdone : a.invalClear j = true ↔ done := by
      simp only [invalClear_iff, mem_accessing, accesses_iff, covers_iff]
      rfl
    refine ⟨fun h => ?_, fun h => ?_⟩
    · exact runs_congr (runs_invalidateComplete t s) ((invalEnd_eq hj).trans (if_pos (hdone.2 h)))
    · exact runs_congr (runs_invalidateComplete t s) ((invalEnd_eq hj).trans (if_neg fun hc => h (hdone.1 hc)))

end Sys2Proof.Proofs

/-! PROOFS. The commands of a Front Door channel (03_front_door.md R77 to R105): which of them act, the power states, mode
registers, training and RESET_n. What a command does is first given once for each way in which its channel meets it. -/

namespace Sys2Proof.Proofs
open Sys2Proof Sys2Proof.Machine Sys2Proof.Laws

/-! ### How a channel meets a command (R77, R90, R100, R105) -/

theorem violate_zero (s : State) (ch : Nat) : s.violate ch 0 = s := rfl

theorem chanReady_iff {s : State} {ch : Nat} : s.chanReady ch = true ↔ s.regOpen = true ∧ (s.chan ch).deep = false ∧
    (s.chan ch).away = false ∧ (s.chan ch).powerDown = false ∧ (s.chan ch).misfit = false := by
  simp [State.chanReady, and_assoc]

section
variable {s : State} {ch : Nat} {k : FdKind} {bank : Nat} {away pd : Bool} {f : State → Fit → State}

/-- A command acts on an open aperture in a state of its channel that allows it; data are spoilt where it comes too soon. -/
theorem command_of_allowed (hopen : s.regOpen = true) (hfit : (s.chan ch).misfit = false)
    (haway : ((s.chan ch).deep || ((s.chan ch).away && !away)) = false) (hpd : ((s.chan ch).powerDown && !pd) = false) :
    s.command ch k bank away pd f =
      (f s (if (s.chan ch).tooSoon k bank s.now then .missed else .fits)).tookCommand ch k bank := by
  simp only [State.command, State.meet, hopen, hfit, haway, hpd, Bool.not_true, Bool.false_eq_true, if_false]

theorem command_of_ready (h : s.chanReady ch = true) : s.command ch k bank away pd f =
    (f s (if (s.chan ch).tooSoon k bank s.now then .missed else .fits)).tookCommand ch k bank := by
  obtain ⟨hopen, hdeep, haway, hpd, hfit⟩ := chanReady_iff.1 h
  exact command_of_allowed hopen hfit (by simp [hdeep, haway]) (by simp [hpd])

/-- A command that no minimum holds back fits. -/
theorem command_of_fits (h : s.chanReady ch = true) (hsoon : (s.chan ch).tooSoon k bank s.now = false) :
    s.command ch k bank away pd f = (f s .fits).tookCommand ch k bank := by
  rw [command_of_ready h, hsoon]
  rfl

/-- Behind a closed aperture a command only passes its time (R100, R104). -/
theorem command_of_closed (h : s.regOpen = false) : s.command ch k bank away pd f = s := by
  simp [State.command, State.meet, h]

/-- In self-refresh a command that is not allowed there is counted and ignored (R105). -/
theorem command_of_away (hopen : s.regOpen = true) (haway : (s.chan ch).away = true) (hfit : (s.chan ch).misfit = false) :
    s.command ch k bank false pd f = s.violate ch := by
  simp [State.command, State.meet, hopen, haway, hfit]

end

/-! ### Refreshes and power states (R79, R100, R104, R105) -/

theorem noCommand_of_fits {s : State} {ch : Nat} (h : (s.chan ch).misfit = false) : s.noCommand ch = s := by
  simp [State.noCommand, h]

theorem deepExit_of_closed {s : State} {ch : Nat} (h : s.regOpen = false) : s.deepExit ch = s := by
  simp [State.deepExit, h]

theorem deepExit_of_deep {s : State} {ch : Nat} (hopen : s.regOpen = true) (hdeep : (s.chan ch).deep = true)
    (hfit : (s.chan ch).misfit = false) :
    s.deepExit ch = (s.setChan ch { s.chan ch with deep := false, away := false }).tookCommand ch .deepOut 16 := by
  simp [State.deepExit, hopen, hdeep, hfit]

theorem fdr_of_closed {s : State} {ch : Nat} (h : s.regOpen = false) : s.fdr ch = s := by
  simp [State.fdr, h]

/-- Self-refresh entry of a channel that is not in deep sleep. -/
theorem goAway_self_refresh {s : State} {ch : Nat} (h : (s.chan ch).deep = false) :
    s.goAway ch false = s.setChan ch { s.chan ch with away := true, wck := false } := by
  simp [State.goAway, h]

theorem goAway_deep_sleep (s : State) (ch : Nat) :
    s.goAway ch true = s.setChan ch { s.chan ch with deep := true, wck := false } := by
  simp [State.goAway]

/-- Settles O17, by how the channel meets each command: ready, in a power state, behind a closed aperture, or away. -/
theorem channelCommands : Obligations.ChannelCommands := by
  refine ⟨fun t ch s => ?_, fun t ch s => ?_, fun t ch bank s => ?_, fun t ch bank s => ?_⟩
  · intro a
    refine ⟨fun h => ⟨fun bank => ?_, ?_, ?_⟩, fun hfit => ⟨?_, ?_⟩⟩
    · exact runs_congr (runs_refpb t ch bank s) (command_of_ready h)
    · exact runs_congr (runs_refab t ch s) (command_of_ready h)
    · exact runs_congr (runs_rfm t ch s) (command_of_ready h)
    · exact runs_congr (runs_nop t ch s) (noCommand_of_fits hfit)
    · exact runs_congr (runs_des t ch s) (noCommand_of_fits hfit)
  · intro a c
    refine ⟨fun h => ⟨?_, ?_, ?_⟩, fun hopen hdeep hfit => ⟨fun hpd => ?_, ?_⟩, fun hopen hdeep hfit => ?_⟩
    · obtain ⟨-, hdeep, -⟩ := chanReady_iff.1 h
      exact runs_congr (runs_sre t ch s) ((command_of_ready h).trans (by rw [goAway_self_refresh hdeep]))
    · exact runs_congr (runs_deepSleepEntry t ch s) ((command_of_ready h).trans (by rw [goAway_deep_sleep]))
    · exact runs_congr (runs_pde t ch s) (command_of_ready h)
    · exact runs_congr (runs_srx t ch s) (command_of_allowed hopen hfit (by simpa using hdeep) (by simpa using hpd))
    · exact runs_congr (runs_pdx t ch s) (command_of_allowed hopen hfit (by simpa using hdeep) (by simp))
    · exact runs_congr (runs_deepSleepExit t ch s) (deepExit_of_deep hopen hdeep hfit)
  · intro a hclosed
    have closed {k : FdKind} {bank : Nat} {away pd : Bool} {f : State → Fit → State} :
        a.command ch k bank away pd f = a := command_of_closed hclosed
    refine ⟨fun row => ?_, fun col => ?_, fun col => ?_, fun col d e => ?_, fun col d e => ?_, fun col d m e => ?_, ?_, ?_,
      ?_, ?_, ?_, ?_, ?_, ?_, ?_, ?_, ?_, fun mr v => ?_, fun mr => ?_, fun d => ?_, ?_, ?_, fun op => ?_, ?_⟩
    · exact runs_congr (runs_act t ch bank row s) closed
    · exact runs_congr (runs_rd16 t ch bank col s) closed
    · exact runs_congr (runs_rd32 t ch bank col s) closed
    · exact runs_congr (runs_wr16 t ch bank col d e s) closed
    · exact runs_congr (runs_wr32 t ch bank col d e s) closed
    · exact runs_congr (runs_mwr t ch bank col d m e s) closed
    · exact runs_congr (runs_prepb t ch bank s) closed
    · exact runs_congr (runs_preab t ch s) closed
    · exact runs_congr (runs_refpb t ch bank s) closed
    · exact runs_congr (runs_refab t ch s) closed
    · exact runs_congr (runs_rfm t ch s) closed
    · exact runs_congr (runs_sre t ch s) closed
    · exact runs_congr (runs_srx t ch s) closed
    · exact runs_congr (runs_pde t ch s) closed
    · exact runs_congr (runs_pdx t ch s) closed
    · exact runs_congr (runs_deepSleepEntry t ch s) closed
    · exact runs_congr (runs_deepSleepExit t ch s) (deepExit_of_closed hclosed)
    · exact runs_congr (runs_mrw t ch mr v s) closed
    · exact runs_congr (runs_mrr t ch mr s) closed
    · exact runs_congr (runs_wff t ch d s) closed
    · exact runs_congr (runs_rff t ch s) closed
    · exact runs_congr (runs_rdc t ch s) closed
    · exact runs_congr (runs_mpc t ch op s) closed
    · exact runs_congr (runs_lpddrReset t ch s) (fdr_of_closed hclosed)
  · intro a hopen haway _ hfit seen
    have away {k : FdKind} {bank : Nat} {pd : Bool} {f : State → Fit → State} :
        a.command ch k bank false pd f = seen := command_of_away hopen haway hfit
    refine ⟨fun row => ?_, fun col => ?_, fun col d e => ?_, ?_, ?_, ?_, ?_⟩
    · exact runs_congr (runs_act t ch bank row s) away
    · exact runs_congr (runs_rd16 t ch bank col s) away
    · exact runs_congr (runs_wr16 t ch bank col d e s) away
    · exact runs_congr (runs_prepb t ch bank s) away
    · exact runs_congr (runs_preab t ch s) away
    · exact runs_congr (runs_refab t ch s) away
    · exact runs_congr (runs_sre t ch s) away

/-! ### Training (R79, R96, R99) -/

/-- The bytes of a number spell it. -/
theorem ofBytes_toBytes (n x : Nat) : ofBytes (toBytes n x) = x % 256 ^ n := by
  induction n generalizing x with
  | zero => simp [toBytes, ofBytes, Nat.mod_one]
  | succ n ih =>
    have hpow : 256 ^ (n + 1) = 256 * 256 ^ n := Nat.pow_succ'
    rw [toBytes, ofBytes, ih, BitVec.toNat_ofNat, hpow, Nat.mod_mul]

theorem ofBytes_toBytes_word (x : BitVec 256) : BitVec.ofNat 256 (ofBytes (toBytes 32 x.toNat)) = x := by
  rw [ofBytes_toBytes, Nat.mod_eq_of_lt (by simpa using x.isLt), BitVec.ofNat_toNat, BitVec.setWidth_eq]

section
variable {s : State}

/-- A write of a FIFO that is not full goes to its end. -/
theorem fifoWrite_of_space {ch : Nat} (x : BitVec 256) (h : (s.chan ch).fifo.length < fifoDepth) :
    s.fifoWrite ch x .fits = (s.setChan ch { s.chan ch with fifo := (s.chan ch).fifo ++ [x] }).trains ch := by
  have hdrop : ((s.chan ch).fifo ++ [x]).length - fifoDepth = 0 := by
    rw [List.length_append, List.length_singleton]
    omega
  simp only [State.fifoWrite, if_true, ofBytes_toBytes_word, hdrop, List.drop_zero]

/-- A read takes the head of the FIFO, which goes to its end. -/
theorem fifoRead_of_cons {ch : Fin 4} {x : BitVec 256} {r : List (BitVec 256)} (h : (s.chan ch).fifo = x :: r) :
    s.fifoRead ch .fits =
      (s.setChan ch { s.chan ch with fifo := r ++ [x], dq := toBytes 32 x.toNat }).trains ch := by
  simp only [State.fifoRead, h, if_true, State.putDq, chan_setChan_same, setChan_setChan]

theorem oscSettle_of_free_run {ch : Nat} (h : (s.chan ch).oscRun = none) : s.oscSettle ch = s := by
  simp only [State.oscSettle, h]
  cases (s.chan ch).oscStart <;> rfl

theorem mpc_oscStop {ch : Nat} (n : BitVec 16) (hstart : (s.chan ch).oscStart.isSome = true)
    (hrun : (s.chan ch).oscRun = none) :
    s.mpc ch (.oscStop n) = s.setChan ch { s.chan ch with oscStart := none, oscCount := n } := by
  simp only [State.mpc, oscSettle_of_free_run hrun, hstart, if_true]

end

/-- Settles O19: each command fits, and does what its operation gives. -/
theorem trainingCommands : Obligations.TrainingCommands := by
  intro t ch s a c trained took h hsoon
  have fits {k : FdKind} {f : State → Fit → State} : a.command ch k 16 true false f = (f a .fits).tookCommand ch k 16 :=
    command_of_fits h (hsoon k)
  refine ⟨fun r hr => ?_, ?_, ?_, ?_, ?_, ?_, ?_, fun n hstart hrun => ?_, fun x hx => ?_, fun x r hx => ?_, ?_⟩
  · exact runs_congr (runs_cas t ch (.sync r) s hr) fits
  · exact runs_congr (runs_cas t ch .fs s rfl) fits
  · exact runs_congr (runs_cas t ch .off s rfl) fits
  · exact runs_congr (runs_mpc t ch .zqStart s) fits
  · exact runs_congr (runs_mpc t ch .zqLatch s) fits
  · exact runs_congr (runs_mpc t ch .other s) fits
  · exact runs_congr (runs_mpc t ch .oscStart s) fits
  · exact runs_congr (runs_mpc t ch (.oscStop n) s) (fits.trans (congrArg (took .mpc) (mpc_oscStop n hstart hrun)))
  · exact runs_congr (runs_wff t ch x s) (fits.trans (congrArg (took .wff) (fifoWrite_of_space x hx)))
  · exact runs_congr (runs_rff t ch s) (fits.trans (congrArg (took .rff) (fifoRead_of_cons hx)))
  · exact runs_congr (runs_rdc t ch s) fits

/-! ### RESET_n of a channel (R102) -/

/-- Settles O20: with the aperture open, RESET_n of a channel is what `State.fdr` gives. -/
theorem lpddrResetChannel : Obligations.LpddrResetChannel := by
  intro t ch s a hopen shut clear
  have hfdr : a.fdr ch =
      (clear.setReg Reg.fdStatusInitDone (clear.reg Reg.fdStatusInitDone &&& (15 - 1 <<< ch.val))).cause 6 14 ch := by
    simp only [State.fdr, hopen, Bool.not_true, Bool.false_eq_true, if_false]
    rfl
  exact runs_congr (runs_lpddrReset t ch s) hfdr

/-! ### Mode registers (R78, R96) -/

section
variable {s : State} {ch : Nat}

theorem mrWrite_of_ignored {mr : Nat} (h : mrWritable mr = false) (v : Nat) : s.mrWrite ch mr v = s := by
  simp [State.mrWrite, h]

/-- What MRW leaves in the channel when `x` is stored. -/
theorem mrWrite_of_writable {mr : Nat} (h : mrWritable mr = true) (v : Nat) : s.mrWrite ch mr v =
    (let c := s.chan ch
     let new := mrMerge mr (c.mrAt c.fspWrite mr) v
     let u := s.setChan ch { c with
       mr := tput (BitVec.ofNat 8 (mrDefault mr)) c.mr (mrKey c.fspWrite mr) (BitVec.ofNat 8 new) }
     if new = v then u else u.note fcFdUnsupported ch) := by
  simp only [State.mrWrite, h, Bool.not_true, Bool.false_eq_true, if_false]

theorem oscSettle_of_stopped (h : (s.chan ch).oscStart = none) : s.oscSettle ch = s := by
  simp [State.oscSettle, h]

/-- MRR of a channel whose oscillator is not running uses up one free value, and nothing else changes but its answer. -/
theorem mrAnswer_of_stopped (h : (s.chan ch).oscStart = none) (mr : Nat) : s.mrAnswer ch mr .fits =
    ({ s with free := s.free + 1 }).setChan ch { s.chan ch with mrData := s.mrRead ch mr } := by
  simp only [State.mrAnswer, oscSettle_of_stopped h]
  rfl

end

@[simp] theorem chan_tookCommand (s : State) (ch : Fin 4) (k : FdKind) (bank : Nat) : (s.tookCommand ch k bank).chan ch =
    { s.chan ch with recent := tset (s.chan ch).recent (32 * k.code + bank) s.now } := chan_setChan_same _ _ _

/-- The table of R96 as MRR answers from it. -/
theorem mrRead_eq (s : State) (ch mr : Nat) (h : mr ≠ 0) : s.mrRead ch mr =
    (if mr = 4 then Config.mrConst 4 &&& 0x7F
     else if mr = 8 then Config.mrConst 8 &&& 0x03
     else if mr = 5 then BitVec.ofNat 8 (s.reg Reg.fdCtrlManufId)
     else if mr = 6 then 0xB1
     else if mr = 35 then (s.chan ch).oscCount.extractLsb' 0 8
     else if mr = 36 then (s.chan ch).oscCount.extractLsb' 8 8
     else if mr ∈ [1, 2, 3, 10, 11, 12, 13, 14, 15, 16, 17, 18, 19, 20, 21, 22, 25, 26, 28, 30, 31, 32, 33, 34, 37] then
       BitVec.ofNat 8 ((s.chan ch).mrAt (s.chan ch).fspWrite mr)
     else 0) := by
  by_cases h4 : mr = 4
  · subst h4; rfl
  by_cases h8 : mr = 8
  · subst h8; rfl
  by_cases h27 : mr = 27
  · subst h27; rfl
  have hfixed : [0, 4, 8, 27].contains mr = false := by simp [h, h4, h8, h27]
  simp only [State.mrRead, mrWritable, hfixed, h4, h8, if_false, Bool.false_eq_true, List.contains_iff_mem]

/-- Settles O18: MRW by whether the register takes the value as written, MRR by the table of R96. -/
theorem modeRegisters : Obligations.ModeRegisters := by
  refine ⟨fun t ch mr v s => ?_, fun t ch mr s => ?_⟩
  · intro a c old put h
    have acts : a.command ch .mrw 16 true false (fun s _ => s.mrWrite ch mr v.toNat) =
        (a.mrWrite ch mr v.toNat).tookCommand ch .mrw 16 := command_of_ready h
    refine ⟨fun hw => ?_, fun hw hm => ?_, fun hw hm => ?_⟩
    · exact runs_congr (runs_mrw t ch mr v s) (acts.trans (by rw [mrWrite_of_ignored hw]))
    · have hput : a.mrWrite ch mr v.toNat = put v.toNat := by
        rw [mrWrite_of_writable hw]
        exact (if_pos hm).trans (congrArg put hm)
      exact runs_congr (runs_mrw t ch mr v s) (acts.trans (by rw [hput]))
    · have hput : a.mrWrite ch mr v.toNat = (put (mrMerge mr old v.toNat)).raise (mkReport fcFdUnsupported 0 ch) := by
        rw [mrWrite_of_writable hw]
        exact if_neg hm
      exact runs_congr (runs_mrw t ch mr v s) (acts.trans (by rw [hput]))
  · intro a c h hsoon hosc hmr
    have answers := (command_of_fits (away := true) (pd := false) (f := fun s fit => s.mrAnswer ch mr fit) h hsoon).trans
      (congrArg (·.tookCommand ch .mrr 16) (mrAnswer_of_stopped hosc mr))
    refine ⟨_, runs_congr (runs_mrr t ch mr s) answers, rfl, rfl, ?_⟩
    simp only [chan_tookCommand, chan_setChan_same]
    exact mrRead_eq a ch mr hmr

end Sys2Proof.Proofs

/-! PROOFS. The row buffers of the Front Door (03_front_door.md R79 to R83, R93, R94, R113): ACT, read bursts and write
bursts that fit. The bytes of a burst are read off by their place in it; from that follow the words that registers and
doorbells take. -/

namespace Sys2Proof.Proofs
open Sys2Proof Sys2Proof.Machine Sys2Proof.Laws

/-! ### Minimums and rows -/

theorem early_eq_false {s : State} {t : Option Nat} {m : Nat} :
    s.early t m = false ↔ ∀ x, t = some x → x + m ≤ s.now := by
  simp [State.early, Option.any_eq_false]

/-- Bank 15 holds no row of the register aperture. -/
theorem isAperture_of_isDoorbell {ch bank row : Nat} (h : isDoorbell bank row = true) : isAperture ch bank row = false := by
  obtain ⟨rfl, rfl⟩ : bank = 15 ∧ row = 0 := by simpa [isDoorbell] using h
  simp [isAperture]

theorem fit_of_clean {b : RowBuf} (h : b.dirty = 0) : b.fit = .fits := if_pos h

/-! ### Bytes of a store -/

theorem mread_eq_map (m : Mem) (k n : Nat) : mread m k n = (List.range n).map fun j => tget m (k + j) 0 := by
  induction n generalizing k with
  | zero => rfl
  | succ n ih =>
    simp only [mread, ih, List.range_succ_eq_map, List.map_cons, List.map_map, Nat.add_zero]
    refine congrArg _ (List.map_congr_left fun j _ => ?_)
    simp only [Function.comp_apply, Nat.add_succ, Nat.succ_add, Nat.add_zero]

theorem getElem_mread (m : Mem) (k : Nat) {n j : Nat} (h : j < (mread m k n).length) :
    (mread m k n)[j] = tget m (k + j) 0 := by
  simp only [mread_eq_map, List.getElem_map, List.getElem_range]

/-- Sectors written one after the other read as they were written. -/
theorem tget_writeSectors {f : Nat → List Byte} (hf : ∀ sec, (f sec).length = 32) {n sec j : Nat} (hsec : sec < n)
    (hj : j < (f sec).length) :
    tget ((List.range n).foldl (fun m i => mwrite m (32 * i) (f i)) []) (32 * sec + j) 0 = (f sec)[j] := by
  have hj32 : j < 32 := hf sec ▸ hj
  induction n with
  | zero => omega
  | succ n ih =>
    rw [List.range_succ, List.foldl_append, List.foldl_cons, List.foldl_nil]
    by_cases hlast : sec = n
    · subst hlast
      exact tget_mwrite_in _ _ _ hj
    · rw [tget_mwrite_out _ _ _ (by omega)]
      exact ih (by omega)

theorem mread_writeSectors {f : Nat → List Byte} (hf : ∀ sec, (f sec).length = 32) {n sec : Nat} (hsec : sec < n) :
    mread ((List.range n).foldl (fun m i => mwrite m (32 * i) (f i)) []) (32 * sec) 32 = f sec :=
  List.ext_getElem (by rw [mread_length, hf]) fun j _ hj => (getElem_mread _ _ _).trans (tget_writeSectors hf hsec hj)

theorem sectorNow_length (s : State) (ch bank row sec : Nat) : (s.sectorNow ch bank row sec).length = 32 := by
  unfold State.sectorNow
  split
  · exact List.length_replicate
  · split
    · exact mread_length _ _ _
    · dsimp only
      split
      · rw [List.length_map, List.length_range]
      · exact mread_length _ _ _

/-! ### Reports of uncorrectable units (08_memory_tiers.md R299) -/

/-- A report of units counts and raises, and leaves what these leave. -/
theorem reportKeys_keeps {β : Type} (π : State → β) (hbump : ∀ (s : State) (f : Field), π (s.bump f) = π s)
    (hraise : ∀ (s : State) (r : Report), π (s.raise r) = π s) (s : State) (l : List Nat) : π (s.reportKeys l) = π s := by
  have hcount (s : State) (space : Nat) : π (s.countUncorr space) = π s := by
    unfold State.countUncorr
    split
    · exact hbump _ _
    · split <;> exact hbump _ _
  exact each_keeps π (fun s k => each_keeps π (fun s u => (hraise _ _).trans (hcount s _)) s _) s l

@[simp] theorem reportKeys_fd (s : State) (l : List Nat) : (s.reportKeys l).fd = s.fd :=
  reportKeys_keeps State.fd (fun _ _ => rfl) (fun _ _ => rfl) s l

@[simp] theorem reportKeys_mem (s : State) (l : List Nat) : (s.reportKeys l).mem = s.mem :=
  reportKeys_keeps State.mem (fun _ _ => rfl) (fun _ _ => rfl) s l

@[simp] theorem reportKeys_badUnits (s : State) (l : List Nat) : (s.reportKeys l).badUnits = s.badUnits :=
  reportKeys_keeps State.badUnits (fun _ _ => rfl) (fun _ _ => rfl) s l

@[simp] theorem reportKeys_now (s : State) (l : List Nat) : (s.reportKeys l).now = s.now :=
  reportKeys_keeps State.now (fun _ _ => rfl) (fun _ _ => rfl) s l

@[simp] theorem rowReport_now (s : State) (ch bank row : Nat) : (s.rowReport ch bank row).now = s.now := reportKeys_now _ _

@[simp] theorem rowReport_chan (s : State) (ch bank row c : Nat) : (s.rowReport ch bank row).chan c = s.chan c := by
  simp [State.chan, State.rowReport]

/-! ### ACT (R81, R93, R94) -/

/-- The buffer `b` of a bank is open from now on; the channel shows that it is initialised (R112). -/
def openBuf (s : State) (ch bank : Nat) (b : RowBuf) : State :=
  let c := s.chan ch
  let u := s.setChan ch { c with open_ := tset c.open_ bank b, lastAct := tset c.lastAct bank s.now,
                                 acts := (s.now :: c.acts).take 4, lastWr := tdel c.lastWr bank }
  u.setReg Reg.fdStatusInitDone (s.reg Reg.fdStatusInitDone ||| 1 <<< ch)

section
variable {s : State} {ch bank row : Nat}

/-- ACT on a closed bank that keeps to the minimums fills a buffer and opens it. -/
theorem activate_of_closed (hopen : tfind (s.chan ch).open_ bank = none)
    (hpre : ∀ x, tfind (s.chan ch).lastPre bank = some x → x ≤ s.now) (hrrd : s.early (s.chan ch).acts.head? 5 = false)
    (hfaw : s.early (s.chan ch).acts[3]? 20 = false) : s.activate ch bank row .fits =
      openBuf (s.fillRow ch bank row .fits).2 ch bank (s.fillRow ch bank row .fits).1 := by
  have hrp : ((tfind (s.chan ch).lastPre bank).any fun t => decide (s.now < t)) = false := by
    simpa [Option.any_eq_false] using hpre
  have hclose : s.closeBank ch bank = s := by
    unfold State.closeBank State.openRow
    rw [hopen]
  simp only [State.activate, hopen, hrp, hrrd, hfaw, b2n, Option.isSome_none, Bool.false_eq_true, if_false, Nat.add_zero,
    violate_zero, hclose, Fit.with_, bne_self_eq_false, Bool.or_self, Bool.false_and]
  rfl

/-- An aperture or doorbell row has no contents of its own. -/
theorem fillRow_of_special (h : isAperture ch bank row = true ∨ isDoorbell bank row = true) :
    s.fillRow ch bank row .fits = ({ row := row, data := [], dirty := 0 }, s) := by
  simp [State.fillRow, h, Fit.mark]

theorem fillRow_of_plain (h : ¬(isAperture ch bank row = true ∨ isDoorbell bank row = true)) :
    s.fillRow ch bank row .fits =
      ({ row := row, dirty := 0
         data := (List.range 64).foldl (fun m sec => mwrite m (32 * sec) (s.sectorNow ch bank row sec)) [] },
       s.rowReport ch bank row) := by
  rw [not_or] at h
  simp [State.fillRow, h]

end

/-- Settles O12, by whether the row is an aperture or doorbell row: what `State.fillRow` gives is opened. -/
theorem actOpensRow : Obligations.ActOpensRow := by
  intro t ch bank row s a c special r hready hsoon hopen hpre hrrd hfaw
  have hact : a.activate ch bank row .fits =
      openBuf (a.fillRow ch bank row .fits).2 ch bank (a.fillRow ch bank row .fits).1 :=
    activate_of_closed hopen hpre (early_eq_false.2 (by rwa [List.head?_eq_getElem?])) (early_eq_false.2 hfaw)
  have hrun := runs_congr (runs_act t ch bank row s)
    ((command_of_fits hready hsoon).trans (congrArg (·.tookCommand ch .act bank) hact))
  by_cases hspecial : special
  · have hr : r = a := if_pos hspecial
    refine ⟨[], fun h => absurd hspecial h, by rw [hr], ?_⟩
    rw [fillRow_of_special hspecial] at hrun
    rw [hr]
    exact hrun
  · have hr : r = a.rowReport ch bank row := if_neg hspecial
    refine ⟨_, fun _ sec hsec => mread_writeSectors (sectorNow_length a ch bank row) hsec,
      by rw [hr]; exact rowReport_chan _ _ _ _ _, ?_⟩
    rw [fillRow_of_plain hspecial] at hrun
    rw [hr]
    simp only [openBuf, rowReport_chan, rowReport_now] at hrun
    exact hrun

/-! ### Read bursts (R79, R82, R93, R94) -/

section
variable {s : State} {ch bank : Nat} {b : RowBuf} (hopen : tfind (s.chan ch).open_ bank = some b)
  (hlate : s.early (tfind (s.chan ch).lastAct bank) 36 = false)
include hopen hlate

theorem readBurst_of_plain (hap : isAperture ch bank b.row = false) (hdb : isDoorbell bank b.row = false) (at_ n : Nat) :
    s.readBurst ch bank at_ n .fits = s.putDq ch (mread b.data at_ n) := by
  simp [State.readBurst, hopen, hlate, hap, hdb, b2n, violate_zero, Fit.with_]

theorem readBurst_of_doorbell (hdb : isDoorbell bank b.row = true) (hclean : b.dirty = 0) (at_ n : Nat) :
    s.readBurst ch bank at_ n .fits = s.putDq ch (List.replicate n 0) := by
  simp [State.readBurst, hopen, hlate, isAperture_of_isDoorbell hdb, hdb, b2n, violate_zero, Fit.with_, Fit.over,
    fit_of_clean hclean]

theorem readBurst_of_aperture (hap : isAperture ch bank b.row = true) (hclean : b.dirty = 0) (at_ n : Nat) :
    s.readBurst ch bank at_ n .fits = s.readAperture ch (apertureOff bank b.row at_) n := by
  simp [State.readBurst, hopen, hlate, hap, b2n, violate_zero, Fit.with_, Fit.over, fit_of_clean hclean]

end

/-- Settles O13, by the kind of the open row. -/
theorem readsReturnRow : Obligations.ReadsReturnRow := by
  intro t ch bank s b a c hready hsoon hopen hlate plain give regs sample
  have reads (at_ n : Nat) : a.command ch .read bank false false (fun s fit => s.readBurst ch bank at_ n fit) =
      (a.readBurst ch bank at_ n .fits).tookCommand ch .read bank := command_of_fits hready hsoon
  have hplain (at_ n : Nat) (h : plain) : (a.readBurst ch bank at_ n .fits).tookCommand ch .read bank =
      give a (mread b.data at_ n) :=
    congrArg (·.tookCommand ch .read bank) (readBurst_of_plain hopen hlate h.1 h.2 at_ n)
  have hdoor (at_ n : Nat) (h : isDoorbell bank b.row = true) (hclean : b.dirty = 0) :
      (a.readBurst ch bank at_ n .fits).tookCommand ch .read bank = give a (List.replicate n 0) :=
    congrArg (·.tookCommand ch .read bank) (readBurst_of_doorbell hopen hlate h hclean at_ n)
  have haper (at_ n : Nat) (h : isAperture ch bank b.row = true) (hclean : b.dirty = 0) :
      (a.readBurst ch bank at_ n .fits).tookCommand ch .read bank = sample at_ n :=
    congrArg (·.tookCommand ch .read bank) (readBurst_of_aperture hopen hlate h hclean at_ n)
  refine ⟨fun col => ⟨fun h => ?_, fun h hclean => ?_, fun h hclean => ?_⟩,
    fun col => ⟨fun h => ?_, fun h hclean => ?_, fun h hclean => ?_⟩⟩
  · exact runs_congr (runs_rd16 t ch bank col s) ((reads _ _).trans (hplain _ _ h))
  · exact runs_congr (runs_rd16 t ch bank col s) ((reads _ _).trans (hdoor _ _ h hclean))
  · exact runs_congr (runs_rd16 t ch bank col s) ((reads _ _).trans (haper _ _ h hclean))
  · exact runs_congr (runs_rd32 t ch bank col s) ((reads _ _).trans (hplain _ _ h))
  · exact runs_congr (runs_rd32 t ch bank col s) ((reads _ _).trans (hdoor _ _ h hclean))
  · exact runs_congr (runs_rd32 t ch bank col s) ((reads _ _).trans (haper _ _ h hclean))

/-! ### Write bursts (R79, R82, R93, R94, R96, R113) -/

/-- The bank remembers its last write burst. -/
def noteWrite (s : State) (ch bank : Nat) : State :=
  s.setChan ch { s.chan ch with lastWr := tset (s.chan ch).lastWr bank s.now }

/-- What link ECC reports of a write burst: nothing unless the channel enables it (R96). -/
def eccSeen (c : FdChan) (e : LinkEcc) : LinkEcc := if c.writeEcc then e else .ok

section
variable {s : State} {ch bank : Nat} {b : RowBuf} (hopen : tfind (s.chan ch).open_ bank = some b)
  (hlate : s.early (tfind (s.chan ch).lastAct bank) 36 = false)
include hopen hlate

theorem writeBurst_of_plain (hap : isAperture ch bank b.row = false) (hdb : isDoorbell bank b.row = false) (at_ : Nat)
    (burst : Burst) (r : LinkEcc) : s.writeBurst ch bank at_ burst r .fits =
      (let e := eccSeen (s.chan ch) r
       let u := noteWrite s ch bank
       if e = .uncorrectable then (u.bump (Reg.fdLinkErrUncorr.ix ch)).note fcFdLink ch
       else (if e = .corrected then u.bump (Reg.fdLinkErrCorr.ix ch) else u).layRow ch bank b at_ burst) := by
  simp only [State.writeBurst, hopen, hlate, hap, hdb, b2n, violate_zero, Fit.with_, Bool.false_eq_true, if_false, ne_eq,
    not_true_eq_false]
  rfl

theorem writeBurst_of_aperture (hap : isAperture ch bank b.row = true) (hclean : b.dirty = 0) (at_ : Nat) (burst : Burst) :
    s.writeBurst ch bank at_ burst .ok .fits =
      (noteWrite s ch bank).writeAperture (apertureOff bank b.row at_) burst := by
  simp [State.writeBurst, hopen, hlate, hap, b2n, violate_zero, Fit.with_, Fit.over, fit_of_clean hclean, noteWrite]

theorem writeBurst_of_doorbell (hdb : isDoorbell bank b.row = true) (hclean : b.dirty = 0) (at_ : Nat) (burst : Burst) :
    s.writeBurst ch bank at_ burst .ok .fits = (noteWrite s ch bank).writeDoorbells ch burst := by
  simp [State.writeBurst, hopen, hlate, isAperture_of_isDoorbell hdb, hdb, b2n, violate_zero, Fit.with_, Fit.over,
    fit_of_clean hclean, noteWrite]

end

/-- Settles O14: the three write bursts lay their bytes over a plain row by one rule. -/
theorem writesLayRow : Obligations.WritesLayRow := by
  intro t ch bank s b a c hready hsoon hmasked hopen hlate hap hdb held counted laid lay lost r e
  have lays (k : FdKind) (at_ : Nat) (burst : Burst) : (a.writeBurst ch bank at_ burst r .fits).tookCommand ch k bank =
      (if e = .uncorrectable then lost else lay (counted e) at_ burst).tookCommand ch k bank :=
    congrArg (·.tookCommand ch k bank) (writeBurst_of_plain hopen hlate hap hdb at_ burst r)
  refine ⟨fun col d => ?_, fun col d => ?_, fun col d m => ?_⟩
  · exact runs_congr (runs_wr16 t ch bank col d r s) ((command_of_fits hready hsoon).trans (lays _ _ _))
  · exact runs_congr (runs_wr32 t ch bank col d r s) ((command_of_fits hready hsoon).trans (lays _ _ _))
  · exact runs_congr (runs_mwr t ch bank col d m r s) ((command_of_fits hready hmasked).trans (lays _ _ _))

/-! ### The bytes and words of a burst -/

theorem toBytes_eq_map (n x : Nat) : toBytes n x = (List.range n).map fun j => BitVec.ofNat 8 (x / 256 ^ j) := by
  induction n generalizing x with
  | zero => rfl
  | succ n ih =>
    simp only [toBytes, ih, List.range_succ_eq_map, List.map_cons, List.map_map, Nat.pow_zero, Nat.div_one]
    refine congrArg _ (List.map_congr_left fun j _ => ?_)
    simp only [Function.comp_apply, Nat.div_div_eq_div_mul, Nat.pow_succ']

/-- Byte `j` of a masked burst. -/
def burstByte (data mask j : Nat) : Option Byte := if mask.testBit j then none else some (BitVec.ofNat 8 (data / 256 ^ j))

theorem maskedBurst_length (n data mask : Nat) : (maskedBurst n data mask).length = n := by
  simp [maskedBurst]

theorem wholeBurst_eq_maskedBurst (n data : Nat) : wholeBurst n data = maskedBurst n data 0 := by
  refine List.ext_getElem (by simp [wholeBurst, maskedBurst]) fun j _ _ => ?_
  simp [wholeBurst, maskedBurst]

/-- Bytes `k` to `k + m` of a burst. -/
theorem maskedBurst_slice (data mask : Nat) {n k m : Nat} (h : k + m ≤ n) :
    ((maskedBurst n data mask).drop k).take m = (List.range m).map fun j => burstByte data mask (k + j) := by
  refine List.ext_getElem ?_ fun j _ _ => ?_
  · rw [List.length_take, List.length_drop, maskedBurst_length, List.length_map, List.length_range]
    omega
  · simp [maskedBurst, toBytes_eq_map, burstByte]

/-- The written ones of bytes `k` to `k + m` of a burst. -/
def writtenBytes (data mask k m : Nat) : List Byte := (List.range m).filterMap fun j => burstByte data mask (k + j)

theorem writtenBytes_eq {data mask n k m : Nat} (h : k + m ≤ n) :
    (((maskedBurst n data mask).drop k).take m).filterMap id = writtenBytes data mask k m := by
  rw [maskedBurst_slice data mask h, List.filterMap_map]
  rfl

theorem bitsAt_eq_zero_iff {x lo w : Nat} : bitsAt x lo w = 0 ↔ ∀ j < w, x.testBit (lo + j) = false := by
  constructor
  · intro h j hj
    simpa [h, hj] using (testBit_bitsAt x lo w j).symm
  · intro h
    refine Nat.eq_of_testBit_eq fun j => ?_
    rw [testBit_bitsAt, Nat.zero_testBit]
    by_cases hj : j < w
    · rw [h j hj, Bool.and_false]
    · rw [decide_eq_false hj, Bool.false_and]

theorem bitsAt_eq_ones_iff {x lo w : Nat} : bitsAt x lo w = 2 ^ w - 1 ↔ ∀ j < w, x.testBit (lo + j) = true := by
  constructor
  · intro h j hj
    simpa [h, hj] using (testBit_bitsAt x lo w j).symm
  · intro h
    refine Nat.eq_of_testBit_eq fun j => ?_
    rw [testBit_bitsAt, Nat.testBit_two_pow_sub_one]
    by_cases hj : j < w
    · rw [h j hj, Bool.and_true]
    · rw [decide_eq_false hj, Bool.false_and]

theorem burstByte_isSome {data mask j : Nat} : (burstByte data mask j).isSome = true ↔ mask.testBit j = false := by
  unfold burstByte
  split <;> simp_all

theorem burstByte_eq_none {data mask j : Nat} : burstByte data mask j = none ↔ mask.testBit j = true := by
  unfold burstByte
  split <;> simp_all

/-- All bytes are written where no mask bit is set. -/
theorem writtenBytes_length {data mask k m : Nat} : (writtenBytes data mask k m).length = m ↔ bitsAt mask k m = 0 := by
  have h := List.filterMap_length_eq_length (f := fun j => burstByte data mask (k + j)) (l := List.range m)
  rw [List.length_range] at h
  simp only [writtenBytes, h, burstByte_isSome, bitsAt_eq_zero_iff, List.mem_range]

/-- No byte is written where every mask bit is set. -/
theorem writtenBytes_eq_nil {data mask k m : Nat} : writtenBytes data mask k m = [] ↔ bitsAt mask k m = 2 ^ m - 1 := by
  simp only [writtenBytes, List.filterMap_eq_nil_iff, burstByte_eq_none, bitsAt_eq_ones_iff, List.mem_range]

/-- The word that bytes all written spell. -/
theorem ofBytes_writtenBytes {data mask k m : Nat} (h : bitsAt mask k m = 0) :
    ofBytes (writtenBytes data mask k m) = bitsAt data (8 * k) (8 * m) := by
  have hbytes : writtenBytes data mask k m = toBytes m (data / 256 ^ k) := by
    rw [toBytes_eq_map, ← List.filterMap_eq_map']
    refine List.filterMap_congr fun j hj => ?_
    rw [burstByte, bitsAt_eq_zero_iff.1 h j (List.mem_range.1 hj), Nat.div_div_eq_div_mul, ← Nat.pow_add]
    rfl
  rw [hbytes, ofBytes_toBytes, bitsAt, Nat.shiftRight_eq_div_pow, Nat.pow_mul, Nat.pow_mul]

/-- A masked burst to registers, word by word (R93). -/
theorem writeAperture_masked (s : State) (off n data mask : Nat) : s.writeAperture off (maskedBurst (4 * n) data mask) =
    s.each (List.range n) fun s i =>
      if bitsAt mask (4 * i) 4 = 0 then s.regWrite (off + 4 * i) (bitsAt data (32 * i) 32)
      else if bitsAt mask (4 * i) 4 = 15 ∨ s.noReg (off + 4 * i) = true then s
      else s.raise (mkReport fcFdPartial 0) := by
  unfold State.writeAperture State.each
  rw [maskedBurst_length, Nat.mul_div_cancel_left n (by decide)]
  refine List.foldl_ext _ _ _ fun u i hi => ?_
  have hin : 4 * i + 4 ≤ 4 * n := by have := List.mem_range.1 hi; omega
  simp only [writtenBytes_eq hin, writtenBytes_length, Bool.or_eq_true, List.isEmpty_iff, writtenBytes_eq_nil]
  split
  next hall => rw [ofBytes_writtenBytes hall, ← Nat.mul_assoc]
  next => rfl

/-- A whole burst to a doorbell row, word by word (R94). -/
theorem writeDoorbells_whole (s : State) (ch n data : Nat) : s.writeDoorbells ch (wholeBurst (8 * n) data) =
    s.each (List.range n) fun s i => s.doorbell ch (BitVec.ofNat 64 (bitsAt data (64 * i) 64)) := by
  unfold State.writeDoorbells State.each
  rw [wholeBurst_eq_maskedBurst, maskedBurst_length, Nat.mul_div_cancel_left n (by decide)]
  refine List.foldl_ext _ _ _ fun u i hi => ?_
  have hin : 8 * i + 8 ≤ 8 * n := by have := List.mem_range.1 hi; omega
  have hall : bitsAt 0 (8 * i) 8 = 0 := bitsAt_eq_zero_iff.2 fun _ _ => Nat.zero_testBit _
  simp only [writtenBytes_eq hin, writtenBytes_length, hall, if_true, ofBytes_writtenBytes hall, ← Nat.mul_assoc]

/-- Settles O15: a burst is its words, each of which reaches a register or the ring logic. -/
theorem writesReachRegisters : Obligations.WritesReachRegisters := by
  intro t ch bank col d m s b a c hready hsoon hmasked hopen hlate hclean held word mask
  refine ⟨fun hap => ?_, fun hdb => ?_⟩
  · have hwrite := (writeBurst_of_aperture hopen hlate hap hclean (32 * col.val) (maskedBurst 32 d.toNat m.toNat)).trans
      (writeAperture_masked _ _ 8 d.toNat m.toNat)
    exact runs_congr (runs_mwr t ch bank col d m .ok s)
      ((command_of_fits hready hmasked).trans (congrArg (·.tookCommand ch .masked bank) hwrite))
  · have hwrite := (writeBurst_of_doorbell hopen hlate hdb hclean (32 * col.val) (wholeBurst 32 d.toNat)).trans
      (writeDoorbells_whole _ _ 4 d.toNat)
    exact runs_congr (runs_wr16 t ch bank col d .ok s)
      ((command_of_fits hready hsoon).trans (congrArg (·.tookCommand ch .write bank) hwrite))

end Sys2Proof.Proofs

/-! PROOFS. Rows on their way home (03_front_door.md R84, R85, R93, R107): precharge, the write-back queues and the spill
area. A write-back is followed unit by unit (08_memory_tiers.md R300, R301): one law says what each byte of memory holds after a
unit, and an induction over the units carries it to the row. -/

namespace Sys2Proof.Proofs
open Sys2Proof Sys2Proof.Machine Sys2Proof.Laws

/-! ### Precharge (R84, R85, R93, R107) -/

/-- The bank has no open row; its next ACT must wait `trp`. -/
def shutBank (s : State) (ch bank trp : Nat) : State :=
  s.setChan ch { s.chan ch with open_ := tdel (s.chan ch).open_ bank, lastPre := tset (s.chan ch).lastPre bank (s.now + trp) }

/-- The sectors of a closing row that go home: all of a scrub-pending row, the dirty ones of another (R107). -/
def closingSectors (s : State) (ch bank : Nat) (b : RowBuf) : BitVec 64 :=
  if s.scrubPending (rowId ch bank b.row) then BitVec.allOnes 64 else b.dirty

section
variable {s : State} {ch : Fin 4} {bank : Nat}

theorem precharge_of_closed (h : tfind (s.chan ch).open_ bank = none) (trp : Nat) : s.precharge ch bank trp .fits =
    s.setChan ch { s.chan ch with lastPre := tset (s.chan ch).lastPre bank (s.now + trp) } := by
  simp only [State.precharge, h]

section
variable {b : RowBuf} (hopen : tfind (s.chan ch).open_ bank = some b)
  (hras : s.early (tfind (s.chan ch).lastAct bank) 42 = false) (hwr : s.early (tfind (s.chan ch).lastWr bank) 40 = false)
include hopen hras hwr

theorem precharge_of_open (trp : Nat) : s.precharge ch bank trp .fits =
    (s.setChan ch { s.chan ch with lastPre := tset (s.chan ch).lastPre bank (s.now + trp) }).closeBank ch bank := by
  simp [State.precharge, hopen, hras, hwr, b2n, violate_zero]

/-- An aperture or doorbell row closes without side effects. -/
theorem precharge_of_special (h : isAperture ch bank b.row = true ∨ isDoorbell bank b.row = true) (trp : Nat) :
    s.precharge ch bank trp .fits = shutBank s ch bank trp := by
  rw [precharge_of_open hopen hras hwr]
  simp only [State.closeBank, State.openRow, chan_setChan_same, hopen, Bool.or_eq_true, h, if_true, setChan_setChan, shutBank]

/-- A row of the window closes, and its sectors are queued. -/
theorem precharge_of_plain (hap : isAperture ch bank b.row = false) (hdb : isDoorbell bank b.row = false) (trp : Nat) :
    s.precharge ch bank trp .fits =
      (let shut := (shutBank s ch bank trp).clearScrub (rowId ch bank b.row)
       let dirty := closingSectors s ch bank b
       if dirty = 0 then shut else shut.queueRow ch (closeOf ch bank b dirty s.now s.fd.nextSeq)) := by
  rw [precharge_of_open hopen hras hwr]
  simp only [State.closeBank, State.openRow, chan_setChan_same, hopen, hap, hdb, Bool.or_self, Bool.false_eq_true, if_false,
    setChan_setChan]
  rfl

end
end

@[simp] theorem chan_clearScrub (s : State) (id c : Nat) : (s.clearScrub id).chan c = s.chan c := (rfl)

theorem queueRow_of_space {s : State} {ch : Nat} {w : WriteBack} (h : (s.chan ch).queue.length < 32) : s.queueRow ch w =
    (let u := { s with fd := { s.fd with nextSeq := s.fd.nextSeq + 1 } }
     u.setChan ch { u.chan ch with queue := (s.chan ch).queue ++ [w] }) := if_pos h

theorem queueRow_of_full {s : State} {ch : Nat} {w : WriteBack} (h : 32 ≤ (s.chan ch).queue.length) : s.queueRow ch w =
    { s with fd := { s.fd with nextSeq := s.fd.nextSeq + 1, spill := s.fd.spill ++ [w] } } := if_neg (Nat.not_lt.2 h)

/-! ### One unit of a write-back (08_memory_tiers.md R300, R301) -/

/-- Key of the first byte of a write-back's home. -/
def homeKey (s : State) (w : WriteBack) : Nat := s.rowKey w.ch w.bank w.row

/-- The sectors of a unit that a write-back writes. -/
def unitSectors (w : WriteBack) (u : Nat) : List Nat := [2 * u, 2 * u + 1].filter fun i => w.dirty.getLsbD i

/-- One sector of a write-back reaches its home. -/
def laySector (w : WriteBack) (s : State) (i : Nat) : State :=
  { s with mem := mwrite s.mem (homeKey s w + 32 * i) (mread w.data (32 * i) 32) }

/-- One unit of a write-back. -/
def putUnit (w : WriteBack) (s : State) (u : Nat) : State :=
  let secs := unitSectors w u
  let k := homeKey s w + 64 * u
  if secs.isEmpty then s
  else if secs.length = 1 && s.badUnits.contains k then s.reportKeys [k]
  else (if s.badUnits.contains k then s.clearKeys [k] else s).each secs (laySector w)

theorem applyWriteBack_eq (s : State) (w : WriteBack) : s.applyWriteBack w = s.each (List.range 32) (putUnit w) := rfl

/-- The unit keeps its bytes: it is uncorrectable and only a part of it is written. -/
def stuckUnit (s : State) (w : WriteBack) (u : Nat) : Bool :=
  s.badUnits.contains (homeKey s w + 64 * u) && !(w.dirty.getLsbD (2 * u) && w.dirty.getLsbD (2 * u + 1))

theorem homeKey_congr {s t : State} (h : s.fd.slices = t.fd.slices) (w : WriteBack) : homeKey s w = homeKey t w := by
  simp only [homeKey, State.rowKey, h]

theorem mem_unitSectors {w : WriteBack} {u i : Nat} : i ∈ unitSectors w u ↔ i / 2 = u ∧ w.dirty.getLsbD i = true := by
  have hpair : i / 2 = u ↔ i = 2 * u ∨ i = 2 * u + 1 := by omega
  simp [unitSectors, hpair]

/-- Of the sectors of a unit, one is written where some are, but not both. -/
theorem unitSectors_length_eq_one {w : WriteBack} {u : Nat} (h : unitSectors w u ≠ []) :
    decide ((unitSectors w u).length = 1) = !(w.dirty.getLsbD (2 * u) && w.dirty.getLsbD (2 * u + 1)) := by
  unfold unitSectors at *
  cases h0 : w.dirty.getLsbD (2 * u) <;> cases h1 : w.dirty.getLsbD (2 * u + 1) <;> simp_all

theorem clearKeys_keeps {β : Type} (π : State → β) (h : ∀ (s : State) (l : List Nat) (p : FaultRec → Bool),
    π (({ s with badUnits := l }).endCondition fcMemUncorr p) = π s) (s : State) (l : List Nat) : π (s.clearKeys l) = π s :=
  each_keeps π (fun s _ => each_keeps π (fun s _ => h s _ _) s _) s _

@[simp] theorem clearKeys_fd (s : State) (l : List Nat) : (s.clearKeys l).fd = s.fd :=
  clearKeys_keeps State.fd (fun _ _ _ => rfl) s l

@[simp] theorem clearKeys_mem (s : State) (l : List Nat) : (s.clearKeys l).mem = s.mem :=
  clearKeys_keeps State.mem (fun _ _ _ => rfl) s l

theorem spaceKey_keySpace_keyOff (k : Nat) : spaceKey (keySpace k) (keyOff k) = k := Nat.div_add_mod' k (2 ^ 40)

/-- Clearing the mark of a unit leaves the marks of the others. -/
theorem mem_badUnits_clearKeys {s : State} {k j : Nat} (h : j ≠ k) : j ∈ (s.clearKeys [k]).badUnits ↔ j ∈ s.badUnits := by
  have hclear : (s.clearBad (keySpace k) [keyOff k]).badUnits = s.badUnits.filter (· != k) := by
    simp [State.clearBad, State.each, State.endCondition, spaceKey_keySpace_keyOff]
  unfold State.clearKeys State.each
  by_cases hk : k ∈ s.badUnits
  · simp [hk, hclear, h]
  · simp [hk]

section
variable {w : WriteBack}

@[simp] theorem laySector_each_fd (s : State) (l : List Nat) : (s.each l (laySector w)).fd = s.fd :=
  each_keeps State.fd (f := laySector w) (fun _ _ => rfl) s l

@[simp] theorem laySector_each_badUnits (s : State) (l : List Nat) : (s.each l (laySector w)).badUnits = s.badUnits :=
  each_keeps State.badUnits (f := laySector w) (fun _ _ => rfl) s l

@[simp] theorem putUnit_fd (s : State) (u : Nat) : (putUnit w s u).fd = s.fd := by
  unfold putUnit
  dsimp only
  split
  · rfl
  · split
    · exact reportKeys_fd _ _
    · rw [laySector_each_fd]
      split
      · exact clearKeys_fd _ _
      · rfl

/-- A unit leaves the marks of the row's other units. -/
theorem stuckUnit_putUnit {s : State} {u v : Nat} (h : v ≠ u) : stuckUnit (putUnit w s u) w v = stuckUnit s w v := by
  have hne : homeKey s w + 64 * v ≠ homeKey s w + 64 * u := by omega
  have hbad : homeKey s w + 64 * v ∈ (putUnit w s u).badUnits ↔ homeKey s w + 64 * v ∈ s.badUnits := by
    unfold putUnit
    dsimp only
    split
    · rfl
    · split
      · rw [reportKeys_badUnits]
      · rw [laySector_each_badUnits]
        split
        · exact mem_badUnits_clearKeys hne
        · rfl
  have hcontains : (putUnit w s u).badUnits.contains (homeKey s w + 64 * v) = s.badUnits.contains (homeKey s w + 64 * v) :=
    Bool.eq_iff_iff.2 (by simpa only [List.contains_iff_mem] using hbad)
  rw [stuckUnit, stuckUnit, homeKey_congr (congrArg FdSt.slices (putUnit_fd s u)), hcontains]

/-- What a byte holds after one sector. -/
theorem tget_laySector (s : State) (i k : Nat) : tget (laySector w s i).mem k 0 =
    if homeKey s w ≤ k ∧ (k - homeKey s w) / 32 = i then tget w.data (k - homeKey s w) 0 else tget s.mem k 0 := by
  have hlen : (mread w.data (32 * i) 32).length = 32 := mread_length _ _ _
  unfold laySector
  split
  next h =>
    obtain ⟨j, hj, rfl⟩ : ∃ j, j < 32 ∧ k = homeKey s w + 32 * i + j := ⟨k - homeKey s w - 32 * i, by omega, by omega⟩
    rw [tget_mwrite_in _ _ _ (hlen ▸ hj), getElem_mread]
    congr 1
    omega
  next h => exact tget_mwrite_out _ _ _ (by omega)

theorem tget_laySectors (s : State) (l : List Nat) (k : Nat) : tget (s.each l (laySector w)).mem k 0 =
    if homeKey s w ≤ k ∧ (k - homeKey s w) / 32 ∈ l then tget w.data (k - homeKey s w) 0 else tget s.mem k 0 := by
  induction l generalizing s with
  | nil => simp [State.each]
  | cons i l ih =>
    have hhome : homeKey (laySector w s i) w = homeKey s w := rfl
    rw [State.each, List.foldl_cons]
    refine (ih (laySector w s i)).trans ?_
    rw [hhome, tget_laySector]
    by_cases hl : homeKey s w ≤ k ∧ (k - homeKey s w) / 32 ∈ l
    · rw [if_pos hl, if_pos ⟨hl.1, List.mem_cons_of_mem _ hl.2⟩]
    · rw [if_neg hl]
      refine if_congr ?_ rfl rfl
      rw [List.mem_cons]
      tauto

/-- What a byte holds after one unit. -/
theorem tget_putUnit (s : State) (u k : Nat) : tget (putUnit w s u).mem k 0 =
    if homeKey s w ≤ k ∧ (k - homeKey s w) / 64 = u ∧ w.dirty.getLsbD ((k - homeKey s w) / 32) = true ∧
        stuckUnit s w u = false then tget w.data (k - homeKey s w) 0
    else tget s.mem k 0 := by
  have hmem : (k - homeKey s w) / 32 ∈ unitSectors w u ↔
      (k - homeKey s w) / 64 = u ∧ w.dirty.getLsbD ((k - homeKey s w) / 32) = true := by
    rw [mem_unitSectors, Nat.div_div_eq_div_mul]
  by_cases hnone : unitSectors w u = []
  · have hunit : putUnit w s u = s := if_pos (by rw [hnone]; rfl)
    rw [hunit, if_neg]
    rintro ⟨-, hu, hd, -⟩
    simpa [hnone] using hmem.2 ⟨hu, hd⟩
  have hsome : ¬(unitSectors w u).isEmpty = true := by rwa [List.isEmpty_iff]
  have hone : decide ((unitSectors w u).length = 1) = !(w.dirty.getLsbD (2 * u) && w.dirty.getLsbD (2 * u + 1)) :=
    unitSectors_length_eq_one hnone
  have hunit : putUnit w s u = if stuckUnit s w u then s.reportKeys [homeKey s w + 64 * u]
      else (if s.badUnits.contains (homeKey s w + 64 * u) then s.clearKeys [homeKey s w + 64 * u] else s).each
        (unitSectors w u) (laySector w) := by
    rw [stuckUnit, Bool.and_comm, ← hone]
    exact if_neg hsome
  rw [hunit]
  cases hstuck : stuckUnit s w u
  · have hlaid : ∀ t : State, t.fd = s.fd → t.mem = s.mem → tget (t.each (unitSectors w u) (laySector w)).mem k 0 =
        if homeKey s w ≤ k ∧ (k - homeKey s w) / 32 ∈ unitSectors w u then tget w.data (k - homeKey s w) 0
        else tget s.mem k 0 := fun t hfd hm => by rw [tget_laySectors, homeKey_congr (congrArg FdSt.slices hfd), hm]
    simp only [Bool.false_eq_true, if_false, and_true, ← hmem]
    split
    · exact hlaid _ (clearKeys_fd _ _) (clearKeys_mem _ _)
    · exact hlaid s rfl rfl
  · simp

/-! ### A write-back (R84) -/

@[simp] theorem putUnits_fd (s : State) (l : List Nat) : (s.each l (putUnit w)).fd = s.fd :=
  each_keeps State.fd putUnit_fd s l

theorem each_range_succ (s : State) (n : Nat) (f : State → Nat → State) :
    s.each (List.range (n + 1)) f = f (s.each (List.range n) f) n := by
  simp only [State.each, List.range_succ, List.foldl_append, List.foldl_cons, List.foldl_nil]

theorem stuckUnit_putUnits (s : State) {n v : Nat} (h : n ≤ v) :
    stuckUnit (s.each (List.range n) (putUnit w)) w v = stuckUnit s w v := by
  induction n with
  | zero => rfl
  | succ n ih =>
    rw [each_range_succ]
    exact (stuckUnit_putUnit (by omega)).trans (ih (by omega))

/-- What a byte holds after the first `n` units. -/
theorem tget_putUnits (s : State) (n k : Nat) : tget (s.each (List.range n) (putUnit w)).mem k 0 =
    if homeKey s w ≤ k ∧ (k - homeKey s w) / 64 < n ∧ w.dirty.getLsbD ((k - homeKey s w) / 32) = true ∧
        stuckUnit s w ((k - homeKey s w) / 64) = false then tget w.data (k - homeKey s w) 0
    else tget s.mem k 0 := by
  induction n with
  | zero => exact (if_neg (by omega)).symm
  | succ n ih =>
    rw [each_range_succ, tget_putUnit, homeKey_congr (congrArg FdSt.slices (putUnits_fd s _)),
      stuckUnit_putUnits s (Nat.le_refl n), ih]
    by_cases hn : (k - homeKey s w) / 64 = n
    · subst hn
      simp
    · have hlt : (k - homeKey s w) / 64 < n + 1 ↔ (k - homeKey s w) / 64 < n := by omega
      simp [hn, hlt]

/-- Every byte of the home that is written, but for those of stuck units, holds what was written; memory is else as it was. -/
theorem tget_applyWriteBack (s : State) (w : WriteBack) (k : Nat) : tget (s.applyWriteBack w).mem k 0 =
    if homeKey s w ≤ k ∧ k < homeKey s w + 2048 ∧ w.dirty.getLsbD ((k - homeKey s w) / 32) = true ∧
        stuckUnit s w ((k - homeKey s w) / 64) = false then tget w.data (k - homeKey s w) 0
    else tget s.mem k 0 := by
  rw [applyWriteBack_eq, tget_putUnits]
  by_cases hk : homeKey s w ≤ k
  · have hin : (k - homeKey s w) / 64 < 32 ↔ k < homeKey s w + 2048 := by omega
    simp [hk, hin]
  · simp [hk]

end

/-! ### Queues and the spill area (R84, R85) -/

theorem chan_setChan (s : State) (c d : Nat) (x : FdChan) :
    (s.setChan c x).chan d = if d = c ∧ c < 4 then x else s.chan d := by
  by_cases hd : d = c
  · subst hd
    by_cases hlt : d < 4
    · simp [State.chan, State.setChan, hlt]
    · simp [State.chan, State.setChan, hlt]
  · rw [chan_setChan_other s x hd, if_neg fun h => hd h.1]

@[simp] theorem setChan_spill (s : State) (c : Nat) (x : FdChan) : (s.setChan c x).fd.spill = s.fd.spill := (rfl)

theorem land_eq (s : State) (w : WriteBack) : s.land w =
    (let t := s.applyWriteBack w
     let u := t.setChan w.ch { t.chan w.ch with queue := (t.chan w.ch).queue.map fun x => x.without w }
     { u with fd := { u.fd with spill := u.fd.spill.map fun x => x.without w } }) := rfl

@[simp] theorem applyWriteBack_fd (s : State) (w : WriteBack) : (s.applyWriteBack w).fd = s.fd := putUnits_fd s _

theorem land_mem (s : State) (w : WriteBack) : (s.land w).mem = (s.applyWriteBack w).mem := by
  simp only [land_eq, setChan_mem]

theorem land_spill (s : State) (w : WriteBack) : (s.land w).fd.spill = s.fd.spill.map fun x => x.without w := by
  rw [← applyWriteBack_fd s w]
  rfl

/-- Of the rows that wait, a landed one clears sectors, and takes none out. -/
theorem land_queue_length (s : State) (w : WriteBack) (ch : Nat) :
    ((s.land w).chan ch).queue.length = (s.chan ch).queue.length := by
  have hchan (c : Nat) : (s.applyWriteBack w).chan c = s.chan c := by simp only [State.chan, applyWriteBack_fd]
  have hland : (s.land w).chan ch = ((s.applyWriteBack w).setChan w.ch
      { s.chan w.ch with queue := (s.chan w.ch).queue.map fun x => x.without w }).chan ch := by
    rw [land_eq]
    simp only [hchan]
    rfl
  rw [hland, chan_setChan, hchan]
  split
  next h => rw [List.length_map, h.1]
  next => rfl

/-- Another row is not made the landed one. -/
theorem without_ne {x w : WriteBack} (h : x ≠ w) : x.without w ≠ w := by
  unfold WriteBack.without
  split
  next hsame =>
    intro he
    have hseq : x.seq = w.seq := (congrArg WriteBack.seq he :)
    simp [hseq] at hsame
  next => exact h

section
variable {s : State} {ch : Nat} {w : WriteBack} {r : List WriteBack}

theorem writeBackHead_of_open (hup : s.mainUp = true) (hq : (s.chan ch).queue = w :: r)
    (hslice : s.sliceOpen w.ch w.bank = true) :
    s.writeBackHead ch = (s.setChan ch { s.chan ch with queue := r }).land w := by
  simp [State.writeBackHead, hq, hup, hslice]

theorem mergeSpill_of_found (hup : s.mainUp = true) (hw : s.fd.spill.find? (fun x => s.sliceOpen x.ch x.bank) = some w) :
    s.mergeSpill = ({ s with fd := { s.fd with spill := s.fd.spill.filter fun x => x != w } }).land w := by
  simp [State.mergeSpill, hw, hup]

theorem spillHead_of_early (hq : (s.chan ch).queue = w :: r) (h : s.now < w.queuedAt + 2000) : s.spillHead ch = s := by
  simp [State.spillHead, hq, us, h]

theorem spillHead_of_late (hup : s.mainUp = true) (hq : (s.chan ch).queue = w :: r) (h : w.queuedAt + 2000 ≤ s.now) :
    s.spillHead ch =
      (let q := s.setChan ch { s.chan ch with queue := r }
       { q with fd := { q.fd with spill := s.fd.spill ++ [w] } }) := by
  simp [State.spillHead, hq, hup, us, Nat.not_lt.2 h]

end

/-- Settles O16: precharge by what the bank holds, and write-backs by what each byte of memory holds after them. -/
theorem rowsGoHome : Obligations.RowsGoHome := by
  refine ⟨fun t ch s => ?_, fun t ch w s => ?_, fun t ch w r s => ?_⟩
  · intro a hready hsoon took
    have shuts (bank : Fin 16) : a.command ch .pre bank false false (fun s fit => s.precharge ch bank 30 fit) =
        took bank (a.precharge ch bank 30 .fits) := command_of_fits hready (hsoon bank (by omega)).1
    refine ⟨fun bank b => ?_, fun bank b => ?_, fun bank hclosed => ?_, ?_⟩
    · intro c hopen hras hwr hap hdb id dirty shut wb next
      have hshut : (shut.chan ch).queue = c.queue := by
        simp only [shut, chan_clearScrub, chan_setChan_same]
      have hpre := precharge_of_plain hopen hras hwr hap hdb 30
      refine ⟨fun hclean => ?_, fun hdirty hspace => ?_, fun hdirty hfull => ?_⟩
      · exact runs_congr (runs_prepb t ch bank s) ((shuts bank).trans (congrArg (took bank) (hpre.trans (if_pos hclean))))
      · have hqueue : shut.queueRow ch wb = next.setChan ch { next.chan ch with queue := c.queue ++ [wb] } := by
          rw [queueRow_of_space (hshut ▸ hspace), hshut]
          rfl
        exact runs_congr (runs_prepb t ch bank s)
          ((shuts bank).trans (congrArg (took bank) ((hpre.trans (if_neg hdirty)).trans hqueue)))
      · have hqueue : shut.queueRow ch wb = { next with fd := { next.fd with spill := a.fd.spill ++ [wb] } } :=
          queueRow_of_full (hshut ▸ hfull)
        exact runs_congr (runs_prepb t ch bank s)
          ((shuts bank).trans (congrArg (took bank) ((hpre.trans (if_neg hdirty)).trans hqueue)))
    · intro c hopen hras hwr hspecial
      exact runs_congr (runs_prepb t ch bank s)
        ((shuts bank).trans (congrArg (took bank) (precharge_of_special hopen hras hwr hspecial 30)))
    · exact runs_congr (runs_prepb t ch bank s)
        ((shuts bank).trans (congrArg (took bank) (precharge_of_closed hclosed 30)))
    · exact runs_congr (runs_preab t ch s) (command_of_fits hready (hsoon 16 (Nat.le_refl _)).2)
  · intro a home stuck landed hup
    have hland (v : State) (hslices : v.fd.slices = a.fd.slices) (hbad : v.badUnits = a.badUnits) (hmem : v.mem = a.mem) :
        landed (v.land w).mem := by
      intro k
      have hhome : homeKey v w = home := homeKey_congr hslices w
      have hstuck (u : Nat) : stuckUnit v w u = true ↔ stuck u := by
        simp only [stuckUnit, hhome, hbad, Bool.and_eq_true, Bool.not_eq_true', stuck]
      rw [land_mem, tget_applyWriteBack, hhome, hmem]
      exact if_congr (by rw [← hstuck, Bool.not_eq_true]) rfl rfl
    refine ⟨fun r hq hslice => ?_, fun hw => ?_⟩
    · refine ⟨_, runs_congr (runs_writebackStart t ch s) (writeBackHead_of_open hup hq hslice), hland _ rfl rfl rfl, ?_⟩
      rw [land_queue_length, chan_setChan_same]
    · refine ⟨_, runs_congr (runs_spillMerge t s) (mergeSpill_of_found hup hw), hland _ rfl rfl rfl, ?_⟩
      rw [land_spill, List.mem_map]
      rintro ⟨x, hx, he⟩
      exact without_ne (by simpa using (List.mem_filter.1 hx).2) he
  · intro a hup hq
    exact ⟨fun hlate => runs_congr (runs_writebackTimeout t ch s) (spillHead_of_late hup hq hlate),
      fun hearly => runs_congr (runs_writebackTimeout t ch s) (spillHead_of_early hq hearly)⟩

end Sys2Proof.Proofs

/-! PROOFS. The register-write commands and what the registers do (00_scope.md R13; 22_register_index.md R650 to R653 and the
register tables of the chapters): a register that takes a write does what `State.regWrote` gives for its offset, which is read
off here block by block; then the counts that a write clears, the set-up of rings, MUTE and the Keyhole's ENABLE. -/

namespace Sys2Proof.Proofs
open Sys2Proof Sys2Proof.Machine Sys2Proof.Laws

/-! ### A write of a register (R100, R104, R650) -/

section
variable {s : State} {off : Nat} {v : Word}

theorem hostWrite_of_closed (h : s.regOpen = false) : s.hostWrite off v = s := by
  simp [State.hostWrite, h]

/-- Where no register lies a write does nothing. -/
theorem hostWrite_of_noReg (h : s.regAbsent off = true ∨ Reg.fieldsAt off = []) : s.hostWrite off v = s := by
  have hnone : s.noReg off = true := by simpa [State.noReg, List.isEmpty_iff] using h
  simp [State.hostWrite, State.regWrite, hnone]

theorem hostWrite_of_reg (hopen : s.regOpen = true) (hhere : s.regAbsent off = false) (hfields : Reg.fieldsAt off ≠ []) :
    s.hostWrite off v = (s.putWritten off v.toNat).regWrote off (s.word off).toNat v.toNat := by
  have hsome : s.noReg off = false := by simp [State.noReg, hhere, hfields]
  simp [State.hostWrite, State.regWrite, hopen, hsome]

end

/-! ### What a write does beyond the fields, by the register's block -/

section
variable (s : State) {off : Nat} (old v : Nat)

theorem regWrote_rings (h : off / 0x1000 = 0x6) : s.regWrote off old v = s.ringWritten off old := by
  simp only [State.regWrote, h]

theorem regWrote_links (h : off / 0x1000 = 0x15) : s.regWrote off old v = s.linkWritten off old v := by
  simp only [State.regWrote, h]

theorem regWrote_gallery (h : off / 0x1000 = 0x16 ∨ off / 0x1000 = 0x17) : s.regWrote off old v = s.galWritten off old v := by
  rcases h with h | h <;> simp only [State.regWrote, h]

theorem regWrote_porch (h : off / 0x1000 = 0x18) : s.regWrote off old v = s.porWritten off old := by
  simp only [State.regWrote, h]

theorem regWrote_keyhole (h : off / 0x1000 = 0x19) :
    s.regWrote off old v = if off = 0x19000 then s.keyRateCheck (s.reg Reg.porCtrlRate) else s := by
  simp only [State.regWrote, h]

theorem regWrote_deedQuery : s.regWrote 0x10010 old v =
    (let e := s.deedOf (bitsAt v 0 22)
     (s.setReg Reg.deedResultLoEntryLo e).setReg Reg.deedResultHiEntryHi (e / 2 ^ 32)) := by
  change s.deedAsk v = _
  rw [State.deedAsk, Nat.shiftRight_eq_div_pow]

theorem regWrote_lock : s.regWrote 0x3018 old v =
    if bitAt v 1 = true ∧ bitsAt v 8 8 = 0x4C then s.setReg Reg.rstLockLocked 1 else s := by
  change s.lockWrite v = _
  simp only [State.lockWrite, Bool.and_eq_true, beq_iff_eq]

/-- PW_JOB of a job opens and closes it (R577). -/
theorem regWrote_job {j : Nat} (hj : j < 16) : s.regWrote (0x15100 + 16 * j) old v =
    (let u := if bitAt v 20 then s.openJob j else s
     if bitAt v 21 then u.closeJob j true else u) := by
  rw [regWrote_links s old v (by omega)]
  have hjob : (0x15100 + 16 * j - 0x15100) / 16 = j := by omega
  have hrange : (decide (0x15100 ≤ 0x15100 + 16 * j) && decide (0x15100 + 16 * j < 0x15200) &&
      decide ((0x15100 + 16 * j) % 16 = 0)) = true := by
    simp only [Bool.and_eq_true, decide_eq_true_eq]
    omega
  simp only [State.linkWritten, hrange, hjob, if_true, if_neg (by omega : ¬0x15100 + 16 * j = 0x15000)]

theorem regWrote_sqCfg {n : Nat} (hn : n < 64) : s.regWrote (0x6104 + 8 * n) old v = s.sqWritten n old := by
  rw [regWrote_rings s old v (by omega)]
  have hring : (0x6104 + 8 * n - 0x6100) / 8 = n := by omega
  have hrange : (decide (0x6100 ≤ 0x6104 + 8 * n) && decide (0x6104 + 8 * n < 0x6300)) = true := by
    simp only [Bool.and_eq_true, decide_eq_true_eq]
    omega
  simp only [State.ringWritten, hrange, hring, if_true, if_pos (by omega : (0x6104 + 8 * n) % 8 = 4),
    if_neg (by omega : ¬0x6104 + 8 * n = 0x6000), if_neg (by omega : ¬0x6104 + 8 * n = 0x6004)]

theorem regWrote_cqCfg {n : Nat} (hn : n < 64) : s.regWrote (0x6304 + 8 * n) old v = s.cqWritten n old := by
  rw [regWrote_rings s old v (by omega)]
  have hring : (0x6304 + 8 * n - 0x6300) / 8 = n := by omega
  have hbelow : (decide (0x6100 ≤ 0x6304 + 8 * n) && decide (0x6304 + 8 * n < 0x6300)) = false := by
    simp only [Bool.and_eq_false_iff, decide_eq_false_iff_not]
    omega
  have hrange : (decide (0x6300 ≤ 0x6304 + 8 * n) && decide (0x6304 + 8 * n < 0x6500)) = true := by
    simp only [Bool.and_eq_true, decide_eq_true_eq]
    omega
  simp only [State.ringWritten, hbelow, hrange, hring, if_true, Bool.false_eq_true, if_false,
    if_pos (by omega : (0x6304 + 8 * n) % 8 = 4), if_neg (by omega : ¬0x6304 + 8 * n = 0x6000),
    if_neg (by omega : ¬0x6304 + 8 * n = 0x6004)]

end

/-! ### Counts that a write clears (R112, R228, R304, R379, R410) -/

theorem word_setReg_other (s : State) (f : Field) (v : Nat) {o : Nat} (h : f.off ≠ o) :
    (s.setReg f v).word o = s.word o := word_setWord_other s _ h.symm

/-- Clearing a field leaves no bit in it, nor in a field that has none. -/
theorem reg_setReg_zero {s : State} {f g : Field} (h : s.reg f = 0 ∨ f = g) : (s.setReg g 0).reg f = 0 := by
  by_cases hoff : f.off = g.off
  · refine bitsAt_eq_zero_iff.2 fun j hj => ?_
    have hword : (s.setReg g 0).word f.off = BitVec.ofNat 32 (putBits (s.word f.off).toNat g.lo g.width 0) := by
      rw [hoff]
      exact word_setWord_same _ _ _
    rw [hword, BitVec.toNat_ofNat, Nat.testBit_mod_two_pow, testBit_putBits, Nat.zero_testBit]
    rcases h with hzero | rfl
    · rw [bitsAt_eq_zero_iff.1 hzero j hj, ite_self, Bool.and_false]
    · rw [if_pos (by omega), Bool.and_false]
  · have hzero : s.reg f = 0 := h.resolve_right fun e => hoff (e ▸ rfl)
    exact (reg_setWord_other s _ hoff).trans hzero

theorem reg_zeroRegs_of_zero {f : Field} (l : List Field) {s : State} (h : s.reg f = 0) : (s.zeroRegs l).reg f = 0 := by
  induction l generalizing s with
  | nil => exact h
  | cons g l ih => exact ih (reg_setReg_zero (.inl h))

/-- Every field that is cleared reads 0. -/
theorem reg_zeroRegs {f : Field} {l : List Field} (h : f ∈ l) (s : State) : (s.zeroRegs l).reg f = 0 := by
  induction l generalizing s with
  | nil => simp at h
  | cons g l ih =>
    rcases List.mem_cons.1 h with rfl | hl
    · exact reg_zeroRegs_of_zero l (reg_setReg_zero (.inr rfl))
    · exact ih hl _

/-- Clearing fields leaves the other registers. -/
theorem word_zeroRegs_other {o : Nat} {l : List Field} (h : ∀ f ∈ l, f.off ≠ o) (s : State) :
    (s.zeroRegs l).word o = s.word o := by
  induction l generalizing s with
  | nil => rfl
  | cons g l ih =>
    obtain ⟨hg, hl⟩ := List.forall_mem_cons.1 h
    exact (ih hl (s.setReg g 0)).trans (word_setReg_other s g 0 hg)

theorem galPort_setGalPort_same (s : State) (p : Nat) (g : GalPort) : (s.setGalPort p g).galPort p = g :=
  tget_tput_same _ _ _ _

theorem galPort_setGalPort_other (s : State) {p q : Nat} (g : GalPort) (h : q ≠ p) :
    (s.setGalPort p g).galPort q = s.galPort q := tget_tput_other _ _ _ h

/-- The counts of unsupported packets of the first `n` ports are cleared one after the other. -/
theorem unsupported_cleared (s : State) {n p : Nat} (h : p < n) : ((s.each (List.range n) fun s p =>
    s.setGalPort p { s.galPort p with unsupported := 0 }).galPort p).unsupported = 0 := by
  induction n with
  | zero => omega
  | succ n ih =>
    rw [each_range_succ]
    by_cases hp : p = n
    · subst hp
      rw [galPort_setGalPort_same]
    · rw [galPort_setGalPort_other _ _ hp]
      exact ih (by omega)

theorem galClear_regs (s : State) : s.galClear.regs = (s.zeroRegs (Reg.galPortStatusHdrErrCsi.all ++
    Reg.galPortStatusCrcErrCsi.all ++ [Reg.galStatusOverflow, Reg.galStatusWriteErr] ++ Reg.galFrameFrame.all)).regs :=
  each_keeps State.regs (f := fun s p => s.setGalPort p { s.galPort p with unsupported := 0 }) (fun _ _ => rfl) _ _

theorem word_congr {s t : State} (h : s.regs = t.regs) (o : Nat) : s.word o = t.word o := by
  simp only [State.word, h]

/-! ### Setting rings up (R116, R117, R134, R146, R148) -/

section
variable {s : State} {n old : Nat} {f : Field}

theorem baseWritten_of_disabled : s.baseWritten n old false f = s := rfl

theorem baseWritten_of_same (h : s.reg f = bitsAt old f.lo f.width) (on : Bool) : s.baseWritten n old on f = s := by
  simp [State.baseWritten, h]

/-- A value written while the ring is enabled does not take. -/
theorem baseWritten_of_changed (h : s.reg f ≠ bitsAt old f.lo f.width) :
    s.baseWritten n old true f = (s.setReg f (bitsAt old f.lo f.width)).note fcRgConfig n := by
  simp [State.baseWritten, h]

theorem sqWritten_of_was_enabled (h : bitAt old 5 = true) :
    s.sqWritten n old = s.baseWritten n old true (Reg.rgSqCfgLog2Entries.ix n) := by
  simp [State.sqWritten, h]

theorem sqWritten_of_was_disabled (h : bitAt old 5 = false) :
    s.sqWritten n old = if s.sqOn n then s.enableSq n else s := by
  simp [State.sqWritten, h, baseWritten_of_disabled]

theorem enableSq_eq : s.enableSq n =
    if ringFits (s.reg (Reg.rgSqBaseBase.ix n) * 2 ^ 11) (s.sqSlots n * 64) = true then (s.keepErrors n).setSq n {}
    else (s.setFlag (Reg.rgSqCfgEnable.ix n) false).note fcRgConfig n := by
  rw [State.enableSq, Nat.shiftLeft_eq]

theorem sqSt_setSq_same (x : SqSt) : (s.setSq n x).sqSt n = x := tget_tput_same _ _ _ _

theorem cqWritten_of_was_disabled (h : bitAt old 7 = false) :
    s.cqWritten n old = if s.cqOn n then s.enableCq n else s := by
  simp [State.cqWritten, h, baseWritten_of_disabled]

theorem enableCq_eq : s.enableCq n =
    if ringFits (s.reg (Reg.rgCqBaseBase.ix n) * 2 ^ 11) (s.cqSlots n * 32) = true then
      s.setCq n { reserved := (s.cqSt n).reserved }
    else (s.setFlag (Reg.rgCqCfgEnable.ix n) false).note fcRgConfig n := by
  rw [State.enableCq, Nat.shiftLeft_eq]

/-- A size that does not take leaves ENABLE as written. -/
theorem cqOn_baseWritten (on : Bool) : (s.baseWritten n old on (Reg.rgCqCfgLog2Entries.ix n)).cqOn n = s.cqOn n := by
  have hkeep (v : Nat) : ((s.setReg (Reg.rgCqCfgLog2Entries.ix n) v).note fcRgConfig n).reg (Reg.rgCqCfgEnable.ix n) =
      s.reg (Reg.rgCqCfgEnable.ix n) :=
    (reg_congr (note_regs _ _ _) _).trans
      (reg_setReg_other s _ _ v (show 0 + 4 ≤ 32 by decide) (.inr (.inl (show 0 + 4 ≤ 7 by decide))))
  unfold State.baseWritten
  split
  · simp only [State.cqOn, State.flag, hkeep]
  · rfl

theorem cqWritten_of_was_enabled (h : bitAt old 7 = true) : s.cqWritten n old =
    (let u := s.baseWritten n old true (Reg.rgCqCfgLog2Entries.ix n)
     if s.cqOn n then u else u.disableCq n) := by
  cases hon : s.cqOn n <;> simp [State.cqWritten, h, cqOn_baseWritten, hon]

theorem rowWritten_of_excluded (hvalid : s.flag Reg.rgStatusRowValid = true)
    (hrow : winExcluded (s.reg Reg.rgStatusRowRowOff * 2 ^ 11) = true) :
    s.rowWritten = (s.setFlag Reg.rgStatusRowValid false).note fcRgConfig := by
  simp only [State.rowWritten, hvalid, Nat.shiftLeft_eq, hrow, Bool.and_self, if_true]

end

/-! ### MUTE and the Keyhole's ENABLE (R418, R423) -/

section
variable {s : State}

theorem muteTo_of_same {m : Bool} (h : s.flag Reg.porCtrlMute = m) : s.muteTo m = s := by
  simp [State.muteTo, h]

theorem muteTo_of_changed {m : Bool} (h : s.flag Reg.porCtrlMute ≠ m) : s.muteTo m =
    if m then ((s.setFlag Reg.porCtrlMute m).porEvent 3).cutPartials 2 else (s.setFlag Reg.porCtrlMute m).porEvent 3 := by
  simp [State.muteTo, h]

theorem keyRateCheck_of_refused {r : Nat} (hr : r = 0 ∨ r = 2) (h : s.flag Reg.keyCtrlEnable = true) :
    s.keyRateCheck r = (s.setFlag Reg.keyCtrlEnable false).noteAon fcPorConfig := by
  simp [State.keyRateCheck, h, hr]

theorem keyRateCheck_of_allowed {r : Nat} (h : s.flag Reg.keyCtrlEnable = false ∨ (r ≠ 0 ∧ r ≠ 2)) :
    s.keyRateCheck r = s := by
  refine if_neg ?_
  simp only [Bool.and_eq_true, Bool.or_eq_true, beq_iff_eq]
  rintro ⟨hon, hr⟩
  rcases h with hoff | ⟨h0, h2⟩
  · simp [hoff] at hon
  · exact hr.elim h0 h2

/-- MUTE_WRITE reaches POR_CTRL, which every device has, as any write of it. -/
theorem muteWritten_of_open (h : s.regOpen = true) (m : Bool) :
    let v := BitVec.ofNat 32 (putBits (s.regValue 0x18000) 1 1 (b2n m))
    s.muteWritten m = (s.putWritten 0x18000 v.toNat).porWritten 0x18000 (s.word 0x18000).toNat := by
  intro v
  have hhere : s.regAbsent 0x18000 = false := by simp [State.regAbsent, tileOfReg]
  exact (hostWrite_of_reg h hhere (by decide +kernel)).trans (regWrote_porch _ _ _ (by decide))

end

/-- Settles O55: each command is a write of its register; then the counts, the rings and MUTE by their own lemmas. -/
theorem registerWrites : Obligations.RegisterWrites := by
  refine ⟨fun t v s => ?_, fun s => ?_, fun s n old => ?_, fun t m s => ?_⟩
  · intro a reg key old request ack job
    have writes {i : Instr} {off : Nat} {f : State → State} (hrun : Runs i s (a.hostWrite off v))
        (hf : ∀ b : State, b.regWrote off (old off) v.toNat = f b) : reg i off f :=
      ⟨fun h => runs_congr hrun (hostWrite_of_closed h), fun h => runs_congr hrun (hostWrite_of_noReg h),
        fun hopen hhere hfields => runs_congr hrun ((hostWrite_of_reg hopen hhere hfields).trans (hf _))⟩
    clear_value reg
    have hrequest (b : State) : b.regWrote 0x3004 (old 0x3004) v.toNat = request b := by
      change b.resetRequest v.toNat = request b
      by_cases hkey : key = 0x5A
      · refine (if_neg (not_not.2 hkey)).trans (Eq.trans ?_ (if_pos hkey).symm)
        generalize bitsAt v.toNat 0 4 = kind
        match kind with
        | 0 | 1 | 2 | 3 | 4 | 5 => rfl
        | k + 6 => rfl
      · exact (if_pos hkey).trans (if_neg hkey).symm
    have hack (b : State) : b.regWrote 0x2008 (old 0x2008) v.toNat = ack b := by
      change b.ackWrite v.toNat = ack b
      by_cases hkey : key = 0xA5
      · exact (if_neg (not_not.2 hkey)).trans (if_pos hkey).symm
      · exact (if_pos hkey).trans (if_neg hkey).symm
    refine ⟨writes (runs_fdClrCnt t v s) fun b => ?_, writes (runs_loftClrCnt t v s) fun b => ?_,
      writes (runs_panClrCnt t v s) fun b => ?_, writes (runs_clrNan t v s) fun b => ?_,
      writes (runs_visClrCnt t v s) fun b => ?_, writes (runs_galClrCnt t v s) fun b => ?_,
      writes (runs_deedQuery t v s) fun b => ?_, fun hi => writes (runs_mmuRootWrite t hi v s) fun b => ?_,
      writes (runs_attnStatusClear t v s) fun b => ?_, writes (runs_rstReqMdr t v s) hrequest,
      writes (runs_rstReqTlr t v s) hrequest, writes (runs_rstReqStr t v s) hrequest,
      writes (runs_rstReqPcr t v s) hrequest, writes (runs_rstReqRevert t v s) hrequest,
      writes (runs_setupLockSet t v s) fun b => ?_, writes (runs_fbAckSlot t v s) hack, writes (runs_fbAckAll t v s) hack,
      fun j => ⟨writes (runs_jobOpenWrite t j v s) fun b => regWrote_job b _ _ j.isLt,
        writes (runs_jobCloseWrite t j v s) fun b => regWrote_job b _ _ j.isLt⟩,
      fun n => ⟨writes (runs_rgSqCfgWrite t n v s) fun b => regWrote_sqCfg b _ _ n.isLt,
        writes (runs_rgCqCfgWrite t n v s) fun b => regWrote_cqCfg b _ _ n.isLt⟩,
      writes (runs_rgStatusRowWrite t v s) fun b => ?_,
      fun w => writes (runs_galStreamWrite t w v s) fun b => regWrote_gallery b _ _ (by omega),
      fun w => writes (runs_porCtrlWrite t w v s) fun b => regWrote_porch b _ _ (by omega),
      fun w => writes (runs_keyCtrlWrite t w v s) fun b => ?_, fun w => writes (runs_registerWrite t w v s) fun b => rfl⟩
    · rfl
    · rfl
    · rfl
    · rfl
    · rfl
    · rfl
    · exact regWrote_deedQuery b _ _
    · cases hi <;> rfl
    · rfl
    · exact regWrote_lock b _ _
    · rfl
    · exact (regWrote_keyhole b _ _ (by omega)).trans (if_congr (by omega) rfl rfl)
  · intro clears
    refine ⟨⟨fun f hf => reg_zeroRegs hf s, fun o ho => word_zeroRegs_other ho s⟩,
      ⟨fun f hf => reg_zeroRegs hf s, fun o ho => word_zeroRegs_other ho s⟩,
      ⟨fun f hf => reg_zeroRegs hf s, fun o ho => word_zeroRegs_other ho s⟩, ⟨fun f hf => ?_, fun o ho => ?_⟩,
      fun p hp => unsupported_cleared _ hp⟩
    · exact (reg_congr (galClear_regs s) f).trans (reg_zeroRegs hf s)
    · exact (word_congr (galClear_regs s) o).trans (word_zeroRegs_other ho s)
  · intro sq cq sqFits cqFits refused
    have hsq (h5 : bitAt old 5 = false) (hon : s.sqOn n = true) : s.sqWritten n old = s.enableSq n :=
      (sqWritten_of_was_disabled h5).trans (if_pos hon)
    have hcq (h7 : bitAt old 7 = false) (hon : s.cqOn n = true) : s.cqWritten n old = s.enableCq n :=
      (cqWritten_of_was_disabled h7).trans (if_pos hon)
    have hsqFits (h5 : bitAt old 5 = false) (hon : s.sqOn n = true) (hfits : sqFits) :
        s.sqWritten n old = (s.keepErrors n).setSq n {} := (hsq h5 hon).trans (enableSq_eq.trans (if_pos hfits))
    refine ⟨fun h5 hoff => ?_, hsqFits, fun h5 hon hfits => ?_, fun h5 hon hfits => ?_, fun h5 => ?_,
      fun h7 hon hfits => ?_, fun h7 hon hfits => ?_, fun h7 hon => ?_, fun h7 hoff => ?_,
      fun f _ hne => baseWritten_of_changed hne, fun f he => baseWritten_of_same he true, rowWritten_of_excluded⟩
    · exact (sqWritten_of_was_disabled h5).trans (if_neg (by simp [hoff]))
    · rw [hsqFits h5 hon hfits, sqSt_setSq_same]
    · exact (hsq h5 hon).trans (enableSq_eq.trans (if_neg hfits))
    · rw [sqWritten_of_was_enabled h5]
      simp only [sq, h5]
    · exact (hcq h7 hon).trans (enableCq_eq.trans (if_pos hfits))
    · exact (hcq h7 hon).trans (enableCq_eq.trans (if_neg hfits))
    · rw [cqWritten_of_was_enabled h7]
      simp only [cq, h7, hon, if_true]
    · rw [cqWritten_of_was_enabled h7]
      simp only [cq, h7, hoff, Bool.false_eq_true, if_false]
      rfl
  · intro a now v
    exact ⟨fun h => runs_congr (runs_muteWrite t m s) (muteWritten_of_open h m),
      fun h => runs_congr (runs_muteWrite t m s) (hostWrite_of_closed h), muteTo_of_changed, muteTo_of_same,
      fun r hr h => keyRateCheck_of_refused hr h, fun r h => keyRateCheck_of_allowed h⟩

end Sys2Proof.Proofs

/-! PROOFS. Rings and doorbells (04_rings_and_doorbells.md R114 to R153): the layout of a completion record and where it goes,
the doorbell words by KIND, the arrival of descriptors and the limits on waits. Each operation of the ring engine has its
equations by case here; the statements about commands read them off. -/

namespace Sys2Proof.Proofs
open Sys2Proof Sys2Proof.Machine Sys2Proof.Laws

/-! ### The completion record (R142) -/

/-- Each field stands above the bits of those before it and below the next one's place. -/
theorem recordBits_fields (sq index phase steps runUs : Nat) (status : Byte) (detail : BitVec 32) (tag tick : BitVec 64) :
    let r := recordBits sq index phase status detail tag tick steps runUs
    bitsAt r 0 16 = index % 2 ^ 16 ∧ bitsAt r 16 6 = sq % 64 ∧ bitsAt r 22 1 = phase % 2 ∧ bitsAt r 23 1 = 0 ∧
    bitsAt r 24 8 = status.toNat ∧ bitsAt r 32 32 = detail.toNat ∧ bitsAt r 64 64 = tag.toNat ∧
    bitsAt r 128 64 = tick.toNat ∧ bitsAt r 192 32 = steps % 2 ^ 32 ∧ bitsAt r 224 32 = min runUs (2 ^ 32 - 1) ∧
    r < 2 ^ 256 := by
  have h16 : index % 65536 < 2 ^ 16 := Nat.mod_lt _ (by decide)
  have hsq : sq % 64 < 2 ^ 6 := Nat.mod_lt _ (by decide)
  have hphase : phase % 2 < 2 ^ 1 := Nat.mod_lt _ (by decide)
  have hsteps : steps % 2 ^ 32 < 2 ^ 32 := Nat.mod_lt _ (by decide)
  have hrun := min_pred_lt runUs 32
  have h22 := add_shiftLeft_lt (n := 22) h16 hsq rfl
  have h23 := add_shiftLeft_lt (n := 23) h22 hphase rfl
  have h24 := h23.trans (show 2 ^ 23 < 2 ^ 24 by decide)
  have h32 := add_shiftLeft_lt (n := 32) h24 status.isLt rfl
  have h64 := add_shiftLeft_lt (n := 64) h32 detail.isLt rfl
  have h128 := add_shiftLeft_lt (n := 128) h64 tag.isLt rfl
  have h192 := add_shiftLeft_lt (n := 192) h128 tick.isLt rfl
  have h224 := add_shiftLeft_lt (n := 224) h192 hsteps rfl
  have h256 := add_shiftLeft_lt (n := 256) h224 hrun rfl
  unfold recordBits
  simp (disch := omega) only [bitsAt_add_shiftLeft_of_le]
  exact ⟨bitsAt_of_lt h16, bitsAt_add_shiftLeft_top h16 hsq, bitsAt_add_shiftLeft_top h22 hphase, bitsAt_of_lt_lo h23 1,
    bitsAt_add_shiftLeft_top h24 status.isLt, bitsAt_add_shiftLeft_top h32 detail.isLt,
    bitsAt_add_shiftLeft_top h64 tag.isLt, bitsAt_add_shiftLeft_top h128 tick.isLt,
    bitsAt_add_shiftLeft_top h192 hsteps, bitsAt_add_shiftLeft_top h224 hrun, h256⟩

/-! ### Where a record goes (R139, R140, R143) -/

section
variable {s : State} {n : Nat} {k : Ticket} {status : Byte} {detail : BitVec 32} {steps : Nat}

theorem owes_eq_zero : s.owes n = 0 ↔ ∀ o ∈ s.rg.owed, o.sq = none → o.cq ≠ n := by
  simp [State.owes]

/-- A record is written at the ring's tail, as one sector of the window (R143). -/
theorem writeRecord_eq (s : State) (n : Nat) (bits : Nat → Nat) (urgent : Bool) : s.writeRecord n bits urgent =
    (let c := s.cqSt n
     let w := s.winWrite (s.reg (Reg.rgCqBaseBase.ix n) * 2048 + c.tail.toNat % s.cqSlots n * 32)
       (toBytes 32 (bits (phaseOf c.tail.toNat (s.cqSlots n))))
     (w.setCq n { w.cqSt n with tail := c.tail + 1 }).recordArrived n urgent) := by
  rw [State.writeRecord, Nat.shiftLeft_eq]

/-- Completion ring `n` takes a record now: none waits for it, and a slot is free. -/
def RecordRoom (s : State) (n : Nat) : Prop :=
  (∀ o ∈ s.rg.owed, o.sq = none → o.cq ≠ n) ∧ ((s.cqSt n).tail - (s.cqSt n).head).toNat < s.cqSlots n

theorem recordRoom_iff : RecordRoom s n ↔
    (decide (s.owes n = 0) && decide (((s.cqSt n).tail - (s.cqSt n).head).toNat < s.cqSlots n)) = true := by
  rw [RecordRoom, ← owes_eq_zero, Bool.and_eq_true, decide_eq_true_eq, decide_eq_true_eq]

theorem putRecord_of_room (h : RecordRoom s n) (bits : Nat → Nat) (urgent : Bool) :
    s.putRecord n bits urgent = s.writeRecord n bits urgent := if_pos (recordRoom_iff.1 h)

theorem putRecord_of_no_room (h : ¬RecordRoom s n) (bits : Nat → Nat) (urgent : Bool) :
    s.putRecord n bits urgent = s.owe n none bits urgent := if_neg fun hroom => h (recordRoom_iff.2 hroom)

theorem complete_of_quiet (hq : k.quiet = true) (hst : status = stOk) :
    s.complete k status detail steps = s.release k.cq := if_pos (by simp [hq, hst])

/-- The record of a descriptor that completes with a record. -/
def ticketRecord (s : State) (k : Ticket) (status : Byte) (detail : BitVec 32) (steps phase : Nat) : Nat :=
  recordBits k.sq k.index.toNat phase status detail k.tag s.tick.number steps ((s.now - k.at_) / 1000)

theorem complete_of_record (h : k.quiet = false ∨ status ≠ stOk) : s.complete k status detail steps =
    (s.release k.cq).putRecord k.cq (ticketRecord s k status detail steps) k.urgent := by
  have hno : ¬(k.quiet && status == stOk) = true := by
    rw [Bool.and_eq_true, beq_iff_eq]
    rintro ⟨hq, hst⟩
    simp [hq, hst] at h
  exact if_neg hno

end

/-- Settles O29: the fields are read off the record's layout, and a completion is quiet, or has room for its record or not
once its reservation is given back. -/
theorem completionRecords : Obligations.CompletionRecords := by
  refine ⟨fun sq index phase steps runUs status detail tag tick => ?_, fun s k status detail steps => ?_⟩
  · obtain ⟨hindex, hring, hphase, hzero, hstatus, hdetail, htag, htick, hsteps, hrun, hlt⟩ :=
      recordBits_fields sq index phase steps runUs status detail tag tick
    exact ⟨hindex, hring, hphase, hzero, hstatus, hdetail, htag, htick, hsteps, hrun, hlt, fun i slots _ => rfl⟩
  · intro free slots c i at_ bits room w
    refine ⟨complete_of_quiet, fun hrec (hroom : RecordRoom free k.cq) => ?_,
      fun hrec (hfull : ¬RecordRoom free k.cq) => ?_⟩
    · exact (complete_of_record hrec).trans ((putRecord_of_room hroom _ _).trans (writeRecord_eq _ _ _ _))
    · exact (complete_of_record hrec).trans (putRecord_of_no_room hfull _ _)

/-! ### Doorbell words by KIND (R126 to R130, R153) -/

/-- When a word of KIND 1 to 15 is bad (R127). -/
theorem badWord_iff {s : State} {ch : Fin 4} {w : Nat} : s.badWord ch w = true ↔
    4 < bitsAt w 0 4 ∨ bitsAt w 10 6 ≠ 0 ∨ bitsAt w 48 16 ≠ 0 ∨ bitsAt w 32 16 ≠ 0xFFFF - bitsAt w 16 16 ∨
    (bitsAt w 0 4 = 1 ∧ (s.flag Reg.rgCtrlEnable = false ∨ s.flag (Reg.rgSqCfgEnable.ix (bitsAt w 4 6)) = false)) ∨
    (bitsAt w 0 4 = 2 ∧ (s.flag Reg.rgCtrlEnable = false ∨ s.flag (Reg.rgCqCfgEnable.ix (bitsAt w 4 6)) = false)) ∨
    ((bitsAt w 0 4 = 3 ∨ bitsAt w 0 4 = 4) ∧ bitsAt w 4 6 ≠ 0) ∨ (bitsAt w 0 4 = 4 ∧ ch ≠ 0) := by
  have hkind (h : ¬4 < bitsAt w 0 4) : 3 ≤ bitsAt w 0 4 ↔ bitsAt w 0 4 = 3 ∨ bitsAt w 0 4 = 4 := by omega
  have hch : (ch : Nat) ≠ 0 ↔ ch ≠ 0 := Fin.val_ne_zero_iff
  simp only [State.badWord, State.sqOn, State.cqOn, Bool.or_eq_true, Bool.and_eq_true, decide_eq_true_eq, bne_iff_ne,
    beq_iff_eq, Bool.not_eq_true', Bool.and_eq_false_iff, hch, or_assoc]
  exact or_congr_right' fun h => by rw [hkind h]

section
variable {s : State} {ch : Fin 4} {w : BitVec 64}

theorem bell_of_closed (h : s.doorOpen ch = false) : s.bell ch w = s := by
  simp [State.bell, h]

theorem bell_of_null (h : bitsAt w.toNat 0 4 = 0) : s.bell ch w = s := by
  simp [State.bell, State.doorbell, h]

theorem bell_of_bad (ho : s.doorOpen ch = true) (hk : bitsAt w.toNat 0 4 ≠ 0) (hb : s.badWord ch w.toNat = true) :
    s.bell ch w = (s.bump Reg.rgDbErrBadWord).raise (mkReport fcRgDoorbell 0 ch) := by
  simp [State.bell, State.doorbell, ho, hk, hb, State.note]

variable (ho : s.doorOpen ch = true) (hb : s.badWord ch w.toNat = false)
include ho hb

theorem bell_of_tail (hk : bitsAt w.toNat 0 4 = 1) : s.bell ch w = s.sqTail (bitsAt w.toNat 4 6) (bitsAt w.toNat 16 16) := by
  simp [State.bell, State.doorbell, ho, hb, hk]

theorem bell_of_head (hk : bitsAt w.toNat 0 4 = 2) : s.bell ch w = s.cqHead (bitsAt w.toNat 4 6) (bitsAt w.toNat 16 16) := by
  simp [State.bell, State.doorbell, ho, hb, hk]

theorem bell_of_mark (hk : bitsAt w.toNat 0 4 = 3) :
    s.bell ch w = s.setReg (Reg.rgMarkMark.ix ch) (bitsAt w.toNat 16 16) := by
  simp [State.bell, State.doorbell, ho, hb, hk]

theorem bell_of_mail (hk : bitsAt w.toNat 0 4 = 4) : s.bell ch w = s.mailDoorbell (bitsAt w.toNat 16 16) := by
  simp [State.bell, State.doorbell, ho, hb, hk]

end

/-- The four doorbell commands write a word on a channel in one way. -/
theorem runs_doorbells {t : Nat} {ch : Fin 4} {w : BitVec 64} {s u : State} (h : (s.at_ t).bell ch w = u) :
    Runs (.sqTailDoorbell t ch w) s u ∧ Runs (.cqHeadDoorbell t ch w) s u ∧ Runs (.markDoorbell t ch w) s u ∧
    Runs (.mailboxDoorbell t ch w) s u :=
  ⟨runs_congr (runs_sqTailDoorbell t ch w s) h, runs_congr (runs_cqHeadDoorbell t ch w s) h,
    runs_congr (runs_markDoorbell t ch w s) h, runs_congr (runs_mailboxDoorbell t ch w s) h⟩

/-! ### Marks and the mailbox (R130, R136, R153) -/

theorem mem_maskBits {n m i : Nat} : i ∈ maskBits n m ↔ i < n ∧ m.testBit i = true := by
  simp [maskBits]

/-- The distance from `y` up to `x` on the circle of 16-bit values. -/
theorem toNat_ofNat_sub_ofNat {x y : Nat} (hx : x < 2 ^ 16) (hy : y < 2 ^ 16) :
    (BitVec.ofNat 16 x - BitVec.ofNat 16 y).toNat = (x + 0x10000 - y) % 0x10000 := by
  rw [BitVec.toNat_sub, BitVec.toNat_ofNat, BitVec.toNat_ofNat]
  omega

theorem marksReached_iff (s : State) (d : Nat) : s.marksReached d = true ↔ ∀ c < 4, d.testBit (28 + c) = true →
    (s.reg (Reg.rgMarkMark.ix c) + 0x10000 - bitsAt d 32 16) % 0x10000 < 0x8000 := by
  simp only [State.marksReached, List.all_eq_true, mem_maskBits, decide_eq_true_eq, dFences, dMark, testBit_bitsAt,
    Bool.and_eq_true, and_imp]
  refine forall_congr' fun c => ?_
  have hmark : s.reg (Reg.rgMarkMark.ix c) < 2 ^ 16 := reg_lt s (Reg.rgMarkMark.ix c)
  have hdist := toNat_ofNat_sub_ofNat hmark (bitsAt_lt d 32 16)
  refine forall_congr' fun hc => ?_
  simp [hc, hdist]

/-- The header of the mailbox's request. -/
def mailHeader (s : State) : Nat := ofBytes (s.winRead 0x02000000 32)

/-- The request that a doorbell word with value `v` submits has a bad header (R153). -/
def badMail (s : State) (v : Nat) : Bool :=
  bitsAt (mailHeader s) 0 16 != v || decide (16352 < bitsAt (mailHeader s) 16 16) || mailHeader s >>> 32 != 0

/-- The header names the value, a length within the area, and nothing else. -/
def GoodMail (s : State) (v : Nat) : Prop :=
  bitsAt (mailHeader s) 0 16 = v ∧ bitsAt (mailHeader s) 16 16 ≤ 16352 ∧ mailHeader s / 2 ^ 32 = 0

theorem badMail_eq_false {s : State} {v : Nat} : badMail s v = false ↔ GoodMail s v := by
  simp only [badMail, GoodMail, Bool.or_eq_false_iff, bne_eq_false_iff_eq, decide_eq_false_iff_not, Nat.not_lt,
    Nat.shiftRight_eq_div_pow, and_assoc]

theorem badMail_eq_true {s : State} {v : Nat} : badMail s v = true ↔ ¬GoodMail s v := by
  rw [← badMail_eq_false, Bool.not_eq_false]

/-- The mailbox holds the request of the header read. -/
def mailAsked (s u : State) (body : List Byte) (bad : Bool) : State :=
  { u with rg := { u.rg with mail := some { seq := BitVec.ofNat 16 (bitsAt (mailHeader s) 0 16), body := body, bad := bad } } }

section
variable {s : State} {v : Nat}

theorem mailDoorbell_of_busy (h : s.rg.mail.isSome = true) : s.mailDoorbell v = s.raise (mkReport fcRgMailbox 0) := if_pos h

theorem mailDoorbell_of_free (h : s.rg.mail = none) : s.mailDoorbell v =
    (let len := bitsAt (mailHeader s) 16 16
     mailAsked s (s.winReport 0x02000000 (if badMail s v then 32 else 32 + len))
       (if badMail s v then [] else s.winRead 0x02000020 len) (badMail s v)) := if_neg (by simp [h])

theorem mailDoorbell_of_good (h : s.rg.mail = none) (hg : GoodMail s v) : s.mailDoorbell v =
    mailAsked s (s.winReport 0x02000000 (32 + bitsAt (mailHeader s) 16 16))
      (s.winRead 0x02000020 (bitsAt (mailHeader s) 16 16)) false := by
  simp [mailDoorbell_of_free h, badMail_eq_false.2 hg]

theorem mailDoorbell_of_bad (h : s.rg.mail = none) (hg : ¬GoodMail s v) :
    s.mailDoorbell v = mailAsked s (s.winReport 0x02000000 32) [] true := by
  simp [mailDoorbell_of_free h, badMail_eq_true.2 hg]

end

/-- Settles O21: the word is ignored, bad or good; a good mark is stored, and the mailbox is busy or takes the request by
its header. -/
theorem doorbellWords : Obligations.DoorbellWords := by
  refine ⟨fun t ch w s => ⟨fun ho hk hbad => ?_, fun _ hk => ?_, fun hc => ?_⟩,
    ⟨fun t ch w s ho hk hgood => ?_, marksReached_iff⟩,
    fun t w s ho hk hgood => ⟨fun hfree (hok : GoodMail (s.at_ t) _) => ?_,
      fun hfree (hbad : ¬GoodMail (s.at_ t) _) => ?_, fun hbusy => ?_⟩⟩
  · exact runs_doorbells (bell_of_bad ho hk (badWord_iff.2 hbad))
  · exact runs_doorbells (bell_of_null hk)
  · exact runs_doorbells (bell_of_closed hc)
  · exact runs_congr (runs_markDoorbell t ch w s) (bell_of_mark ho hgood hk)
  · exact runs_congr (runs_mailboxDoorbell t 0 w s) ((bell_of_mail ho hgood hk).trans (mailDoorbell_of_good hfree hok))
  · exact runs_congr (runs_mailboxDoorbell t 0 w s) ((bell_of_mail ho hgood hk).trans (mailDoorbell_of_bad hfree hbad))
  · exact runs_congr (runs_mailboxDoorbell t 0 w s) ((bell_of_mail ho hgood hk).trans (mailDoorbell_of_busy hbusy))

/-! ### Tails and heads (R128, R129, R148) -/

/-- VALUE of a doorbell word. -/
theorem ofNat_value (w : BitVec 64) : BitVec.ofNat 16 (bitsAt w.toNat 16 16) = w.extractLsb' 16 16 := by
  apply BitVec.eq_of_toNat_eq
  rw [BitVec.toNat_ofNat, Nat.mod_eq_of_lt (bitsAt_lt _ _ _), BitVec.extractLsb'_toNat]
  rfl

section
variable {s : State} {n : Nat} {w : BitVec 64}

theorem sqTail_value : s.sqTail n (bitsAt w.toNat 16 16) =
    (let value := w.extractLsb' 16 16
     let q := s.sqSt n
     if (value - q.tail).toNat = 0 then s
     else if (value - q.tail).toNat ≤ 2 ^ s.reg (Reg.rgSqCfgLog2Entries.ix n) - (q.tail - q.head).toNat then
       s.setSq n { q with tail := value, bells := q.bells ++ [(value, s.now)] }
     else (s.bump Reg.rgDbErrSqOverflow).raise (mkReport fcRgOverflow 0 n)) := by
  rw [State.sqTail, ofNat_value]
  rfl

theorem cqHead_value : s.cqHead n (bitsAt w.toNat 16 16) =
    (let value := w.extractLsb' 16 16
     let c := s.cqSt n
     if (value - c.head).toNat ≤ (c.tail - c.head).toNat then
       if (c.tail - value).toNat = 0 then
         s.setCq n { c with head := value, notifying := false, coal := 0, coalFirst := none }
       else s.setCq n { c with head := value, coal := min c.coal (c.tail - value).toNat }
     else s.raise (mkReport fcRgOverflow 0 n)) := by
  rw [State.cqHead, ofNat_value]
  simp only [apply_ite (s.setCq n)]
  rfl

end

/-- Settles O22, by where the value lies beyond the tail. -/
theorem tailDoorbell : Obligations.TailDoorbell := by
  intro t ch w s a n value q d room ho hk hgood
  have hrun := runs_congr (runs_sqTailDoorbell t ch w s) ((bell_of_tail ho hgood hk).trans sqTail_value)
  refine ⟨fun hsame => ?_, fun hnew hfits => ?_, fun hnew hover => ?_⟩
  · exact runs_congr hrun (if_pos hsame)
  · exact runs_congr hrun ((if_neg (Nat.ne_zero_of_lt hnew)).trans (if_pos hfits))
  · exact runs_congr hrun ((if_neg (Nat.ne_zero_of_lt hnew)).trans (if_neg (Nat.not_le.2 hover)))

/-- Settles O23, by whether the value passes the tail and whether records are left. -/
theorem headDoorbell : Obligations.HeadDoorbell := by
  intro t ch w s a n value c left ho hk hgood
  have hrun := runs_congr (runs_cqHeadDoorbell t ch w s) ((bell_of_head ho hgood hk).trans cqHead_value)
  refine ⟨fun hin hnone => ?_, fun hin hsome => ?_, fun hpast => ?_⟩
  · exact runs_congr hrun ((if_pos hin).trans (if_pos hnone))
  · exact runs_congr hrun ((if_pos hin).trans (if_neg hsome))
  · exact runs_congr hrun (if_neg (Nat.not_le.2 hpast))

/-! ### The arrival of descriptors (R132, R133) -/

theorem slotIs_iff {i : BitVec 16} {d : Nat} : slotIs i d = true ↔ bitsAt d 0 16 = i.toNat ∧ bitsAt d 496 16 = i.toNat := by
  simp [slotIs, dIndex, dCheck]

section
variable {s : State} {n : Nat} (hu : s.unread n = true)
include hu

theorem readSlot_of_unread : s.readSlot n =
    (let q := s.sqSt n
     let d := s.slotOf n q.head
     let u := s.winReport (s.reg (Reg.rgSqBaseBase.ix n) * 2048 +
       q.head.toNat % 2 ^ s.reg (Reg.rgSqCfgLog2Entries.ix n) * 64) 64
     if slotIs q.head d = true then u.setSq n { q.pass with accepted := some (BitVec.ofNat 512 d), wait := 0 }
     else u.setSq n { q with wait := 1 }) := by
  simp [State.readSlot, hu, State.sqSlots, Nat.shiftLeft_eq]

/-- ARRIVE_US counts from the oldest doorbell that is not wholly consumed. -/
theorem arriveLate_of_unread {v : BitVec 16} {b : Nat} {r : List (BitVec 16 × Nat)} (hb : (s.sqSt n).bells = (v, b) :: r) :
    s.arriveLate n =
      (let q := s.sqSt n
       if slotIs q.head (s.slotOf n q.head) = true ∨ s.now < b + us (s.reg Reg.rgLimitsArriveUs) then s
       else s.setSq n { q.pass with errIndex := some q.head, wait := 0 }) := by
  simp only [State.arriveLate, hb, hu, Bool.not_true, Bool.false_or, Bool.or_eq_true, decide_eq_true_eq]

end

/-- Settles O24, by whether the slot holds the descriptor of the index, and whether its time has passed. -/
theorem descriptorArrival : Obligations.DescriptorArrival := by
  intro t n s a q d b there passed hu
  have hread := runs_congr (runs_descriptorRead t n s) (readSlot_of_unread hu)
  refine ⟨fun h => ?_, fun h => ?_, fun v b r hbells => ?_⟩
  · exact runs_congr hread (if_pos (slotIs_iff.2 h))
  · exact runs_congr hread (if_neg (mt slotIs_iff.1 h))
  · have hlate := runs_congr (runs_arriveTimeout t n s) (arriveLate_of_unread hu hbells)
    refine ⟨fun h hdue => ?_, fun h => ?_⟩
    · exact runs_congr hlate (if_neg (not_or.2 ⟨mt slotIs_iff.1 h, Nat.not_lt.2 hdue⟩))
    · exact runs_congr hlate (if_pos (h.imp_left slotIs_iff.2))

/-! ### Limits of waits, and the descriptor served next (R118, R136, R137, R147) -/

section
variable {s : State} {n : Nat}

/-- A fence wait of an enabled ring, by its limit. -/
theorem fenceLate_of_wait {d : BitVec 512} {since : Nat} (ha : (s.sqSt n).accepted = some d)
    (hs : (s.sqSt n).fenceSince = some since) (hr : s.ringsRun = true) (hon : s.sqOn n = true)
    (hh : s.heldBy n d.toNat = 2) : s.fenceLate n =
      if s.reg Reg.rgLimitsFenceUs = 0 ∨ s.now ≤ since + us (s.reg Reg.rgLimitsFenceUs) then s
      else s.setSq n { s.sqSt n with fenceOut := true } := by
  simp [State.fenceLate, ha, hs, hr, hon, hh]

/-- Unfreed records of an enabled ring, by the age of the first. -/
theorem coalLate_of_records {first : Nat} (hf : (s.cqSt n).coalFirst = some first) (hon : s.cqOn n = true)
    (hc : (s.cqSt n).coal ≠ 0) : s.coalLate n =
      if s.now < first + us (s.reg (Reg.rgCqCfgCoalUs.ix n)) then s
      else s.setCq n { s.cqSt n with notifying := true } := by
  simp [State.coalLate, hf, hon, hc]

theorem admitNext_of_none (h : s.nextRing = none) : s.admitNext = s := by
  simp [State.admitNext, h]

theorem admitNext_of_some {d : BitVec 512} (hn : s.nextRing = some n) (ha : (s.sqSt n).accepted = some d) : s.admitNext =
    (let took := s.takeDesc n d.toNat
     let k := s.ticketOf n d.toNat
     if s.descBad d.toNat = true then took.complete k stBadDescriptor
     else if (s.sqSt n).fenceOut = true then took.complete k stFenceTimeout
     else took.perform k d.toNat) := by
  simp only [State.admitNext, hn, State.admitOne, ha]

end

/-- Settles O25: each limit by whether its time has passed, and the descriptor that is taken by what is wrong with it. -/
theorem ringAdmission : Obligations.RingAdmission := by
  refine ⟨fun t n s => ⟨fun d since ha hs hr hon hh => ?_, fun first hf hon hc => ?_⟩,
    fun t s => ⟨fun hnone => ?_, fun n d hn ha => ?_⟩⟩
  · have hrun := runs_congr (runs_fenceTimeout t n s) (fenceLate_of_wait ha hs hr hon hh)
    refine ⟨fun hlim hlate => ?_, fun hin => ?_⟩
    · exact runs_congr hrun (if_neg (not_or.2 ⟨hlim, Nat.not_le.2 hlate⟩))
    · exact runs_congr hrun (if_pos hin)
  · have hrun := runs_congr (runs_coalTimeout t n s) (coalLate_of_records hf hon hc)
    refine ⟨fun hdue => ?_, fun hearly => ?_⟩
    · exact runs_congr hrun (if_neg (Nat.not_lt.2 hdue))
    · exact runs_congr hrun (if_pos hearly)
  · exact runs_congr (runs_descriptorAdmission t s) (admitNext_of_none hnone)
  · have hrun := runs_congr (runs_descriptorAdmission t s) (admitNext_of_some hn ha)
    refine ⟨fun hbad => ?_, fun hgood hout => ?_, fun hgood hwaited => ?_⟩
    · exact runs_congr hrun (if_pos hbad)
    · exact runs_congr hrun ((if_neg (by simp [hgood])).trans (if_pos hout))
    · exact runs_congr hrun ((if_neg (by simp [hgood])).trans (if_neg (by simp [hwaited])))

end Sys2Proof.Proofs

/-! PROOFS. Steps and wings (05_steps_and_wings.md R157 to R190, 06_tile_arithmetic.md R221 to R225): how a share starts and
ends, decode batching, residue failures, credits and named tokens. Each operation has its equations by case here; the
statements about commands read them off. -/

namespace Sys2Proof.Proofs
open Sys2Proof Sys2Proof.Machine Sys2Proof.Laws

/-! ### Starting a share (R161, R167, R223, R611) -/

/-- The conditions under which a tile may start its share of step `i`, its named token among them (R167). -/
def CanStart (s : State) (w : Work) (t i d : Nat) : Prop :=
  w.ready i d = true ∧ s.lengthWaits w.id i = false ∧
    (hWaitEn d = true → w.batch.isSome = true ∨ hWaitToken d ∈ (s.tileSt t).tokens)

theorem canStart_iff {s : State} {w : Work} {t i d : Nat} : CanStart s w t i d ↔
    (w.ready i d && !s.lengthWaits w.id i
      && (!hWaitEn d || w.batch.isSome || (s.tileSt t).tokens.contains (hWaitToken d))) = true := by
  simp only [CanStart, Bool.and_eq_true, Bool.not_eq_true', Bool.or_eq_true, List.contains_iff_mem, and_assoc, or_assoc]
  cases hWaitEn d <;> simp

section
variable {s : State} {n t : Nat}

theorem startShare_of_rest (h : s.tileFree t = false ∨ s.current t = none) : s.startShare n t = s := by
  unfold State.startShare
  rcases h with h | h
  · simp [h]
  · simp [h]

variable {b : State} {w : Work} {r : TileRun} {d : Nat} {nx : Option Nat}
variable (hfree : s.tileFree t = true) (hcur : s.current t = some (w, r))
  (hread : runAcc s (readStep w t r.next) = (b, .ok (d, nx)))
include hfree hcur hread

theorem startShare_of_no_kind (hk : kindOf (hKind d) = none) :
    s.startShare n t = b.stopBefore s w r.next stBadStep (badDetail r.next 1) := by
  simp [State.startShare, hfree, hcur, hread, hk]

theorem startShare_of_kind {k : Kind} (hd : hKind d = n) (hk : kindOf n = some k) :
    s.startShare n t = b.enterStep k w t r.next d nx := by
  simp [State.startShare, hfree, hcur, hread, hd, hk]

end

section
variable {s u : State} {k : Kind} {w : Work} {t i d : Nat} {nx : Option Nat}

theorem enterStep_of_unread {st : Byte} {det : BitVec 32}
    (hchk : runAcc s.freshItem (k.check (s.mkCtx w t i d)) = (u, .error (.status st det))) (hok : CanStart s w t i d) :
    s.enterStep k w t i d nx = ((u.sharesOpen w t d).bookItem w.id w.id t).markShare w.id t st det := by
  simp only [State.enterStep, hchk, canStart_iff.1 hok, if_true]

variable {causes : List Nat} (hchk : runAcc s.freshItem (k.check (s.mkCtx w t i d)) = (u, .ok causes))
include hchk

theorem enterStep_of_bad {x : Nat} (hbad : lowest (headerCauses d nx ++ causes) = some x) :
    s.enterStep k w t i d nx = u.stopBefore s w i stBadStep (badDetail i x) := by
  simp only [State.enterStep, hchk, hbad]

variable (hgood : lowest (headerCauses d nx ++ causes) = none)
include hgood

theorem enterStep_of_early (hwait : ¬CanStart s w t i d) : s.enterStep k w t i d nx = s := by
  simp only [State.enterStep, hchk, hgood, Bool.eq_false_iff.2 (mt canStart_iff.2 hwait), Bool.not_false, if_true]

variable (hok : CanStart s w t i d)
include hok

theorem enterStep_of_fenced (hout : s.fenced t = true ∨ (k.bays = true ∧ s.fencedBays t = 15)) :
    s.enterStep k w t i d nx = s.each (s.parties w) fun s v =>
      s.shareRefused v.id t (((v.run? t).map fun r => r.next).getD i) stUnitFailed 0 := by
  have hout' : (s.fenced t || (k.bays && s.fencedBays t == 15)) = true := by simpa using hout
  simp only [State.enterStep, hchk, hgood, canStart_iff.1 hok, hout', Bool.not_true, Bool.false_eq_true, if_false, if_true]

variable (hin : s.fenced t = false) (hbay : ¬(k.bays = true ∧ s.fencedBays t = 15))
include hin hbay

/-- A share that may begin joins a batch, or begins. -/
theorem enterStep_of_intact {v : State}
    (hv : (if hKind d = 1 then s.joinBatch w (s.mkCtx w t i d) nx else none).getD
      (s.beginShare u k w (s.mkCtx w t i d) nx) = v) : s.enterStep k w t i d nx = v := by
  have hin' : (s.fenced t || (k.bays && s.fencedBays t == 15)) = false := by
    rw [hin, Bool.false_or, Bool.eq_false_iff]
    simpa using hbay
  simp only [State.enterStep, hchk, hgood, canStart_iff.1 hok, hin', Bool.not_true, Bool.false_eq_true, if_false]
  rw [← hv]
  cases (if hKind d = 1 then s.joinBatch w (s.mkCtx w t i d) nx else none) <;> rfl

theorem enterStep_of_joined {v : State} (hmm : hKind d = 1) (hjoin : s.joinBatch w (s.mkCtx w t i d) nx = some v) :
    s.enterStep k w t i d nx = v :=
  enterStep_of_intact hchk hgood hok hin hbay (by rw [if_pos hmm, hjoin, Option.getD_some])

theorem enterStep_of_alone (halone : hKind d ≠ 1 ∨ s.joinBatch w (s.mkCtx w t i d) nx = none) :
    s.enterStep k w t i d nx = s.beginShare u k w (s.mkCtx w t i d) nx := by
  refine enterStep_of_intact hchk hgood hok hin hbay ?_
  rcases halone with h | h
  · rw [if_neg h, Option.getD_none]
  · rw [h, ite_self, Option.getD_none]

end

/-- Every step command runs `State.startShare` with the KIND of its own step kind (R160). -/
theorem eachStepCommand {t : Nat} {tile : Fin 16} {s : State} {p : Instr → Nat → Kind → Prop}
    (h : ∀ i n k, Runs i s ((s.at_ t).startShare n tile) → kindOf n = some k → p i n k) :
    p (.matmul t tile none) 0x01 matmulKind ∧ p (.conv t tile none) 0x02 convKind ∧ p (.dwconv t tile) 0x03 dwconvKind ∧
    p (.vector t tile) 0x04 vectorKind ∧ p (.attention t tile) 0x05 attKind ∧ p (.scan t tile) 0x06 scanKind ∧
    p (.pool t tile) 0x07 poolKind ∧ p (.cropResize t tile) 0x08 cropKind ∧ p (.resample t tile) 0x09 resampleKind ∧
    p (.gather t tile) 0x0A gatherKind ∧ p (.copy t tile) 0x0B copyKind ∧ p (.migrate t tile) 0x0C migrateKind ∧
    p (.sync t tile) 0x0D syncKind :=
  ⟨h _ _ _ (runs_matmul t tile none s) rfl, h _ _ _ (runs_conv t tile none s) rfl, h _ _ _ (runs_dwconv t tile s) rfl,
    h _ _ _ (runs_vector t tile s) rfl, h _ _ _ (runs_attention t tile s) rfl, h _ _ _ (runs_scan t tile s) rfl,
    h _ _ _ (runs_pool t tile s) rfl, h _ _ _ (runs_cropResize t tile s) rfl, h _ _ _ (runs_resample t tile s) rfl,
    h _ _ _ (runs_gather t tile s) rfl, h _ _ _ (runs_copy t tile s) rfl, h _ _ _ (runs_migrate t tile s) rfl,
    h _ _ _ (runs_sync t tile s) rfl⟩

/-- Settles O31: every step command starts its tile's share in one way, by the step that is read and its checks. -/
theorem stepSharesStart : Obligations.StepSharesStart := by
  intro t tile s a each
  refine ⟨eachStepCommand fun i n k hrun _ hrest => runs_congr hrun (startShare_of_rest hrest), ?_⟩
  intro b w r d nx c ready refused begins hfree hcur hread
  refine eachStepCommand (t := t) (tile := tile) (s := s) fun i n k hrun hk =>
    ⟨fun hnone => ?_, fun hd u st det hchk hready => ?_, fun hd u causes hchk => ?_⟩
  · exact runs_congr hrun (startShare_of_no_kind hfree hcur hread hnone)
  · exact runs_congr hrun ((startShare_of_kind hfree hcur hread hd hk).trans (enterStep_of_unread hchk hready))
  · have henter := runs_congr hrun (startShare_of_kind hfree hcur hread hd hk)
    exact ⟨fun x hbad => runs_congr henter (enterStep_of_bad hchk hbad),
      fun hgood hwait => runs_congr henter (enterStep_of_early hchk hgood hwait),
      fun hgood hready hout => runs_congr henter (enterStep_of_fenced hchk hgood hready hout),
      fun hgood hready hin hbay =>
        ⟨fun hmm v hjoin => runs_congr henter (enterStep_of_joined hchk hgood hready hin hbay hmm hjoin),
          fun halone => runs_congr henter (enterStep_of_alone hchk hgood hready hin hbay halone)⟩⟩

/-! ### The checks of a COPY whose output is handed off (R161, R162, R170) -/

/-- A COPY that hands its output off writes no destination of its own: its ranges are not compared. -/
theorem copyCheck_of_hands {c : Ctx} (h : c.hands = true) (s : State) : runAcc s (copyCheck c) = (s, .ok
    ((if onlyFields c.d [(64, 48), (128, 48), (192, 32)] then [] else [1]) ++
      cause2 (c.f 192 32 == 0 || c.f 192 32 % 64 != 0) ++ c.inputCauses (c.f 192 32) 64)) := by
  have hrun : runAcc s (copyCheck c) = (s, .ok
      ((if onlyFields c.d [(64, 48), (128, 48), (192, 32)] then [] else [1]) ++
        cause2 (c.f 192 32 == 0 || c.f 192 32 % 64 != 0 || (c.handIn.isNone && !c.hands &&
          decide (c.f 64 48 < c.f 128 48 + c.f 192 32) && decide (c.f 128 48 < c.f 64 48 + c.f 192 32))) ++
        c.inputCauses (c.f 192 32) 64 ++ c.outputCauses (c.f 128 48) (c.f 192 32) 64)) := rfl
  rw [hrun]
  simp [h, Ctx.outputCauses]

/-- A list of two steps, none of them divided yet. -/
def freshList : Work :=
  { id := 0, cls := .tick, wing := 0, src := .ring (State.reset.ticketOf 0 0), dva := 0, count := 2, target := 0,
    admTime := 0, phase := .running, tiles := [{ tile := 0 }] }

/-- What tile 0 knows of its first step, a COPY of 64 bytes onto themselves with OUT_SLOTS 2, as it checks the step. -/
def selfCopy : Ctx := State.reset.mkCtx freshList 0 0 (0x0B + 2 <<< 16 + 64 <<< 192)

theorem copyCheck_selfCopy (s : State) : runAcc s (copyCheck selfCopy) = (s, .ok []) := by
  rw [copyCheck_of_hands (by decide)]
  have hcauses : (if onlyFields selfCopy.d [(64, 48), (128, 48), (192, 32)] then [] else [1]) ++
      cause2 (selfCopy.f 192 32 == 0 || selfCopy.f 192 32 % 64 != 0) ++ selfCopy.inputCauses (selfCopy.f 192 32) 64 = [] := by
    decide +kernel
  rw [hcauses]

/-- Refutes O32: a COPY with OUT_SLOTS that the model checks before its hand-off is planned has overlapping ranges and no
cause 2, since its output goes to the next step and not to its destination. -/
theorem not_sharesRun : ¬Obligations.SharesRun := by
  rintro ⟨-, -, hcopy, -⟩
  obtain ⟨-, hoverlap⟩ := hcopy State.reset selfCopy [] (copyCheck_selfCopy _)
  exact absurd (hoverlap rfl rfl (by decide +kernel) (by decide +kernel)) List.not_mem_nil

/-! ### Decode batching (R187 to R189) -/

/-- The list's step can take part in a batch (R187). -/
def Batchable (s : State) (w : Work) (d : Nat) : Prop :=
  hBatch d ≠ 0 ∧ w.cls ≠ .urgent ∧ s.flag (Reg.spBatchEnable.ix w.wing) = true ∧ w.batch = none

/-- Every tile of the list has come to step `i` and holds its named token (R188). -/
def AllArrived (s : State) (w : Work) (i d : Nat) : Prop :=
  ∀ r ∈ w.tiles, r.next = i ∧ r.busy = false ∧ (hWaitEn d = true → hWaitToken d ∈ (s.tileSt r.tile).tokens)

theorem batchable_iff {s : State} {w : Work} {d : Nat} : Batchable s w d ↔
    (decide (hBatch d = 0) || w.cls == .urgent || !s.flag (Reg.spBatchEnable.ix w.wing) || w.batch.isSome) = false := by
  simp only [Batchable, Bool.or_eq_false_iff, decide_eq_false_iff_not, beq_eq_false_iff_ne, Bool.not_eq_false',
    Option.isSome_eq_false_iff, Option.isNone_iff_eq_none, and_assoc, ne_eq]

theorem allArrived_iff {s : State} {w : Work} {i d : Nat} : AllArrived s w i d ↔
    (w.tiles.all fun r => r.next == i && !r.busy
      && (!hWaitEn d || (s.tileSt r.tile).tokens.contains (hWaitToken d))) = true := by
  simp only [AllArrived, List.all_eq_true, Bool.and_eq_true, beq_iff_eq, Bool.not_eq_true', Bool.or_eq_true,
    List.contains_iff_mem, and_assoc]
  cases hWaitEn d <;> simp

section
variable {s : State} {w : Work} {c : Ctx} {nx : Option Nat}

theorem joinBatch_of_not_batchable (h : ¬Batchable s w c.d) : s.joinBatch w c nx = none :=
  if_pos (Bool.not_eq_false _ ▸ mt batchable_iff.2 h)

variable (h : Batchable s w c.d)
include h

theorem joinBatch_of_waiting (hwait : ¬AllArrived s w c.idx c.d) : s.joinBatch w c nx = some s :=
  (if_neg (Bool.eq_false_iff.1 (batchable_iff.1 h))).trans
    (if_pos (by rw [Bool.eq_false_iff.2 (mt allArrived_iff.2 hwait), Bool.not_false]))

theorem joinBatch_of_arrived (hall : AllArrived s w c.idx c.d) {u : State}
    (hplan : runAcc s (planStep matmulKind c nx) = (u, .ok ())) :
    s.joinBatch w c nx = u.enterBatch w (batchKey c.d) (mmM c.d) := by
  refine (if_neg (Bool.eq_false_iff.1 (batchable_iff.1 h))).trans ((if_neg ?_).trans ?_)
  · rw [allArrived_iff.1 hall]
    decide
  · rw [hplan]

end

section
variable {s : State} {w : Work} {key : List Nat} {rows : Nat}

/-- The open batch of the list's wing and class that has a key. -/
def openBatch (s : State) (w : Work) (key : List Nat) : Option Batch :=
  (s.openBatches w.wing).find? fun b => b.cls == w.cls && b.key == key

theorem enterBatch_of_fits {b : Batch} (hb : openBatch s w key = some b) (hfit : b.rows + rows ≤ 64) :
    s.enterBatch w key rows = some ((({ s with wk := { s.wk with batches := s.wk.batches.map fun (x : Batch) =>
      if x.id = b.id then { x with rows := x.rows + rows, members := x.members ++ [w.id] } else x } }).parkIn w.id
        b.id).releaseFull w) := by
  rw [openBatch] at hb
  simp [State.enterBatch, hb, Nat.not_lt.2 hfit]

theorem enterBatch_of_overfull {b : Batch} (hb : openBatch s w key = some b) (hover : 64 < b.rows + rows)
    (hroom : ((s.releaseBatch b.id).openBatches w.wing).length < 16) :
    s.enterBatch w key rows = some (((s.releaseBatch b.id).newBatch w key rows).releaseFull w) := by
  rw [openBatch] at hb
  simp [State.enterBatch, hb, hover, hroom]

variable (hb : openBatch s w key = none)
include hb

theorem enterBatch_of_room (hroom : (s.openBatches w.wing).length < 16) :
    s.enterBatch w key rows = some ((s.newBatch w key rows).releaseFull w) := by
  rw [openBatch] at hb
  simp [State.enterBatch, hb, hroom]

theorem enterBatch_of_no_room (hfull : 16 ≤ (s.openBatches w.wing).length) : s.enterBatch w key rows = none := by
  rw [openBatch] at hb
  simp [State.enterBatch, hb, hfull]

end

/-! ### Residue failures (R221 to R225) -/

section
variable {s : State} {n t : Nat} {bay : Fin 4} {row : Fin 66}

theorem bayStep_of_not_started (h : s.tileBusy t = true ∨ (s.startShare n t).runningOn t = none) :
    s.bayStep n t (some (bay, row)) = s.startShare n t := by
  rcases h with h | h
  · simp only [State.bayStep, h, if_true]
    split <;> rfl
  · simp only [State.bayStep, h]

variable {w : Work} {r : TileRun} {p : StepPlan}
variable (hidle : s.tileBusy t = false) (hrun : (s.startShare n t).runningOn t = some (w, r)) (hp : w.plan? r.next = some p)
include hidle hrun hp

theorem bayStep_of_started : s.bayStep n t (some (bay, row)) =
    (let u := s.startShare n t
     let v := { u with free := u.free + 1 }
     let f := bayFields p.desc.toNat
     if f.af.isInt = true ∧ f.bf.isInt = true then
       (v.shareGo w.id t (Config.freeNat u.free % (v.workLeft + 1))).residueFail t bay row w.id
     else u) := by
  simp only [State.bayStep, hrun, hidle, hp, Bool.false_eq_true, if_false, Bool.and_eq_true, State.fresh]

end

/-- A residue check has failed in the share of list `id` on a tile, and its bay counts it (R222). -/
def residueCounted (s : State) (t bay id : Nat) : State :=
  (s.mapWork id fun w => w.mapTile t fun r => { r with broken := true }).bump
    (Reg.bySpareResidueErr.ix t |>.up (8 * bay))

theorem residueFail_of_fenced {s : State} {t bay row id : Nat} (h : (s.fencedBays t).testBit bay = true) :
    s.residueFail t bay row id = s := if_pos h

theorem residueFail_of_intact {s : State} {t bay row id : Nat} (h : (s.fencedBays t).testBit bay = false) :
    s.residueFail t bay row id =
      (residueCounted s t bay id).laneRowFailed ((residueCounted s t bay id).ptile t) bay row 3 :=
  if_neg (Bool.eq_false_iff.1 h)

/-- Counting a residue failure moves no tile to another P-tile. -/
theorem residueCounted_ptile (s : State) (t id : Nat) (bay : Fin 4) : (residueCounted s t bay id).ptile t = s.ptile t := by
  have hbay := bay.isLt
  refine reg_setReg_other _ _ _ _ ?_ (.inl ?_)
  · show 4 + 8 * bay.val + 4 ≤ 32
    omega
  · show 0xa040 + t * 4 ≠ 0xb000 + t * 4
    omega

/-- A lane row of a tile in use, in a bay with a spare row left (R224). -/
theorem laneRowFailed_of_spare {s : State} {p t bay row source : Nat} (ht : s.logicalOf p = some t)
    (hspare : s.reg (Reg.bySpareSparesUsed.ix t |>.up (8 * bay)) ≠ 2) : s.laneRowFailed p bay row source =
    (let named := s.flash.rowOf p bay row
     let fence := (s.setReg (Reg.tlMapBayFenced.ix t) (s.reg (Reg.tlMapBayFenced.ix t) ||| 1 <<< bay)).setFlag
       (Reg.bySpareRepairPending.ix t |>.up (8 * bay)) true
     ((fence.ledger (rowRepair (p, bay, named) source) fun x => { x with bayRows := x.bayRows ++ [(p, bay, named)] }).raise
       (mkReport fcTileFailed 1 (tileUnit p bay named) 0 true)).repairMdr (!s.flag Reg.fbLedgerFull)) := by
  simp only [State.laneRowFailed, ht, if_neg hspare]

/-- The commands of the bays with a residue failure. -/
theorem eachBayCommand {t : Nat} {tile : Fin 16} {bay : Fin 4} {row : Fin 66} {s : State} {p : Instr → Nat → Prop}
    (h : ∀ i n, Runs i s ((s.at_ t).bayStep n tile (some (bay, row))) → p i n) :
    p (.matmul t tile (some (bay, row))) 1 ∧ p (.conv t tile (some (bay, row))) 2 :=
  ⟨h _ _ (runs_matmul t tile (some (bay, row)) s), h _ _ (runs_conv t tile (some (bay, row)) s)⟩

/-- Settles O33: batches by what the list's step may join, residue failures by whether the share has begun, its operands'
formats and the state of its bay. -/
theorem batchesAndResidues : Obligations.BatchesAndResidues := by
  refine ⟨fun s w c nx key rows => ?_, fun t tile bay row s => ?_⟩
  · intro batched here same joined opens
    exact ⟨joinBatch_of_not_batchable, fun hb hwait => joinBatch_of_waiting hb hwait,
      fun hb hall u hplan => joinBatch_of_arrived hb hall hplan, fun b hb hfit => enterBatch_of_fits hb hfit,
      fun b hb hover hroom => enterBatch_of_overfull hb hover hroom, fun hb hroom => enterBatch_of_room hb hroom,
      fun hb hfull => enterBatch_of_no_room hb hfull⟩
  · intro a fails
    have hfails : ∀ i n, Runs i s (a.bayStep n tile (some (bay, row))) → fails i n := by
      intro i n hrun
      refine ⟨fun hquiet => runs_congr hrun (bayStep_of_not_started hquiet), fun hidle w r p hw hp => ?_⟩
      have hstarted := runs_congr hrun (bayStep_of_started hidle hw hp)
      exact ⟨fun hfloat => runs_congr hstarted (if_neg hfloat), fun hints => runs_congr hstarted (if_pos hints)⟩
    obtain ⟨hmatmul, hconv⟩ := eachBayCommand hfails
    refine ⟨hmatmul, hconv, fun u id p => ?_⟩
    intro failed fence named
    refine ⟨residueFail_of_fenced, fun hintact hp ht hspare => ?_⟩
    rw [residueFail_of_intact hintact, residueCounted_ptile, hp]
    exact laneRowFailed_of_spare ht hspare

/-! ### The end of a share (R167, R172, R176) -/

/-- The list has stopped at the share's step or before it, and the share can run no further item (R176). -/
def isStuck (s : State) (w : Work) (r : TileRun) : Bool :=
  (w.halt.any fun h => h.1 ≤ r.next + 1) && (s.nextItem w r).isNone

theorem isStuck_iff {s : State} {w : Work} {r : TileRun} : isStuck s w r = true ↔
    (∃ h, w.halt = some h ∧ h.1 ≤ r.next + 1) ∧ (s.nextItem w r).isNone = true := by
  simp only [isStuck, Bool.and_eq_true, Option.any_eq_true, decide_eq_true_eq]

section
variable {s : State} {t : Nat}

theorem shareDone_of_idle (h : s.runningOn t = none) : s.shareDone t = s := by
  simp only [State.shareDone, h]

variable {w : Work} {r : TileRun} {st : Byte} {det : BitVec 32}
variable (hrun : s.runningOn t = some (w, r)) (hend : s.shareEnd w r = (st, det))
include hrun hend

theorem shareDone_of_scanning (hscan : s.scanFinished w.id t = false) : s.shareDone t = s := by
  simp only [State.shareDone, hrun, hend, hscan, Bool.not_false, if_true]

variable (hscan : s.scanFinished w.id t = true)
include hscan

theorem shareDone_of_failed (hst : st ≠ stOk) : s.shareDone t = (s.shareOver w t st det).getD s := by
  simp [State.shareDone, hrun, hend, hscan, hst]

variable (hst : st = stOk)
include hst

theorem shareDone_of_dropped (hdrop : isStuck s w r = true ∧ w.bound ≤ r.next) :
    s.shareDone t = (s.discardShare w.id r).dropMigrates := by
  rw [isStuck] at hdrop
  simp [State.shareDone, hrun, hend, hscan, hst, hdrop]

/-- A share that has not failed and is not dropped waits for its reads, moves and items, or completes. -/
theorem shareDone_of_kept (hkept : ¬(isStuck s w r = true ∧ w.bound ≤ r.next)) : s.shareDone t =
    if (s.migrating w.id t = true ∨ r.reads + r.unissued ≠ 0) ∨ ¬(s.itemsDone w t = true ∨ isStuck s w r = true) then s
    else (s.shareOver w t stOk 0).getD s := by
  have hneg : ¬(isStuck s w r && decide (w.bound ≤ r.next)) = true := by simpa using hkept
  have hwait : (s.migrating w.id t || decide (0 < r.reads + r.unissued) || !(s.itemsDone w t || isStuck s w r)) = true ↔
      (s.migrating w.id t = true ∨ r.reads + r.unissued ≠ 0) ∨ ¬(s.itemsDone w t = true ∨ isStuck s w r = true) := by
    rw [Bool.or_eq_true, Bool.or_eq_true, Bool.not_eq_true', ← Bool.not_eq_true, Bool.or_eq_true, decide_eq_true_eq,
      Nat.pos_iff_ne_zero]
  simp only [isStuck] at hneg hwait ⊢
  simp only [State.shareDone, hrun, hend, hscan, hst, hneg, Bool.not_true, bne_self_eq_false, Bool.false_eq_true, if_false]
  exact if_congr hwait rfl rfl

end

/-- The end of a share that no other list is batched with. -/
theorem shareOver_of_alone {s u : State} {w : Work} {t : Nat} {r : TileRun} {st : Byte} {det : BitVec 32}
    (hmates : s.mates w = []) (hr : w.run? t = some r)
    (hu : ((if st = stOk then s.shareOk w r else s.shareBad w r st det).forgetRemote t).advance w.id t (w.count + 1)
      = some u) : s.shareOver w t st det = some (u.listDone w.id).unpark.dropMigrates := by
  simp [State.shareOver, State.parties, hmates, State.each, hr, hu]

/-! ### What the end of a share leaves -/

theorem mem_mapWork {s : State} {id : Nat} {f : Work → Work} {x : Work} (hx : x ∈ (s.mapWork id f).wk.works)
    (h : x.id = id) : ∃ v ∈ s.wk.works, v.id = id ∧ f v = x := by
  obtain ⟨v, hv, rfl⟩ := List.mem_map.1 hx
  split at h
  · exact ⟨v, hv, ‹_›, (if_pos ‹_›).symm⟩
  · exact absurd h ‹_›

theorem mem_mapTile {w : Work} {t : Nat} {f : TileRun → TileRun} {y : TileRun} (hy : y ∈ (w.mapTile t f).tiles)
    (h : y.tile = t) : ∃ z ∈ w.tiles, z.tile = t ∧ f z = y := by
  obtain ⟨z, hz, rfl⟩ := List.mem_map.1 hy
  split at h
  · exact ⟨z, hz, ‹_›, (if_pos ‹_›).symm⟩
  · exact absurd h ‹_›

@[simp] theorem emit_works (s : State) (w : Work) (t i tok : Nat) : (s.emit w t i tok).wk.works = s.wk.works := by
  simp only [State.emit]
  split <;> rfl

@[simp] theorem dropShare_works (s : State) (id t : Nat) : (s.dropShare id t).wk.works = s.wk.works := rfl

/-- A tile whose share has ended with OK: it stands at the next step. -/
def passed (r : TileRun) : TileRun :=
  { r with next := r.next + 1, busy := false, stop := false, undo := [], out := [], held := none, pages := [], lines := [],
           emit := none }

theorem shareOk_works (s : State) (w : Work) (r : TileRun) :
    (s.shareOk w r).wk.works = (s.mapWork w.id fun v => v.mapTile r.tile passed).wk.works := by
  unfold State.shareOk
  cases r.emit with
  | none => rfl
  | some tok =>
    simp only [State.mapWork, dropShare_works, emit_works]
    rfl

/-- A tile whose share has ended with OK stands at the step after the one it had. -/
theorem shareOk_passed {s : State} {w : Work} {r y : TileRun} {x : Work} (hx : x ∈ (s.shareOk w r).wk.works)
    (hid : x.id = w.id) (hy : y ∈ x.tiles) (ht : y.tile = r.tile) :
    ∃ v ∈ s.wk.works, v.id = w.id ∧ ∃ z ∈ v.tiles, z.tile = r.tile ∧ passed z = y := by
  rw [shareOk_works] at hx
  obtain ⟨v, hv, hvid, rfl⟩ := mem_mapWork hx hid
  exact ⟨v, hv, hvid, mem_mapTile hy ht⟩

/-- A list that did not halt only after `bound` had halted by it. -/
theorem halt_of_not_all {w : Work} {bound : Nat} (h : ¬(w.halt.all fun h => bound < h.1) = true) :
    ∃ h, w.halt = some h ∧ h.1 ≤ bound := by
  cases hw : w.halt with
  | none => simp [hw] at h
  | some x => exact ⟨x, rfl, by simpa [hw] using h⟩

theorem fail_halt (w : Work) (bound : Nat) (st : Byte) (det : BitVec 32) :
    ∃ h, (w.fail_ bound st det).halt = some h ∧ h.1 ≤ bound := by
  unfold Work.fail_
  split
  · exact ⟨_, rfl, le_rfl⟩
  · exact halt_of_not_all ‹_›

theorem failItem_halt (w : Work) (bound idx : Nat) (st : Byte) (det : BitVec 32) :
    ∃ h, (w.failItem bound idx st det).halt = some h ∧ h.1 ≤ bound := by
  unfold Work.failItem
  dsimp only
  split
  next => exact ⟨_, rfl, le_rfl⟩
  next hno => exact halt_of_not_all fun hfirst => hno (by rw [hfirst, Bool.true_or])

theorem shareBad_halts {s : State} {w : Work} {r : TileRun} {st : Byte} {det : BitVec 32} {x : Work}
    (hx : x ∈ (s.shareBad w r st det).wk.works) (hid : x.id = w.id) : ∃ h, x.halt = some h ∧ h.1 ≤ r.next + 1 := by
  unfold State.shareBad at hx
  cases hitem : (s.scanShare w.id r.tile).bind fun sh => sh.failed with
  | none =>
    rw [hitem] at hx
    obtain ⟨v, -, -, rfl⟩ := mem_mapWork hx hid
    exact fail_halt _ _ _ _
  | some item =>
    rw [hitem] at hx
    obtain ⟨v, -, -, rfl⟩ := mem_mapWork hx hid
    exact failItem_halt _ _ _ _ _

/-! ### Slab credits, read credits and quanta (R170, R177 to R181) -/

theorem exists_of_slabUsed {w : Work} {h : HandOff} {x : HandTile} (hu : w.slabUsed h x = true) :
    ∃ k p, x.slabs[x.freed]? = some k ∧ w.plan? h.step = some p ∧ p.complete (k, k) = true ∧
      w.delivered h x.tile (k, k) = true := by
  unfold Work.slabUsed at hu
  split at hu
  next k p r hk hp _ =>
    simp only [Bool.and_eq_true] at hu
    obtain ⟨⟨⟨-, hcomplete⟩, hdelivered⟩, -⟩ := hu
    exact ⟨k, p, hk, hp, hcomplete, hdelivered⟩
  next => exact absurd hu (by decide)

/-- The first hand-off, in admission order, of whose slabs the tile has finished with one. -/
def usedHand (s : State) (t : Nat) : Option (Nat × Nat) :=
  s.wk.works.findSome? fun w => w.hands.findSome? fun h =>
    match h.tile? t with
    | some x => if w.slabUsed h x then some (w.id, h.step) else none
    | none => none

/-- The tile has finished with one more slab of the hand-off of step `i` of a list (R170). -/
def freeSlab (s : State) (t id i : Nat) : State :=
  s.mapWork id fun w => { w with hands := w.hands.map fun (h : HandOff) =>
    if h.step = i then
      { h with tiles := h.tiles.map fun (x : HandTile) => if x.tile = t then { x with freed := x.freed + 1 } else x }
    else h }

section
variable {s : State} {t : Nat}

theorem slabReturns_eq (s : State) (t : Nat) : s.slabReturns t =
    match usedHand s t with
    | none => s
    | some (id, i) => freeSlab s t id i := rfl

theorem slabReturns_of_none (h : usedHand s t = none) : s.slabReturns t = s := by
  rw [slabReturns_eq, h]

theorem slabReturns_of_some {id i : Nat} (h : usedHand s t = some (id, i)) : s.slabReturns t = freeSlab s t id i := by
  rw [slabReturns_eq, h]

/-- The effect of a returned read's check on the counts and reports (R299). -/
def countEcc (s : State) (loc : MemLoc) : Ecc → State
  | .ok => s
  | .corrected => s.countCorr loc
  | .uncorrectable => s.hitUncorr loc

variable {loc : MemLoc} {page : Nat × Nat} {ecc : Ecc}

theorem readReturns_of_no_page (h : pageOf loc = none) : s.readReturns t loc ecc = s := by
  simp only [State.readReturns, h]

variable (hp : pageOf loc = some page)
include hp

theorem readReturns_of_reader {w : Work} {r : TileRun} {dva : Nat} (hr : s.readerOf t page = some (w, r, dva)) :
    s.readReturns t loc ecc =
      (let back := s.mapWork w.id fun w => w.mapTile t fun (r : TileRun) =>
         { r with reads := r.reads - 1, pages := if r.reads + r.unissued ≤ 1 then [] else r.pages }
       let u := (countEcc back loc ecc).issueReads t
       if ecc = .uncorrectable then u.markShare w.id r.tile stUncorrectable (pageDetail (dva * 65536)) else u) := by
  cases ecc <;> simp only [State.readReturns, hp, hr] <;> rfl

variable (hr : s.readerOf t page = none)
include hr

theorem readReturns_of_orphan {u : State} (ho : s.orphanReturns t page = some u) :
    s.readReturns t loc ecc = (countEcc u loc ecc).issueReads t := by
  cases ecc <;> simp only [State.readReturns, hp, hr, ho] <;> rfl

theorem readReturns_of_nobody (ho : s.orphanReturns t page = none) : s.readReturns t loc ecc = s := by
  simp only [State.readReturns, hp, hr, ho]

end

section
variable {s : State} {t : Nat}

theorem quantumOver_of_idle (h : s.runningOn t = none) : s.quantumOver t = s := by
  simp only [State.quantumOver, h]

variable {w : Work} {r : TileRun} (hrun : s.runningOn t = some (w, r))
include hrun

theorem quantumOver_of_unasked (hstop : r.stop = false) : s.quantumOver t = s := by
  simp only [State.quantumOver, hrun, hstop, Bool.not_false, if_true]

variable (hstop : r.stop = true)
include hstop

theorem quantumOver_of_ending (hend : w.ending.isSome = true) : s.quantumOver t = s.discardShare w.id r := by
  simp [State.quantumOver, hrun, hstop, hend]

theorem quantumOver_of_kept (hend : w.ending = none) : s.quantumOver t =
    (let b := { s with free := s.free + 1 }
     let ts := b.tileSt t
     let ctx : Spill := { work := w.id, key := s.free }
     (b.setTileSt t { ts with bgCtx := if w.cls = .background then some ctx else ts.bgCtx,
                              tickCtx := if w.cls = .tick then some ctx else ts.tickCtx }).mapWork w.id fun w =>
       w.mapTile t fun r => { r with busy := false, stop := false, spilled := true }) := by
  simp [State.quantumOver, hrun, hstop, hend, State.fresh]

end

/-! ### Named tokens (R172, R175) -/

/-- The oldest emission of a token that every tile of its wing has made and that has not reached the tile. -/
def nextEmission (s : State) (t tok : Nat) : Option Nat :=
  s.wk.emissions.findIdx? fun e => e.token == tok && e.to_.contains t && e.need.all fun x => e.from_.contains x

/-- Emission `k` has reached the tile; `late`: it found the token set. -/
def emissionReached (s : State) (t k : Nat) (late : Bool) : State :=
  { s with wk := { s.wk with emissions :=
    (s.wk.emissions.zipIdx.map fun (e, j) => if j = k then
      ({ e with to_ := e.to_.filter (· != t), noted := e.noted || late } : Emission) else e).filter fun e =>
        !e.to_.isEmpty } }

section
variable {s : State} {t tok : Nat}

theorem tokenArrives_of_none (h : nextEmission s t tok = none) : s.tokenArrives t tok = s := by
  rw [nextEmission] at h
  simp only [State.tokenArrives, h]

variable {k : Nat} (h : nextEmission s t tok = some k)
include h

theorem tokenArrives_of_clear (hclear : tok ∉ (s.tileSt t).tokens) : s.tokenArrives t tok =
    (emissionReached s t k false).setTileSt t
      { s.tileSt t with tokens := sins (s.tileSt t).tokens tok } := by
  rw [nextEmission] at h
  have hno : (s.tileSt t).tokens.contains tok = false := by simpa using hclear
  simp only [State.tokenArrives, h, hno, Bool.false_eq_true, if_false]
  rfl

theorem tokenArrives_of_set {e : Emission} (hset : tok ∈ (s.tileSt t).tokens) (he : s.wk.emissions[k]? = some e) :
    s.tokenArrives t tok =
      if e.noted = false then (emissionReached s t k true).note fcSpToken else emissionReached s t k true := by
  rw [nextEmission] at h
  have hyes : (s.tileSt t).tokens.contains tok = true := by simpa using hset
  simp only [State.tokenArrives, h, hyes, he, Option.any_some, Bool.true_and, Bool.not_eq_true', if_true]
  rfl

end

/-- Settles O34: the share's end, the credits, the quantum and the tokens, each by its cases. -/
theorem sharesEnd : Obligations.SharesEnd := by
  refine ⟨fun t tile s => ?_, fun s w r => ⟨?_, ?_⟩, fun t tile loc s => ?_, fun t tile tok wing s => ?_⟩
  · intro a i
    have hrun := runs_stepShareComplete t tile s
    refine ⟨fun hidle => runs_congr hrun (shareDone_of_idle hidle), fun w r st det hw hend => ?_,
      fun x u w r st det hmates hr hu => shareOver_of_alone hmates hr hu⟩
    intro waits stuck
    refine ⟨fun hscan => runs_congr hrun (shareDone_of_scanning hw hend hscan), fun hscan =>
      ⟨fun hst u hu => ?_, fun hst hstuck hbound => ?_, fun hst hin hwait => ?_, fun hst hin hnone hdone => ?_⟩⟩
    · exact runs_congr hrun ((shareDone_of_failed hw hend hscan hst).trans (by rw [hu, Option.getD_some]))
    · exact runs_congr hrun (shareDone_of_dropped hw hend hscan hst ⟨isStuck_iff.2 hstuck, hbound⟩)
    all_goals
      rw [← show isStuck a w r = true ↔ stuck from isStuck_iff] at hin
      have hkept := runs_congr hrun (shareDone_of_kept hw hend hscan hst hin)
    · exact runs_congr hkept (if_pos (hwait.imp_right fun h => not_or.2 ⟨Bool.eq_false_iff.1 h.1, mt isStuck_iff.1 h.2⟩))
    · have hover := runs_congr hkept (if_neg (not_or.2 ⟨hnone, not_not.2 (hdone.imp_right isStuck_iff.2)⟩))
      exact ⟨fun u hu => runs_congr hover (by rw [hu, Option.getD_some]),
        fun hheld => runs_congr hover (by rw [hheld, Option.getD_none])⟩
  · intro x hx hid y hy ht
    obtain ⟨v, hv, hvid, z, hz, hzt, rfl⟩ := shareOk_passed hx hid hy ht
    exact ⟨rfl, rfl, rfl, rfl, rfl, v, hv, hvid, z, hz, hzt, rfl⟩
  · exact fun st det x hx hid => shareBad_halts hx hid
  · intro a first
    have hslab := runs_slabCreditReturn t tile s
    have hread := fun ecc => runs_readCreditReturn t tile loc ecc s
    have hquantum := runs_quantumEnd t tile s
    refine ⟨fun hnone => runs_congr hslab (slabReturns_of_none hnone),
      fun id i hfirst => runs_congr hslab (slabReturns_of_some hfirst), fun w h x => exists_of_slabUsed,
      fun ecc hno => runs_congr (hread ecc) (readReturns_of_no_page hno), fun page hp => ⟨fun w r dva hr => ?_,
        fun hr b ho => ?_, fun hr ho ecc => runs_congr (hread ecc) (readReturns_of_nobody hp hr ho)⟩,
      fun hidle => runs_congr hquantum (quantumOver_of_idle hidle), fun w r hw => ?_⟩
    · have hback := fun ecc => runs_congr (hread ecc) (readReturns_of_reader hp hr)
      exact ⟨hback .ok, hback .corrected, hback .uncorrectable⟩
    · have hback := fun ecc => runs_congr (hread ecc) (readReturns_of_orphan hp hr ho)
      exact ⟨hback .ok, hback .corrected, hback .uncorrectable⟩
    · exact ⟨fun hgo => runs_congr hquantum (quantumOver_of_unasked hw hgo),
        fun hstop hend => runs_congr hquantum (quantumOver_of_ending hw hstop hend),
        fun hstop hend => runs_congr hquantum (quantumOver_of_kept hw hstop hend)⟩
  · intro a comes ts lim again reached
    have htoken := runs_namedTokenArrival t tile tok s
    have htimeout := runs_tokenTimeout t tile s
    refine ⟨fun hnone => runs_congr htoken (tokenArrives_of_none hnone), fun k e hk he => ⟨fun hclear => ?_,
      fun hset hfresh => ?_, fun hset hnoted => ?_⟩, fun hlim => runs_congr htimeout (if_pos hlim),
      fun hlim => runs_congr htimeout (if_neg hlim), runs_batchDeadline t wing s⟩
    · exact runs_congr htoken (tokenArrives_of_clear hk hclear)
    · exact runs_congr htoken ((tokenArrives_of_set hk hset he).trans (if_pos hfresh))
    · exact runs_congr htoken ((tokenArrives_of_set hk hset he).trans (if_neg (by simp [hnoted])))

end Sys2Proof.Proofs

/-! PROOFS. Formats and scaling (07_formats_and_scaling.md R229 to R250): what a code of each kind of format decodes to, and
what the value it stands for rounds and converts back to. -/

namespace Sys2Proof.Proofs
open Sys2Proof Sys2Proof.Machine Sys2Proof.Laws

/-! ### Magnitude codes (R229, R243) -/

/-- The exponent of the subnormal numbers of a layout, the smallest that its codes can hold. -/
def minExp (sp : FloatSpec) : Int := 1 - (sp.bias : Int) - (sp.mant : Int)

section
variable {sp : FloatSpec} {m code : Nat} {e : Int}

theorem codeValue_of_subnormal (neg : Bool) (h : code < 2 ^ sp.mant) : codeValue sp neg code = .fin neg code (minExp sp) := by
  simp [codeValue, minExp, Nat.shiftRight_eq_div_pow, Nat.div_eq_of_lt h, Nat.mod_eq_of_lt h]

theorem codeValue_of_normal (neg : Bool) (h : 2 ^ sp.mant ≤ code) :
    codeValue sp neg code =
      .fin neg (2 ^ sp.mant + code % 2 ^ sp.mant) (minExp sp + ((code / 2 ^ sp.mant : Nat) : Int) - 1) := by
  have hx : code / 2 ^ sp.mant ≠ 0 := (Nat.div_pos h (Nat.two_pow_pos _)).ne'
  simp only [codeValue, minExp, Nat.shiftRight_eq_div_pow, if_neg hx]

/-- No bit is rounded off a number that fits the mantissa and is normalised, or has the smallest exponent. -/
theorem roundCode_of_fits (away : Bool) (hm : m < 2 ^ (sp.mant + 1)) (hlow : minExp sp ≤ e)
    (hnormal : e = minExp sp ∨ 2 ^ sp.mant ≤ m) :
    roundCode away sp m e = if m = 0 then 0 else (e - minExp sp).toNat * 2 ^ sp.mant + m := by
  by_cases hzero : m = 0
  · simp [roundCode, hzero]
  · have hhigh : m.log2 ≤ sp.mant := Nat.lt_succ_iff.1 ((Nat.log2_lt hzero).2 hm)
    have hq : max ((m.log2 : Int) + e - (sp.mant : Int)) (minExp sp) = e := by
      rcases hnormal with he | hlead
      · omega
      · have := (Nat.le_log2 hzero).2 hlead
        omega
    rw [minExp] at hq
    simp [roundCode, hzero, hq, minExp]

/-- R243: a value that the layout holds rounds to its own code, in both modes. -/
theorem codeValue_rounds_back (away : Bool) (sp : FloatSpec) (neg : Bool) (code : Nat) :
    ∃ m e, codeValue sp neg code = .fin neg m e ∧ roundCode away sp m e = code := by
  rcases Nat.lt_or_ge code (2 ^ sp.mant) with hsub | hnorm
  · refine ⟨_, _, codeValue_of_subnormal neg hsub, ?_⟩
    rw [roundCode_of_fits away (by omega) le_rfl (.inl rfl)]
    simp +contextual [eq_comm]
  · have hx : 0 < code / 2 ^ sp.mant := Nat.div_pos hnorm (Nat.two_pow_pos _)
    have hf : code % 2 ^ sp.mant < 2 ^ sp.mant := Nat.mod_lt _ (Nat.two_pow_pos _)
    have hexp : (minExp sp + ((code / 2 ^ sp.mant : Nat) : Int) - 1 - minExp sp).toNat = code / 2 ^ sp.mant - 1 := by omega
    refine ⟨_, _, codeValue_of_normal neg hnorm, ?_⟩
    rw [roundCode_of_fits away (by omega) (by omega) (.inr (Nat.le_add_right _ _)), if_neg (by omega), hexp]
    calc (code / 2 ^ sp.mant - 1) * 2 ^ sp.mant + (2 ^ sp.mant + code % 2 ^ sp.mant)
        = (code / 2 ^ sp.mant - 1 + 1) * 2 ^ sp.mant + code % 2 ^ sp.mant := by ring
      _ = code := by rw [Nat.sub_add_cancel hx, Nat.div_add_mod']

end

/-! ### Floating-point formats (R229, R248, R249) -/

section
variable {f : Fmt} {code : Nat}

/-- The sign bit of a format, set or not. -/
def signBit (f : Fmt) (neg : Bool) : Nat := if neg then 2 ^ (f.bits - 1) else 0

theorem signBit_add_magnitude (h : code < 2 ^ f.bits) :
    signBit f (code.testBit (f.bits - 1)) + code % 2 ^ (f.bits - 1) = code := by
  have hbits : f.bits - 1 + 1 = f.bits := by cases f <;> rfl
  have hsplit : code = code % 2 ^ (f.bits - 1) + 2 ^ (f.bits - 1) * (code / 2 ^ (f.bits - 1) % 2) := by
    rw [← Nat.mod_pow_succ, hbits, Nat.mod_eq_of_lt h]
  simp only [signBit, Nat.testBit_eq_decide_div_mod_eq, decide_eq_true_eq]
  split
  next hset => rw [hset] at hsplit; omega
  next hclear => rw [Nat.mod_two_ne_one.1 hclear] at hsplit; omega

theorem decode_of_float (hf : f.isInt = false) (h : code < 2 ^ f.bits) :
    f.decode code =
      if f.spec.ieee && f.spec.maxCode < code % 2 ^ (f.bits - 1) then
        if code % 2 ^ (f.bits - 1) = f.spec.maxCode + 1 then .inf (code.testBit (f.bits - 1)) else .nan
      else if f = .e4m3 && code % 2 ^ (f.bits - 1) = 0x7F then .nan
      else codeValue f.spec (code.testBit (f.bits - 1)) (code % 2 ^ (f.bits - 1)) := by
  unfold Fmt.decode
  rw [Nat.mod_eq_of_lt h]
  cases f <;> cases hf <;> rfl

/-- Outside the IEEE layouts every magnitude is finite, but for E4M3's highest, its NaN. -/
theorem magnitude_le_maxCode (hf : f.isInt = false) (hieee : f.spec.ieee = false)
    (hnan : ¬(f = .e4m3 ∧ code % 2 ^ (f.bits - 1) = 0x7F)) : code % 2 ^ (f.bits - 1) ≤ f.spec.maxCode := by
  have hlt : code % 2 ^ (f.bits - 1) < 2 ^ (f.bits - 1) := Nat.mod_lt _ (Nat.two_pow_pos _)
  cases f <;> simp [Fmt.isInt, Fmt.spec, Fmt.bits] at hf hieee hnan hlt ⊢ <;> omega

/-- A code that is no NaN is an infinity of an IEEE layout, or the finite value of a magnitude the format holds. -/
theorem decode_float_cases (hf : f.isInt = false) (h : code < 2 ^ f.bits) (hnan : f.decode code ≠ .nan) :
    (f.spec.ieee = true ∧ code % 2 ^ (f.bits - 1) = f.spec.maxCode + 1 ∧
      f.decode code = .inf (code.testBit (f.bits - 1))) ∨
    (code % 2 ^ (f.bits - 1) ≤ f.spec.maxCode ∧
      f.decode code = codeValue f.spec (code.testBit (f.bits - 1)) (code % 2 ^ (f.bits - 1))) := by
  rw [decode_of_float hf h] at hnan ⊢
  split at hnan
  next hbeyond =>
    rw [if_pos hbeyond]
    split at hnan
    next hinf => exact .inl ⟨(Bool.and_eq_true_iff.1 hbeyond).1, hinf, if_pos hinf⟩
    next => exact absurd rfl hnan
  next hwithin =>
    rw [if_neg hwithin]
    split at hnan
    next => exact absurd rfl hnan
    next hval =>
      refine .inr ⟨?_, if_neg hval⟩
      cases hieee : f.spec.ieee with
      | true => simpa [hieee] using hwithin
      | false => exact magnitude_le_maxCode hf hieee (by simpa using hval)

theorem encode_inf_of_ieee (away neg : Bool) (hf : f.isInt = false) (hieee : f.spec.ieee = true) :
    f.encode away (.inf neg) = signBit f neg + (f.spec.maxCode + 1) := by
  simp [Fmt.encode, signBit, hf, hieee]

/-- A finite value that the format holds is not saturated. -/
theorem encode_codeValue (away neg : Bool) (hf : f.isInt = false) (hmag : code ≤ f.spec.maxCode) :
    f.encode away (codeValue f.spec neg code) = signBit f neg + code := by
  obtain ⟨m, e, hvalue, hround⟩ := codeValue_rounds_back away f.spec neg code
  simp [Fmt.encode, signBit, hf, hvalue, hround, hmag]

theorem float_code_converts_back (away : Bool) (hf : f.isInt = false) (h : code < 2 ^ f.bits)
    (hnan : f.decode code ≠ .nan) : f.encode away (f.decode code) = code := by
  rcases decode_float_cases hf h hnan with ⟨hieee, hmag, hinf⟩ | ⟨hmag, hfin⟩
  · rw [hinf, encode_inf_of_ieee away _ hf hieee, ← hmag, signBit_add_magnitude h]
  · rw [hfin, encode_codeValue away _ hf hmag, signBit_add_magnitude h]

/-! ### Integer formats (R229, R232, R243, R248) -/

/-- The two's complement formats; INT2 is not one, as its code 2 stands for 0 (R232). -/
def twosComplement : List Fmt := [.int32, .int16, .int8, .int4]

/-- The unsigned formats. -/
def unsignedFormats : List Fmt := [.uint8, .uint4]

theorem float_or_integer (f : Fmt) : f.isInt = false ∨ f ∈ twosComplement ∨ f ∈ unsignedFormats ∨ f = .int2 := by
  cases f <;> decide

theorem roundInt_of_integer (away neg : Bool) (m : Nat) : roundInt away neg m 0 = if neg then -(m : Int) else m := by
  simp [roundInt]

/-- An integer within the format's range is stored modulo the format's width. -/
theorem encodeInt_of_mem_range {i : Int} (hlow : f.intRange.1 ≤ i) (hhigh : i ≤ f.intRange.2) :
    f.encodeInt i = (i % (2 ^ f.bits : Nat)).toNat := by
  simp only [Fmt.encodeInt, if_neg (not_lt.2 hhigh), if_neg (not_lt.2 hlow)]

theorem encode_ofInt (away : Bool) (hf : f.isInt = true) (i : Int) : f.encode away (Fp.ofInt i) = f.encodeInt i := by
  have hround : roundInt away (decide (i < 0)) i.natAbs 0 = i := by
    rw [roundInt_of_integer]
    split
    next hneg => rw [Int.ofNat_natAbs_of_nonpos (of_decide_eq_true hneg).le, neg_neg]
    next hpos => exact Int.natAbs_of_nonneg (not_lt.1 (by simpa using hpos))
  simp [Fmt.encode, hf, Fp.ofInt, hround]

theorem intRange_of_twosComplement (hf : f ∈ twosComplement) :
    f.intRange = (-((2 ^ (f.bits - 1) : Nat) : Int), ((2 ^ (f.bits - 1) : Nat) : Int) - 1) := by
  revert f
  decide

theorem signed_mem_range {w : Nat} (hw : 0 < w) (x : Nat) :
    -(2 ^ (w - 1) : Nat) ≤ signed w x ∧ signed w x ≤ (2 ^ (w - 1) : Nat) - 1 := by
  have hlt : x % 2 ^ w < 2 ^ w := Nat.mod_lt _ (Nat.two_pow_pos w)
  have hdouble : 2 ^ w = 2 * 2 ^ (w - 1) := by rw [← pow_succ', Nat.sub_add_cancel hw]
  rw [signed]
  split <;> omega

theorem signed_emod {w x : Nat} (h : x < 2 ^ w) : (signed w x % (2 ^ w : Nat)).toNat = x := by
  have hself : ((x : Int) % (2 ^ w : Nat)).toNat = x := by rw [Int.emod_eq_of_lt (by omega) (by omega), Int.toNat_natCast]
  rw [signed, Nat.mod_eq_of_lt h]
  split
  · exact hself
  · rw [Int.sub_emod_right, hself]

theorem decode_of_twosComplement (hf : f ∈ twosComplement) (h : code < 2 ^ f.bits) :
    f.decode code = Fp.ofInt (signed f.bits code) := by
  unfold Fmt.decode
  rw [Nat.mod_eq_of_lt h]
  cases f <;> simp [twosComplement] at hf ⊢

theorem twosComplement_code_converts_back (away : Bool) (hf : f ∈ twosComplement) (h : code < 2 ^ f.bits) :
    f.encode away (f.decode code) = code := by
  have hint : f.isInt = true ∧ 0 < f.bits := by clear h; revert f; decide
  obtain ⟨hlow, hhigh⟩ := signed_mem_range hint.2 code
  have hrange := intRange_of_twosComplement hf
  rw [decode_of_twosComplement hf h, encode_ofInt away hint.1,
    encodeInt_of_mem_range (hrange ▸ hlow) (hrange ▸ hhigh), signed_emod h]

theorem decode_of_unsigned (hf : f ∈ unsignedFormats) (h : code < 2 ^ f.bits) : f.decode code = Fp.ofInt code := by
  unfold Fmt.decode
  rw [Nat.mod_eq_of_lt h]
  cases f <;> simp [unsignedFormats, Fp.ofInt] at hf ⊢

theorem unsigned_code_converts_back (away : Bool) (hf : f ∈ unsignedFormats) (h : code < 2 ^ f.bits) :
    f.encode away (f.decode code) = code := by
  have hint : f.isInt = true ∧ f.intRange = (0, ((2 ^ f.bits : Nat) : Int) - 1) := by clear h; revert f; decide
  have hrange := hint.2
  rw [decode_of_unsigned hf h, encode_ofInt away hint.1, encodeInt_of_mem_range (by rw [hrange]; omega)
    (by rw [hrange]; omega), Int.emod_eq_of_lt (by omega) (by omega), Int.toNat_natCast]

theorem int2_code_converts_back (away : Bool) (h : code < 4) (htwo : code ≠ 2) :
    Fmt.int2.encode away (Fmt.int2.decode code) = code := by
  have hcodes : code = 0 ∨ code = 1 ∨ code = 3 := by omega
  rcases hcodes with rfl | rfl | rfl <;> cases away <;> rfl

end

/-- Settles O36: by the kind of format. A floating-point code stands for a value of its own layout, which is neither rounded
nor saturated; an integer code stands for an integer in its format's range; INT2 has three codes to try. -/
theorem codesConvertBack : Obligations.CodesConvertBack := by
  intro f away code h hnan htwo
  rcases float_or_integer f with hf | hf | hf | rfl
  · exact float_code_converts_back away hf h hnan
  · exact twosComplement_code_converts_back away hf h
  · exact unsigned_code_converts_back away hf h
  · exact int2_code_converts_back away h fun hcode => htwo ⟨rfl, hcode⟩

end Sys2Proof.Proofs

/-! PROOFS. The memory tiers (08_memory_tiers.md R258 to R302): the slices' bands, the Cellar's refresh polls and training,
page moves, zeroing and the background scrubber. Each event of the model is first given by an equation per case. -/

namespace Sys2Proof.Proofs
open Sys2Proof Sys2Proof.Machine Sys2Proof.Laws

/-! ### The band of a slice (R258, R304) -/

/-- The lowest band that a temperature allows: thresholds as the band rises. -/
def bandRise (h : Int) : Nat := if 105 ≤ h then 2 else if 85 ≤ h then 1 else 0

/-- The highest band that a temperature allows: thresholds as the band falls, 3 °C lower. -/
def bandFall (h : Int) : Nat := if 102 < h then 2 else if 82 < h then 1 else 0

/-- The slice shows a temperature, and its band keeps within what this allows. -/
def showBand (s : State) (slice : Nat) (h : Int) : State :=
  let u := (s.tempByte h).2.setReg (Reg.loftSliceTemp.ix slice) (s.tempByte h).1
  u.setReg (Reg.loftSliceBand.ix slice) (max (bandRise h) (min (bandFall h) (u.reg (Reg.loftSliceBand.ix slice))))

/-- What the sensors of a slice that are not faulty read. -/
def soundReadings (s : State) (slice : Nat) (t0 t1 : Int) : List Int :=
  (if !s.pwr.sensBad.contains (2 * slice) then [t0] else []) ++
    (if !s.pwr.sensBad.contains (2 * slice + 1) then [t1] else [])

section
variable {s : State} {slice : Nat} {t0 t1 : Int}

theorem soundReadings_of_both (h0 : 2 * slice ∉ s.pwr.sensBad) (h1 : 2 * slice + 1 ∉ s.pwr.sensBad) :
    soundReadings s slice t0 t1 = [t0, t1] := by
  simp [soundReadings, h0, h1]

theorem soundReadings_of_first (h0 : 2 * slice ∉ s.pwr.sensBad) (h1 : 2 * slice + 1 ∈ s.pwr.sensBad) :
    soundReadings s slice t0 t1 = [t0] := by
  simp [soundReadings, h0, h1]

theorem soundReadings_of_second (h0 : 2 * slice ∈ s.pwr.sensBad) (h1 : 2 * slice + 1 ∉ s.pwr.sensBad) :
    soundReadings s slice t0 t1 = [t1] := by
  simp [soundReadings, h0, h1]

theorem loftBand_eq (s : State) (slice : Nat) (t0 t1 : Int) : s.loftBand slice t0 t1 =
    match soundReadings s slice t0 t1 with
    | [] => s
    | x :: l => if !s.mainUp then s else showBand s slice (l.foldl max x) := rfl

/-- The band follows the hottest of the sound readings. -/
theorem loftBand_of_readings {x : Int} {l : List Int} (hup : s.mainUp = true)
    (hl : soundReadings s slice t0 t1 = x :: l) : s.loftBand slice t0 t1 = showBand s slice (l.foldl max x) := by
  rw [loftBand_eq, hl]
  exact if_neg (by simp [hup])

theorem loftBand_of_down (hdown : s.mainUp = false) : s.loftBand slice t0 t1 = s := by
  rw [loftBand_eq]
  cases soundReadings s slice t0 t1 with
  | nil => rfl
  | cons x l => exact if_pos (by simp [hdown])

end

/-! ### The Cellar (R261, R263, R484, R486) -/

section
variable {s : State}

theorem cellarPoll_of_down (hdown : s.mainUp = false) (ch code : Nat) : s.cellarPoll ch code = s :=
  if_pos (by simp [hdown])

theorem cellarPoll_of_fitted {ch : Nat} (hup : s.mainUp = true) (hstudy : s.sty.up = true)
    (hfit : s.celFitted ch = true) (code : Nat) : s.cellarPoll ch code =
      (let old := s.reg Reg.celStatusRefmult
       let u := s.setReg Reg.celStatusRefmult (putBits old (2 * ch) 2 code)
       if code = 3 ∧ bitsAt old (2 * ch) 2 ≠ 3 then u.note fcCelHot ch else u) := by
  simp [State.cellarPoll, hup, hstudy, hfit]

theorem cellarTrained_of_down (hdown : s.mainUp = false) : s.cellarTrained = s := if_pos (by simp [hdown])

/-- Every fitted channel is trained, and the start that waited for them is over. -/
def startOver (s : State) : State :=
  let up := s.setReg Reg.celStatusTrained (maskOf s.celChannels)
  let u := { up with rst := { up.rst with cellarWait := false } }
  u.setReg Reg.rstBootPhase (if u.safeFloor then 7 else 0)

theorem cellarTrained_of_waiting (hup : s.mainUp = true) (hwait : s.rst.cellarWait = true) : s.cellarTrained =
    (startOver s).each (((startOver s).deed.held.map fun h => h.page).foldl sins []) fun s page =>
      match s.pageView page with
      | .held => s
      | _ => s.applyHeld page :=
  if_neg (by simp [hup, hwait])

end

/-! ### Moves (R278, R281, R302) -/

/-- A read of the page that entry `e` places finds the unit `bad` uncorrectable, where there is one (R299). -/
def readFinds (s : State) (e : Nat) (bad : Option (Fin 1024)) : State :=
  match bad with
  | some u => s.markBad (dHome e) (dFrame e * 65536 + 64 * u.val)
  | none => s

/-- The uncorrectable units of the page that entry `e` places. -/
def pageBad (s : State) (e : Nat) : List Nat := s.badIn (dHome e) (dFrame e * 65536) 65536

/-- The page stands at its new home, RESIDENT or SCRUB_PENDING still, and its move is over. -/
def pageMoved (s : State) (page : Nat) (m : Move) : State :=
  let e := m.entry.toNat
  let c := s.copyFrame (dHome e) (dFrame e) m.home m.frame
  let now := c.deedOf page
  (c.setDeed page (mkDeed m.home (if dState e = 3 then 3 else 1) (dClass now) (dArg now) (dEpoch e) m.frame)).dropMove page

/-- What follows once the page stands at its new home: mode 3 zeroes it, else its held accesses and the request go on. -/
def moveGoesOn (s : State) (page : Nat) (m : Move) : State :=
  match m.zero, m.job with
  | true, some id =>
    let z := s.setDeed page (putBits (s.deedOf page) 5 3 4)
    { z with deed := { z.deed with zeroJobs := z.deed.zeroJobs ++ [(page, id, m.idx)] } }
  | _, _ => (s.applyHeld page).placeStep m.job

section
variable {s : State} {page : Nat} {m : Move}

theorem moveGoesOn_of_zero {id : Nat} (hzero : m.zero = true) (hjob : m.job = some id) : moveGoesOn s page m =
    (let z := s.setDeed page (putBits (s.deedOf page) 5 3 4)
     { z with deed := { z.deed with zeroJobs := z.deed.zeroJobs ++ [(page, id, m.idx)] } }) := by
  simp only [moveGoesOn, hzero, hjob]

theorem moveGoesOn_of_kept (h : m.zero = false ∨ m.job = none) :
    moveGoesOn s page m = (s.applyHeld page).placeStep m.job := by
  unfold moveGoesOn
  split
  next hzero hjob => simp [hzero, hjob] at h
  next => rfl

end

section
variable {s : State} {page : Nat} {bad : Option (Fin 1024)}

theorem moveEnds_of_none (h : (s.deed.moves.find? fun m => m.page == page && !m.remote) = none) :
    s.moveEnds page bad = s := by
  simp only [State.moveEnds, h]

variable {m : Move} (h : (s.deed.moves.find? fun m => m.page == page && !m.remote) = some m)
include h

theorem moveEnds_of_failed (hst : dState (s.deedOf page) ≠ 2) :
    s.moveEnds page bad = s.moveBack m fun p => p.failAt m.idx := by
  simp only [State.moveEnds, h, if_pos hst]

variable (hst : dState (s.deedOf page) = 2)
include hst

/-- A move within the device, by what the read of its source finds. -/
theorem moveEnds_of_moving : s.moveEnds page bad =
    (let e := m.entry.toNat
     let b := readFinds s e bad
     if pageBad b e ≠ [] then (b.reportBad (dHome e) (pageBad b e)).moveBack m fun p => p.failAt m.idx
     else moveGoesOn (pageMoved b page m) page m) := by
  simp only [State.moveEnds, h, hst, ne_eq, not_true_eq_false, if_false, Bool.not_eq_true', List.isEmpty_eq_false_iff]
  rfl

end

/-! ### Zeroing (R283, R284) -/

section
variable {s : State} {page : Nat}

theorem zeroEnds_of_zeroing (hup : s.mainUp = true) (hst : dState (s.deedOf page) = 4) : s.zeroEnds page =
    (let z := { s.zeroPage page with deed := { (s.zeroPage page).deed with
       zeroJobs := s.deed.zeroJobs.filter fun z => z.1 != page } }
     (z.applyHeld page).each (s.deed.zeroJobs.filter fun z => z.1 == page) fun s z => s.placeStep (some z.2.1)) :=
  if_neg (by simp [hup, hst])

theorem zeroEnds_of_other (h : s.mainUp = false ∨ dState (s.deedOf page) ≠ 4) : s.zeroEnds page = s :=
  if_pos (by simpa using h)

/-- The SCRUB_PENDING page that the scrubber takes next: upward from the last one, and from page 0 round. -/
def nextScrub (s : State) : Option Nat :=
  (s.scrubPages.find? fun p => s.deed.scrubPos.all fun q => q < p).or s.scrubPages.head?

variable {bad : Option (Fin 1024)} (hup : s.mainUp = true)
include hup

theorem scrubNext_of_none (h : nextScrub s = none) : s.scrubNext bad = s := by
  rw [nextScrub] at h
  simp only [State.scrubNext, hup, Bool.not_true, Bool.false_eq_true, if_false, h]

theorem scrubNext_of_some (h : nextScrub s = some page) : s.scrubNext bad =
    (let e := s.deedOf page
     let b := readFinds s e bad
     let z := (b.reportBad (dHome e) (pageBad b e)).setDeed page (putBits e 5 3 4)
     { z with deed := { z.deed with scrubPos := some page } }) := by
  rw [nextScrub] at h
  simp only [State.scrubNext, hup, Bool.not_true, Bool.false_eq_true, if_false, h]
  rfl

end

/-- Settles O39: a slice's band by its sound sensors, the Cellar by what waits for it, a move by what the read of its source
finds and by who asked for it, zeroing and scrubbing by the page that they take. -/
theorem pagesMove : Obligations.PagesMove := by
  refine ⟨fun t sl t0 t1 ch code s => ?_, fun t page bad s => ?_, fun t page bad s => ?_⟩
  · intro a faulty up down band rate was up' trained over_
    have hband := runs_loftBandChange t sl t0 t1 s
    have hpoll := runs_cellarMr4Poll t ch code s
    have htrain := runs_cellarTrainingComplete t s
    refine ⟨fun hup => ⟨fun h0 h1 => ?_, fun h0 h1 => ?_, fun h0 h1 => ?_, fun hstudy hfit => ?_, fun hwait => ?_⟩,
      fun hdown => ⟨runs_congr hband (loftBand_of_down hdown), runs_congr hpoll (cellarPoll_of_down hdown ch code),
        runs_congr htrain (cellarTrained_of_down hdown)⟩⟩
    · exact runs_congr hband (loftBand_of_readings hup (soundReadings_of_both h0 h1))
    · exact runs_congr hband (loftBand_of_readings hup (soundReadings_of_first h0 h1))
    · exact runs_congr hband (loftBand_of_readings hup (soundReadings_of_second h0 h1))
    · have hrate := runs_congr hpoll (cellarPoll_of_fitted hup hstudy hfit code)
      exact ⟨fun hhot hwas => runs_congr hrate (if_pos ⟨hhot, hwas⟩),
        fun hcool => runs_congr hrate (if_neg (by rwa [not_and_or, not_not]))⟩
    · exact runs_congr htrain (cellarTrained_of_waiting hup hwait)
  · intro a p mine
    have hrun := runs_pageMoveComplete t page bad s
    refine ⟨fun hnone => runs_congr hrun (moveEnds_of_none hnone), fun m hm => ?_⟩
    intro e b l c now d z
    refine ⟨fun hst => runs_congr hrun (moveEnds_of_failed hm hst), fun hst hl => ?_, fun hst hl hzero id hjob => ?_,
      fun hst hl hgo => ?_⟩
    all_goals have hends := runs_congr hrun (moveEnds_of_moving (bad := bad) hm hst)
    · exact runs_congr hends (if_pos hl)
    · exact runs_congr hends ((if_neg (not_not.2 hl)).trans (moveGoesOn_of_zero hzero hjob))
    · exact runs_congr hends ((if_neg (not_not.2 hl)).trans (moveGoesOn_of_kept hgo))
  · intro a p jobs z next
    have hzero := runs_zeroingComplete t page s
    have hscrub := runs_scrubPage t bad s
    exact ⟨fun hup hst => runs_congr hzero (zeroEnds_of_zeroing hup hst),
      fun hother => runs_congr hzero (zeroEnds_of_other hother),
      fun hup hnone => runs_congr hscrub (scrubNext_of_none hup hnone),
      fun hup q hq => runs_congr hscrub (scrubNext_of_some hup hq)⟩

end Sys2Proof.Proofs

/-! PROOFS. Items of a SCAN (10_state_streams.md R347 to R349, R354): the rows that an item meets when it comes to start, the
completion of the chunk that runs, and the limit of a hold. Each operation has its equations by case. -/

namespace Sys2Proof.Proofs
open Sys2Proof Sys2Proof.Machine Sys2Proof.Laws

/-! ### An item that comes to start (R347) -/

/-- Row 1 lets the item pass: the entry is valid and its stream is of the step's kind. -/
def EntryFits (f : ScanFields) (e : StreamEntry) : Prop :=
  e.valid = true ∧ e.mode = f.mode ∧ e.chunk = f.chunk ∧ e.heads = f.heads ∧ e.pc = f.pc ∧ e.nc = f.nc ∧ e.bc = f.bc

/-- Row 2 lets the item pass: its stream has no other item in the step and no chunk running elsewhere. -/
def ItemAlone (s : State) (sh : ScanShare) (it : ScanItem) : Prop :=
  it.dup = false ∧ s.chunkElsewhere it.stream sh.work sh.step = false

/-- How far the item's sequence number lies ahead of the one that is due, modulo 2^32. -/
def itemAhead (it : ScanItem) (e : StreamEntry) : Nat := (it.seq.toNat + 2 ^ 32 - e.next) % 2 ^ 32

section
variable {s : State} {sh : ScanShare} {f : ScanFields} {it : ScanItem} {e : StreamEntry}

theorem itemGate_of_unfit (hfit : ¬EntryFits f e) : itemGate s sh f it e = .fails stStreamInvalid := by
  refine if_pos ?_
  contrapose! hfit
  simpa [EntryFits, and_assoc] using hfit

variable (hfit : EntryFits f e)
include hfit

/-- Past row 1, the rows that are left decide. -/
theorem itemGate_of_fits : itemGate s sh f it e =
    if it.dup || s.chunkElsewhere it.stream sh.work sh.step then .fails stStreamBusy
    else if 2 ^ 31 ≤ itemAhead it e then .fails stStreamSeqStale
    else if e.away || itemAhead it e ≠ 0 then .held
    else .starts e := by
  obtain ⟨hvalid, hmode, hchunk, hheads, hpc, hnc, hbc⟩ := hfit
  exact if_neg (by simp [hvalid, hmode, hchunk, hheads, hpc, hnc, hbc])

theorem itemGate_of_busy (hbusy : ¬ItemAlone s sh it) : itemGate s sh f it e = .fails stStreamBusy := by
  rw [itemGate_of_fits hfit]
  refine if_pos ?_
  contrapose! hbusy
  simpa [ItemAlone] using hbusy

variable (halone : ItemAlone s sh it)
include halone

/-- Past rows 1 and 2, the sequence number and AWAY decide. -/
theorem itemGate_of_alone : itemGate s sh f it e =
    if 2 ^ 31 ≤ itemAhead it e then .fails stStreamSeqStale
    else if e.away || itemAhead it e ≠ 0 then .held
    else .starts e := by
  obtain ⟨hdup, helsewhere⟩ := halone
  exact (itemGate_of_fits hfit).trans (if_neg (by simp [hdup, helsewhere]))

theorem itemGate_of_stale (hstale : 2 ^ 31 ≤ itemAhead it e) : itemGate s sh f it e = .fails stStreamSeqStale :=
  (itemGate_of_alone hfit halone).trans (if_pos hstale)

theorem itemGate_of_waits (hahead : itemAhead it e < 2 ^ 31) (hwait : e.away = true ∨ itemAhead it e ≠ 0) :
    itemGate s sh f it e = .held := by
  rw [itemGate_of_alone hfit halone, if_neg (Nat.not_le.2 hahead)]
  exact if_pos (by simpa using hwait)

theorem itemGate_of_due (hdue : itemAhead it e = 0) (hhome : e.away = false) : itemGate s sh f it e = .starts e := by
  rw [itemGate_of_alone hfit halone, hdue, hhome]
  rfl

end

/-! ### The chunk that completes (R348, R349) -/

section
variable {s b : State} {sh : ScanShare} {it : ScanItem}

theorem itemDone_of_written (h : runAcc s (writeCarry sh it) = (b, .ok ())) :
    s.itemDone sh it = (b.closeItem sh).streamChanged it.stream := by
  simp only [State.itemDone, h]

theorem itemDone_of_failed {st : Byte} {d : BitVec 32} (h : runAcc s (writeCarry sh it) = (b, .error (.status st d))) :
    s.itemDone sh it = (b.closeItem sh).scanFail sh it st := by
  simp only [State.itemDone, h]

theorem itemDone_of_held {d : Nat} {walk : Bool} (h : runAcc s (writeCarry sh it) = (b, .error (.blocked d walk))) :
    s.itemDone sh it = b := by
  simp only [State.itemDone, h]

end

section
variable {s : State} {t : Nat}

theorem scanItemDone_of_idle (h : s.runningOn t = none) : s.scanItemDone t = s := by
  simp only [State.scanItemDone, h]

variable {w : Work} {r : TileRun} (hrun : s.runningOn t = some (w, r))
include hrun

theorem scanItemDone_of_no_share (h : s.scanShare w.id t = none) : s.scanItemDone t = s := by
  simp only [State.scanItemDone, hrun, h]

variable {sh : ScanShare} (hshare : s.scanShare w.id t = some sh)
include hshare

theorem scanItemDone_of_no_item (h : sh.running = none) : s.scanItemDone t = s := by
  simp only [State.scanItemDone, hrun, hshare, h]

variable {it : ScanItem} (hitem : sh.running = some it)
include hitem

theorem scanItemDone_of_reading (hreads : r.reads + r.unissued ≠ 0) : s.scanItemDone t = s := by
  simp only [State.scanItemDone, hrun, hshare, hitem]
  exact if_pos (Nat.pos_of_ne_zero hreads)

variable (hreads : r.reads + r.unissued = 0)
include hreads

theorem scanItemDone_of_ok (hst : r.status = stOk) : s.scanItemDone t = s.itemDone sh it := by
  simp [State.scanItemDone, hrun, hshare, hitem, hreads, hst]

theorem scanItemDone_of_failed_read (hst : r.status ≠ stOk) : s.scanItemDone t =
    (((s.closeItem sh).scanFail sh it r.status).mapWork w.id fun w =>
      w.mapTile t fun (r : TileRun) => { r with status := stOk, detail := 0 }) := by
  simp [State.scanItemDone, hrun, hshare, hitem, hreads, hst]

end

/-- A chunk that cannot complete yet: none runs, or a read of it is outstanding. -/
theorem scanItemDone_of_waiting {s : State} {t : Nat} {w : Work} {r : TileRun} {sh : ScanShare}
    (hrun : s.runningOn t = some (w, r)) (hshare : s.scanShare w.id t = some sh)
    (hwait : sh.running = none ∨ r.reads + r.unissued ≠ 0) : s.scanItemDone t = s := by
  cases hitem : sh.running with
  | none => exact scanItemDone_of_no_item hrun hshare hitem
  | some it => exact scanItemDone_of_reading hrun hshare hitem (hwait.resolve_left (by simp [hitem]))

/-! ### The limit of a hold (R354) -/

section
variable {s b : State} {sh : ScanShare} {it : ScanItem} {e : StreamEntry}
variable (hread : runAcc s (readStream sh.who it.stream) = (b, .ok e))
include hread

theorem holdTimeout_of_early (h : it.heldAt.getD 0 < s.holdLimit e) : s.holdTimeout sh it = s := by
  simp only [State.holdTimeout, hread]
  exact if_pos h

theorem holdTimeout_of_reached (h : s.holdLimit e ≤ it.heldAt.getD 0) : s.holdTimeout sh it =
    (b.bump Reg.strmStatusTimeoutCnt).holdEnds sh it (if e.away then stStreamAwayTimeout else stStreamSeqTimeout) := by
  simp only [State.holdTimeout, hread]
  exact if_neg (Nat.not_lt.2 h)

end

/-- Settles O35: the completion by what runs on the tile and how the chunk's reads and writes went, the hold by its limit, and
the start by the rows of R347. -/
theorem streamItems : Obligations.StreamItems := by
  intro t tile s a i
  have hdone := runs_scanItemComplete t tile s
  refine ⟨fun hidle => runs_congr hdone (scanItemDone_of_idle hidle), fun w r hrun =>
    ⟨fun hnone => runs_congr hdone (scanItemDone_of_no_share hrun hnone), fun sh hshare =>
      ⟨fun hwait => runs_congr hdone (scanItemDone_of_waiting hrun hshare hwait), fun it hitem hreads =>
        ⟨fun hst => runs_congr hdone (scanItemDone_of_failed_read hrun hshare hitem hreads hst), fun hst => ?_⟩⟩⟩,
    runs_streamHoldTimeout t tile s, fun u b sh it e hread => ⟨holdTimeout_of_early hread, holdTimeout_of_reached hread⟩,
    fun u sh f it e => ⟨itemGate_of_unfit, itemGate_of_busy, itemGate_of_stale, itemGate_of_waits, itemGate_of_due⟩⟩
  have hwrites := runs_congr hdone (scanItemDone_of_ok hrun hshare hitem hreads hst)
  exact ⟨fun b hok => runs_congr hwrites (itemDone_of_written hok),
    fun b st d hbad => runs_congr hwrites (itemDone_of_failed hbad),
    fun b d k hheld => runs_congr hwrites (itemDone_of_held hheld)⟩

end Sys2Proof.Proofs

/-! PROOFS. Frame records and the wires of camera ports (12_gallery.md R381 to R383, R400 to R408): the layout of a record, what
a delivery does, how a packet header fares, and the faults of lanes and clocks. Each event has its equations by case. -/

namespace Sys2Proof.Proofs
open Sys2Proof Sys2Proof.Machine Sys2Proof.Laws

/-! ### The frame record (R401) -/

/-- Each field stands above the bits of those before it and below the next one's place. -/
theorem frameRecord_fields (f : GalFrame) (e : FrameEnd) (dropped werr : Bool) (now : Nat) :
    let r := f.record e dropped werr now
    bitsAt r 0 32 = f.frame.toNat ∧ bitsAt r 32 1 = b2n dropped ∧ bitsAt r 33 1 = b2n e.anyShort ∧
    bitsAt r 34 1 = b2n e.anyLong ∧ bitsAt r 35 1 = b2n e.short ∧ bitsAt r 36 1 = b2n e.long_ ∧ bitsAt r 37 1 = b2n f.late ∧
    bitsAt r 38 1 = b2n e.anyCrc ∧ bitsAt r 39 1 = b2n (0 < f.lost) ∧ bitsAt r 40 1 = b2n werr ∧ bitsAt r 41 7 = 0 ∧
    bitsAt r 48 16 = min e.bad 65535 ∧ bitsAt r 64 64 = f.tick.toNat ∧ bitsAt r 128 64 = f.vt.toNat ∧
    bitsAt r 192 16 = e.received % 65536 ∧ bitsAt r 208 16 = 0 ∧ bitsAt r 224 32 = (now - f.start) / 1000 % 2 ^ 32 := by
  have hbad : min e.bad 65535 < 2 ^ 16 := min_pred_lt e.bad 16
  have hlines : e.received % 65536 < 2 ^ 16 := Nat.mod_lt _ (by decide)
  have hdur : (now - f.start) / 1000 % 2 ^ 32 < 2 ^ 32 := Nat.mod_lt _ (by decide)
  have h32 := f.frame.isLt
  have h33 := add_shiftLeft_lt (n := 33) h32 (b2n_lt dropped) rfl
  have h34 := add_shiftLeft_lt (n := 34) h33 (b2n_lt e.anyShort) rfl
  have h35 := add_shiftLeft_lt (n := 35) h34 (b2n_lt e.anyLong) rfl
  have h36 := add_shiftLeft_lt (n := 36) h35 (b2n_lt e.short) rfl
  have h37 := add_shiftLeft_lt (n := 37) h36 (b2n_lt e.long_) rfl
  have h38 := add_shiftLeft_lt (n := 38) h37 (b2n_lt f.late) rfl
  have h39 := add_shiftLeft_lt (n := 39) h38 (b2n_lt e.anyCrc) rfl
  have h40 := add_shiftLeft_lt (n := 40) h39 (b2n_lt (0 < f.lost)) rfl
  have h41 := add_shiftLeft_lt (n := 41) h40 (b2n_lt werr) rfl
  have h48 := h41.trans (show 2 ^ 41 < 2 ^ 48 by decide)
  have h64 := add_shiftLeft_lt (n := 64) h48 hbad rfl
  have h128 := add_shiftLeft_lt (n := 128) h64 f.tick.isLt rfl
  have h192 := add_shiftLeft_lt (n := 192) h128 f.vt.isLt rfl
  have h208 := add_shiftLeft_lt (n := 208) h192 hlines rfl
  have h224 := h208.trans (show 2 ^ 208 < 2 ^ 224 by decide)
  unfold GalFrame.record
  simp (disch := omega) only [bitsAt_add_shiftLeft_of_le]
  exact ⟨bitsAt_of_lt h32, bitsAt_add_shiftLeft_top h32 (b2n_lt _), bitsAt_add_shiftLeft_top h33 (b2n_lt _),
    bitsAt_add_shiftLeft_top h34 (b2n_lt _), bitsAt_add_shiftLeft_top h35 (b2n_lt _),
    bitsAt_add_shiftLeft_top h36 (b2n_lt _), bitsAt_add_shiftLeft_top h37 (b2n_lt _),
    bitsAt_add_shiftLeft_top h38 (b2n_lt _), bitsAt_add_shiftLeft_top h39 (b2n_lt _),
    bitsAt_add_shiftLeft_top h40 (b2n_lt _), bitsAt_of_lt_lo h41 7, bitsAt_add_shiftLeft_top h48 hbad,
    bitsAt_add_shiftLeft_top h64 f.tick.isLt, bitsAt_add_shiftLeft_top h128 f.vt.isLt,
    bitsAt_add_shiftLeft_top h192 hlines, bitsAt_of_lt_lo h208 16, bitsAt_add_shiftLeft_top h224 hdur⟩

/-! ### A delivered frame (R400, R402, R403) -/

section
variable {s : State} {n : Nat} {o : GalOut}

theorem delivered_of_token (h : o.f 0 28 1 = 1) : s.delivered n o =
    ((s.setGalOut n { s.galOut n with d := o.d + 1 }).galToken (o.f 5 16 10)).galEvent (0x2000 + n) := by
  simp only [State.delivered, if_pos h]

theorem delivered_of_no_token (h : o.f 0 28 1 = 0) : s.delivered n o =
    (s.setGalOut n { s.galOut n with d := o.d + 1 }).galEvent (0x2000 + n) := by
  have hne : o.f 0 28 1 ≠ 1 := by rw [h]; decide
  simp only [State.delivered, if_neg hne]

end

/-! ### Lanes in use and their order (R382) -/

theorem inOrder_iff (s : State) (p : Nat) (wires : BitVec 8) : s.inOrder p wires = true ↔
    ∀ l < 2 ^ min 2 (s.reg (Reg.galPortLanesCsi.ix p)),
      bitsAt wires.toNat (2 * l) 2 = bitsAt (s.reg (Reg.galPortLaneMapCsi.ix p)) (2 * l) 2 := by
  simp [State.inOrder, State.lanes, laneOf]

theorem usesLane_iff (s : State) (p lane : Nat) : s.usesLane p lane = true ↔
    ∃ l < 2 ^ min 2 (s.reg (Reg.galPortLanesCsi.ix p)),
      bitsAt (s.reg (Reg.galPortLaneMapCsi.ix p)) (2 * l) 2 = lane := by
  simp [State.usesLane, State.lanes, laneOf]

/-! ### A packet header (R382, R383, R407) -/

section
variable {s : State} {h : CsiHeader}

theorem header_of_bad (hbad : h.bad = true) : s.header h =
    ((s.setGalPort h.port { s.galPort h.port with wrong := none }).bump (Reg.galPortStatusHdrErrCsi.ix h.port), false) :=
  if_pos hbad

variable (hgood : h.bad = false)
include hgood

theorem header_of_inOrder (hord : s.inOrder h.port h.wires = true) :
    s.header h = (s.setGalPort h.port { s.galPort h.port with wrong := none }, true) := by
  simp only [State.header, hgood, Bool.false_eq_true, if_false, if_pos hord]

variable (hord : s.inOrder h.port h.wires = false)
include hord

/-- A second header in a row under the same other order. -/
theorem header_of_repeated (hwrong : (s.galPort h.port).wrong = some h.wires) : s.header h =
    ((s.bump (Reg.galPortStatusHdrErrCsi.ix h.port)).orderFault h.port h.wires, false) := by
  simp only [State.header, hgood, hord, Bool.false_eq_true, if_false, if_pos hwrong]

/-- The first header under this other order. -/
theorem header_of_disordered (hwrong : (s.galPort h.port).wrong ≠ some h.wires) : s.header h =
    ((s.bump (Reg.galPortStatusHdrErrCsi.ix h.port)).setGalPort h.port
      { s.galPort h.port with wrong := some h.wires }, false) := by
  simp only [State.header, hgood, hord, Bool.false_eq_true, if_false, if_neg hwrong]

end

/-! ### Two headers in one other order (R407) -/

/-- The header whose lanes arrive in an order of which LANE_ORDER_FAULT speaks. -/
def orderHeader (p : Fin 12) (order : BitVec 8) : CsiHeader := { port := p, vc := 0, dt := 0, wires := order, bad := false }

section
variable {s : State} {p : Fin 12} {order : BitVec 8}

theorem laneOrder_eq (s : State) (p : Fin 12) (order : BitVec 8) : s.laneOrder p order =
    (let once := if s.portOn p then (s.header (orderHeader p order)).1 else s
     if once.portOn p then (once.header (orderHeader p order)).1 else once) := rfl

theorem laneOrder_of_off (hoff : s.portOn p = false) : s.laneOrder p order = s := by
  simp [laneOrder_eq, hoff]

variable (hon : s.portOn p = true)
include hon

/-- Past the first header, the second one counts as long as the port still receives. -/
theorem laneOrder_of_on : s.laneOrder p order =
    (let once := (s.header (orderHeader p order)).1
     if once.portOn p then (once.header (orderHeader p order)).1 else once) := by
  rw [laneOrder_eq, if_pos hon]

theorem laneOrder_of_second (hstill : (s.header (orderHeader p order)).1.portOn p = true) :
    s.laneOrder p order = ((s.header (orderHeader p order)).1.header (orderHeader p order)).1 :=
  (laneOrder_of_on hon).trans (if_pos hstill)

theorem laneOrder_of_lost (hlost : (s.header (orderHeader p order)).1.portOn p = false) :
    s.laneOrder p order = (s.header (orderHeader p order)).1 :=
  (laneOrder_of_on hon).trans (if_neg (by simp [hlost]))

end

/-! ### Lanes and clocks of an enabled port (R406, R408) -/

/-- The Gallery runs and the port is enabled. -/
def PortRuns (s : State) (p : Nat) : Prop := s.galleryUp = true ∧ s.flag (Reg.galPortEnable.ix p) = true

/-- An enabled port receives data on the physical lane. -/
def LaneRuns (s : State) (p lane : Nat) : Prop := PortRuns s p ∧ s.usesLane p lane = true

/-- The lane shows as inverted. -/
def showSwap (s : State) (p lane : Nat) : State :=
  s.setReg (Reg.galPortStatusPolSwapCsi.ix p) (s.reg (Reg.galPortStatusPolSwapCsi.ix p) ||| 1 <<< lane)

section
variable {s : State} {p lane : Nat}

theorem laneInverts_of_unused (h : ¬LaneRuns s p lane) : s.laneInverts p lane = s :=
  if_pos (by simpa [LaneRuns, PortRuns, imp_iff_not_or] using h)

theorem laneFaults_of_unused (h : ¬LaneRuns s p lane) : s.laneFaults p lane = s :=
  if_pos (by simpa [LaneRuns, PortRuns, imp_iff_not_or] using h)

theorem clockGone_of_off (h : ¬PortRuns s p) : s.clockGone p = s :=
  if_pos (by simpa [PortRuns, imp_iff_not_or] using h)

theorem clockGone_of_on (h : PortRuns s p) : s.clockGone p =
    ((s.setFlag (Reg.galPortStatusNoClockCsi.ix p) true).setGalPort p { s.galPort p with faulted := true }).wireFault p := by
  obtain ⟨hup, hen⟩ := h
  exact if_neg (by simp [hup, hen])

variable (h : LaneRuns s p lane)
include h

theorem laneFaults_of_used : s.laneFaults p lane =
    ((s.setReg (Reg.galPortStatusLaneFaultCsi.ix p) (s.reg (Reg.galPortStatusLaneFaultCsi.ix p) ||| 1 <<< lane)).setGalPort p
      { s.galPort p with faulted := true }).wireFault p := by
  obtain ⟨⟨hup, hen⟩, hlane⟩ := h
  exact if_neg (by simp [hup, hen, hlane])

theorem laneInverts_of_used : s.laneInverts p lane =
    (if (s.galPort p).noted = 0 then (showSwap s p lane).note fcGalPolarity p else showSwap s p lane).setGalPort p
      { s.galPort p with noted := (s.galPort p).noted ||| 1#4 <<< lane } := by
  obtain ⟨⟨hup, hen⟩, hlane⟩ := h
  exact if_neg (by simp [hup, hen, hlane])

/-- The first lane of an enable that shows as inverted raises the note. -/
theorem laneInverts_of_first (hnew : (s.galPort p).noted = 0) : s.laneInverts p lane =
    ((showSwap s p lane).note fcGalPolarity p).setGalPort p
      { s.galPort p with noted := (s.galPort p).noted ||| 1#4 <<< lane } := by
  rw [laneInverts_of_used h, if_pos hnew]

theorem laneInverts_of_noted (hold : (s.galPort p).noted ≠ 0) : s.laneInverts p lane =
    (showSwap s p lane).setGalPort p { s.galPort p with noted := (s.galPort p).noted ||| 1#4 <<< lane } := by
  rw [laneInverts_of_used h, if_neg hold]

end

/-- Settles O42: the record by its fields' places, a wire's fault by whether the port and the lane are in use. -/
theorem frameRecords : Obligations.FrameRecords := by
  refine ⟨⟨frameRecord_fields, fun s n o => ⟨delivered_of_token, delivered_of_no_token⟩⟩, fun t p lane order s => ?_⟩
  have hpol := runs_lanePolarityInvert t p lane s
  have horder := runs_laneOrderFault t p order s
  have hlane := runs_laneFault t p lane s
  have hclock := runs_noClock t p s
  exact ⟨fun hused hnew => runs_congr hpol (laneInverts_of_first hused hnew),
    fun hused hold => runs_congr hpol (laneInverts_of_noted hused hold),
    fun hoff => runs_congr horder (laneOrder_of_off hoff),
    fun hon hstill => runs_congr horder (laneOrder_of_second hon hstill),
    fun hon hlost => runs_congr horder (laneOrder_of_lost hon hlost),
    fun b => rfl,
    usesLane_iff _ p lane,
    fun hused => runs_congr hlane (laneFaults_of_used hused),
    fun hon => runs_congr hclock (clockGone_of_on hon),
    fun hunused => ⟨runs_congr hpol (laneInverts_of_unused hunused), runs_congr hlane (laneFaults_of_unused hunused)⟩,
    fun hoff => runs_congr hclock (clockGone_of_off hoff)⟩

end Sys2Proof.Proofs

/-! PROOFS. Camera frames (12_gallery.md R381 to R390, R399 to R405): how they start, take lines and embedded data, time out and
end, and what an output stream does with one. Each event has its equations by case. -/

namespace Sys2Proof.Proofs
open Sys2Proof Sys2Proof.Machine Sys2Proof.Laws

/-! ### Frame starts and frame ends of a CSI port (R386, R388) -/

section
variable {s : State} {h : CsiHeader}

theorem frameStarts_of_off (hoff : s.portOn h.port = false) : s.frameStarts (.csi h) = s := if_pos (by simp [hoff])

theorem frameEnds_of_off (hoff : s.portOn h.port = false) : s.frameEnds (.csi h) = s := if_pos (by simp [hoff])

variable {b : State} (hon : s.portOn h.port = true)
include hon

theorem frameStarts_of_failed (hhdr : s.header h = (b, false)) : s.frameStarts (.csi h) = b := by
  simp [State.frameStarts, hon, hhdr]

theorem frameEnds_of_failed (hhdr : s.header h = (b, false)) : s.frameEnds (.csi h) = b := by
  simp [State.frameEnds, hon, hhdr]

/-- A frame start received whole ends the wait that a wire's fault has left. -/
theorem frameStarts_of_passed (hhdr : s.header h = (b, true)) : s.frameStarts (.csi h) =
    (let c := b.setGalPort h.port { b.galPort h.port with faulted := false }
     c.portStarts h.port fun i => c.reg (Reg.galInCtrlVc.ix i) == h.vc.toNat) := by
  simp [State.frameStarts, hon, hhdr]

theorem frameEnds_of_passed (hhdr : s.header h = (b, true)) : s.frameEnds (.csi h) =
    b.portEnds (b.streams fun g => g.port == h.port.val && g.vc == h.vc.toNat) := by
  simp [State.frameEnds, hon, hhdr]

end

/-! ### A frame start of a stream (R386, R389, R403, R404) -/

/-- The stream's late event comes first where its bound has passed. -/
def lateFirst (s : State) (i : Nat) : State :=
  if ((s.galIn i).lastStart.map fun t0 => t0 + (s.galIn i).lateAfter) = some s.now then s else s.frameIsLate i

theorem streamStarts_eq (s : State) (i : Nat) : s.streamStarts i =
    (let late := lateFirst (s.endFrame i) i
     let g := late.loadIn i (late.galIn i)
     let n := late.reg (Reg.galFrameFrame.ix i) + 1
     let f : GalFrame := { start := late.now, tick := late.tick.number, vt := late.vehicleTime, frame := BitVec.ofNat 32 n,
                           late := g.lateDone }
     let c := (late.setReg (Reg.galFrameFrame.ix i) n).setGalIn i
       { g with cur := some f, lastStart := some late.now, lateDone := false }
     (c.each (List.range 48) fun s o => s.outStarts i o).galEvent (0x1000 + i)) := by
  simp only [State.streamStarts, lateFirst, beq_iff_eq]
  rfl

/-! ### The pins of a parallel port (R384) -/

section
variable {s : State} {kind : LineKind} {c : PinEdge × PinEdge}

theorem pinsArrive_cons (s : State) (p : Nat) (kind : LineKind) (c : PinEdge × PinEdge) (r : List (PinEdge × PinEdge)) :
    s.pinsArrive p kind (c :: r) = (s.pinsArrive p kind [c]).pinsArrive p kind r := rfl

theorem pinsArrive_of_off {p : Nat} (hoff : s.portOn p = false) : s.pinsArrive p kind [c] = s := if_pos (by simp [hoff])

/-- One period of PCLK: its selected edge is sampled by every stream of the port and read in the port's SYNC mode. -/
theorem pinsArrive_of_on {q : Nat} (hon : s.portOn (12 + q) = true) : s.pinsArrive (12 + q) kind [c] =
    (let e := if s.flag (Reg.galPortPclkEdgeParallel.ix q) = true then c.2 else c.1
     let x := e.data.toNat % 2 ^ s.portWidth (12 + q)
     let d := s.each (s.parallel (12 + q)) fun s i =>
       s.setGalIn i { s.galIn i with cur := (s.galIn i).cur.map fun f => f.sampled x }
     if d.flag (Reg.galPortSyncParallel.ix q) = true then d.embeddedSync (12 + q) kind x else d.separate (12 + q) kind e x) := by
  refine (if_neg (by simp [hon])).trans ?_
  simp only [Nat.add_sub_cancel_left]

end

/-! ### A line's packet (R381, R383, R385, R387, R390) -/

/-- The port takes no packet: it is off, or waits for a frame start that is received whole. -/
def PacketsLost (s : State) (p : Nat) : Prop := s.portOn p = false ∨ (s.galPort p).faulted = true

theorem packetsLost_iff {s : State} {p : Nat} : PacketsLost s p ↔ (!s.portOn p || (s.galPort p).faulted) = true := by
  simp [PacketsLost]

/-- The Gallery takes the data type. -/
def DtKnown (dt : Nat) : Prop := dt = 0x1E ∨ (dtBits dt).isSome = true

/-- The streams that a line of this header joins. -/
def lineTakers (s : State) (h : CsiHeader) : List Nat :=
  s.streams fun g => g.port == h.port.val && g.vc == h.vc.toNat && g.dt == h.dt.toNat

/-- A line that fails its CRC or overflows is counted. -/
def lineCounted (s : State) (p : Nat) : LineKind → State
  | .crc => s.bump (Reg.galPortStatusCrcErrCsi.ix p)
  | .overflow => s.bump Reg.galStatusOverflow
  | .good => s

theorem dtUnknown_iff {dt : Nat} : (decide (dt ≠ 0x1E) && (dtBits dt).isNone) = true ↔ ¬DtKnown dt := by
  simp [DtKnown]

section
variable {s : State} {h : CsiHeader} {kind : LineKind} {px : List Nat}

theorem csiLine_of_lost (hlost : PacketsLost s h.port) : s.csiLineArrives h kind px = s :=
  if_pos (packetsLost_iff.1 hlost)

variable (hon : ¬PacketsLost s h.port) {b : State}
include hon

theorem csiLine_of_unsupported (hdt : ¬DtKnown h.dt.toNat) (hhdr : s.header h = (b, true)) :
    s.csiLineArrives h kind px =
      b.setGalPort h.port { b.galPort h.port with unsupported := (b.galPort h.port).unsupported + 1 } := by
  simp only [State.csiLineArrives, if_neg (packetsLost_iff.not.1 hon), hhdr, if_pos (dtUnknown_iff.2 hdt), if_true]

theorem csiLine_of_unsupported_failed (hdt : ¬DtKnown h.dt.toNat) (hhdr : s.header h = (b, false)) :
    s.csiLineArrives h kind px = b := by
  simp only [State.csiLineArrives, if_neg (packetsLost_iff.not.1 hon), hhdr, if_pos (dtUnknown_iff.2 hdt), Bool.false_eq_true,
    if_false]

variable (hdt : DtKnown h.dt.toNat)
include hdt

/-- A line lost with its header is a missing line of the streams that it matches. -/
theorem csiLine_of_failed (hhdr : s.header h = (b, false)) :
    s.csiLineArrives h kind px = b.takeLines (lineTakers b h) true .good [] := by
  simp only [State.csiLineArrives, if_neg (packetsLost_iff.not.1 hon), hhdr, if_neg (dtUnknown_iff.not_left.2 hdt),
    Bool.not_false, if_true]
  rfl

theorem csiLine_of_untaken (hhdr : s.header h = (b, true)) (hnone : lineTakers b h = []) :
    s.csiLineArrives h kind px = b := by
  simp only [State.csiLineArrives, if_neg (packetsLost_iff.not.1 hon), hhdr, if_neg (dtUnknown_iff.not_left.2 hdt),
    Bool.not_true, Bool.false_eq_true, if_false]
  exact if_pos (List.isEmpty_iff.2 hnone)

theorem csiLine_of_taken (hhdr : s.header h = (b, true)) (hsome : lineTakers b h ≠ []) :
    s.csiLineArrives h kind px = (lineCounted b h.port kind).takeLines (lineTakers b h) false kind px := by
  simp only [State.csiLineArrives, if_neg (packetsLost_iff.not.1 hon), hhdr, if_neg (dtUnknown_iff.not_left.2 hdt),
    Bool.not_true, Bool.false_eq_true, if_false]
  refine (if_neg (List.isEmpty_iff.not.2 hsome)).trans ?_
  cases kind <;> rfl

end

/-- The streams of a line take it one after the other, each into its frame in progress. -/
theorem takeLines_cons (s : State) (i : Nat) (r : List Nat) (lost : Bool) (kind : LineKind) (px : List Nat) :
    s.takeLines (i :: r) lost kind px =
      (match (s.galIn i).cur with
       | some f => s.setGalIn i { s.galIn i with cur := some (addLine (s.galIn i) f lost (kind == LineKind.overflow)
           (kind == LineKind.crc) px) }
       | none => s).takeLines r lost kind px := rfl

/-! ### Embedded data (R385, R399) -/

/-- The streams that embedded data of this header joins. -/
def dataTakers (s : State) (h : CsiHeader) : List Nat :=
  s.streams fun g => g.port == h.port.val && g.vc == h.vc.toNat

/-- The frame in progress of a stream keeps a packet's bytes. -/
def keepData (bs : List Byte) (s : State) (i : Nat) : State :=
  match (s.galIn i).cur with
  | some f => s.setGalIn i { s.galIn i with cur := some { f with embedded := f.embedded ++ [bs] } }
  | none => s

section
variable {s : State} {h : CsiHeader} {d : CsiPayload}

theorem embedded_of_lost (hlost : PacketsLost s h.port) : s.embeddedArrives h d = s :=
  if_pos (packetsLost_iff.1 hlost)

variable (hon : ¬PacketsLost s h.port) {b : State}
include hon

theorem embedded_of_untaken {ok : Bool} (hhdr : s.header h = (b, ok)) (hnone : ok = false ∨ dataTakers b h = []) :
    s.embeddedArrives h d = b := by
  simp only [State.embeddedArrives, if_neg (packetsLost_iff.not.1 hon), hhdr]
  exact if_pos (by simpa [dataTakers] using hnone)

theorem embedded_of_taken (hhdr : s.header h = (b, true)) (hsome : dataTakers b h ≠ []) : s.embeddedArrives h d =
    (if d.crcOk then b else b.bump (Reg.galPortStatusCrcErrCsi.ix h.port)).each (dataTakers b h) (keepData d.bytes) := by
  simp only [State.embeddedArrives, if_neg (packetsLost_iff.not.1 hon), hhdr]
  exact if_neg (by simpa [dataTakers] using hsome)

end

/-! ### A line joins a frame (R387, R388, R390) -/

/-- What a frame keeps of a line that was received: its pixels up to EXP_W, and its flags. -/
def keptLine (g : GalIn) (crc : Bool) (px : List Nat) : GalLine :=
  { px := px.take g.w
    flags := BitVec.ofNat 4 (b2n (px.length < g.w) + 2 * b2n (g.w < px.length) + 4 * b2n crc) }

theorem flags_getLsbD : ∀ short long crc : Bool,
    let v := BitVec.ofNat 4 (b2n short + 2 * b2n long + 4 * b2n crc)
    v.getLsbD 0 = short ∧ v.getLsbD 1 = long ∧ v.getLsbD 2 = crc ∧ v.getLsbD 3 = false := by decide

theorem keptLine_flags (g : GalIn) (crc : Bool) (px : List Nat) :
    let v := (keptLine g crc px).flags
    (v.getLsbD 0 = true ↔ px.length < g.w) ∧ (v.getLsbD 1 = true ↔ g.w < px.length) ∧
    (v.getLsbD 2 = true ↔ crc = true) ∧ v.getLsbD 3 = false := by
  obtain ⟨hshort, hlong, hcrc, hmissing⟩ := flags_getLsbD (px.length < g.w) (g.w < px.length) crc
  exact ⟨(Bool.eq_iff_iff.1 hshort).trans decide_eq_true_iff, (Bool.eq_iff_iff.1 hlong).trans decide_eq_true_iff,
    Bool.eq_iff_iff.1 hcrc, hmissing⟩

section
variable {g : GalIn} {f : GalFrame} {crc : Bool} {px : List Nat}

theorem addLine_of_room (h : f.lines.length < g.h) :
    addLine g f false false crc px = { f with lines := f.lines ++ [keptLine g crc px] } := if_neg (Nat.not_le.2 h)

theorem addLine_of_full (h : g.h ≤ f.lines.length) : addLine g f false false crc px = { f with extra := f.extra + 1 } :=
  if_pos h

theorem addLine_of_lost {lost over_ : Bool} (h : lost = true ∨ over_ = true) : addLine g f lost over_ crc px =
    { f with lost := f.lost + b2n over_
             lines := if f.lines.length < g.h then f.lines ++ [{ px := [], flags := 8 }] else f.lines } := by
  have hgone : (lost || over_) = true := by simpa using h
  by_cases hroom : f.lines.length < g.h
  · simp only [addLine, hgone, if_pos hroom, if_neg (Nat.not_le.2 hroom), if_true]
  · simp only [addLine, hgone, if_neg hroom, if_pos (Nat.not_lt.1 hroom), if_true]

theorem addLine_lost_fields {lost over_ : Bool} (h : lost = true ∨ over_ = true) :
    let x := addLine g f lost over_ crc px
    x.extra = f.extra ∧ x.lost = f.lost + (if over_ then 1 else 0) ∧ x.embedded = f.embedded ∧
    x.lines = if f.lines.length < g.h then f.lines ++ [{ px := [], flags := 8 }] else f.lines := by
  rw [addLine_of_lost h]
  exact ⟨rfl, rfl, rfl, rfl⟩

/-- A line that was received changes only the frame's lines and their count. -/
theorem addLine_keeps (g : GalIn) (f : GalFrame) (crc : Bool) (px : List Nat) :
    let h := addLine g f false false crc px
    h.lost = f.lost ∧ h.frame = f.frame ∧ h.tick = f.tick ∧ h.vt = f.vt ∧ h.start = f.start ∧ h.embedded = f.embedded := by
  rcases Nat.lt_or_ge f.lines.length g.h with hroom | hfull
  · rw [addLine_of_room hroom]
    exact ⟨rfl, rfl, rfl, rfl, rfl, rfl⟩
  · rw [addLine_of_full hfull]
    exact ⟨rfl, rfl, rfl, rfl, rfl, rfl⟩

end

/-! ### Frames that time out or come late (R388, R389) -/

section
variable {s : State} {i : Nat}

theorem endFrame_of_idle (h : (s.galIn i).cur = none) : s.endFrame i = s := by
  simp only [State.endFrame, h]

theorem frameTimesOut_of_idle (h : (s.galIn i).cur = none) : s.frameTimesOut i = s := by
  simp only [State.frameTimesOut, h]

/-- Nanoseconds after its start at which a frame ends without a frame end. -/
def frameLimit (g : GalIn) : Nat := if g.period = 0 then 1000000000 else 2000 * g.period

theorem frameTimesOut_of_running {f : GalFrame} (h : (s.galIn i).cur = some f) (hup : s.galleryUp = true) :
    s.frameTimesOut i = if s.now < f.start + frameLimit (s.galIn i) then s else s.endFrame i := by
  have hlim : (if (s.galIn i).period = 0 then ms 1000 else us (2 * (s.galIn i).period)) =
      frameLimit (s.galIn i) := by
    simp only [frameLimit, ms, us]
    split <;> omega
  simp [State.frameTimesOut, h, hup, hlim]

/-- The late event of a frame start awaited since `t0` is due. -/
def LateDue (s : State) (i t0 : Nat) : Prop :=
  s.galleryUp = true ∧ (s.galIn i).on = true ∧ (s.galIn i).lateDone = false ∧ t0 + (s.galIn i).lateAfter ≤ s.now

theorem frameIsLate_of_unwatched (h : (s.galIn i).lastStart = none ∨ (s.galIn i).period = 0) : s.frameIsLate i = s := by
  cases hlast : (s.galIn i).lastStart with
  | none => simp only [State.frameIsLate, hlast]
  | some t0 =>
    have hperiod := h.resolve_left (by simp [hlast])
    simp [State.frameIsLate, hlast, hperiod]

variable {t0 : Nat} (hlast : (s.galIn i).lastStart = some t0) (hperiod : (s.galIn i).period ≠ 0)
include hperiod

theorem not_lateDue_iff : ¬LateDue s i t0 ↔
    (!s.galleryUp || !(s.galIn i).on || decide ((s.galIn i).period = 0) || (s.galIn i).lateDone ||
      decide (s.now < t0 + (s.galIn i).lateAfter)) = true := by
  simp [LateDue, hperiod, imp_iff_not_or, or_assoc]

include hlast

theorem frameIsLate_of_due (h : LateDue s i t0) : s.frameIsLate i =
    ((s.setGalIn i { s.galIn i with lateDone := true }).note fcGalLate i).galEvent (0x3000 + i) := by
  simp only [State.frameIsLate, hlast, if_neg ((not_lateDue_iff hperiod).not_right.1 h)]

theorem frameIsLate_of_early (h : ¬LateDue s i t0) : s.frameIsLate i = s := by
  simp only [State.frameIsLate, hlast, if_pos ((not_lateDue_iff hperiod).1 h)]

end

/-! ### What an output stream does with a frame (R388, R400, R405) -/

/-- The frame is dropped: it is short and FRAME_POLICY drops such frames, or the device is STOPPED. -/
def FrameDrops (s : State) (x : GalEnd) : Prop :=
  ((x.frame.sum x.regs.h).short = true ∧ x.regs.drops = true) ∨ s.stopped = true

section
variable {s c d : State} {n : Nat} {cfg : List (BitVec 32)} {x : GalEnd}

theorem frameDrops_iff : FrameDrops s x ↔ ((x.frame.sum x.regs.h).short && x.regs.drops || s.stopped) = true := by
  simp [FrameDrops]

theorem outEnds_of_dropped (hdrop : FrameDrops s x) (hrec : s.putFrameRecord { s.galOut n with cfg := cfg } x.frame
    (x.frame.sum x.regs.h) true false x.ended = (c, .ok ())) : s.outEnds n cfg x = (c, true) := by
  simp only [State.outEnds, if_pos (frameDrops_iff.1 hdrop), hrec]

variable (hkeep : ¬FrameDrops s x)
include hkeep

theorem outEnds_of_written
    (hrows : runAcc s (writeRows (GalOut.slotDva { s.galOut n with cfg := cfg })
      (s.outRows x.regs { s.galOut n with cfg := cfg } x.frame)) = (c, .ok ()))
    (hrec : c.putFrameRecord { s.galOut n with cfg := cfg } x.frame (x.frame.sum x.regs.h) false false x.ended =
      (d, .ok ())) :
    s.outEnds n cfg x = (d.delivered n { s.galOut n with cfg := cfg }, true) := by
  simp only [State.outEnds, if_neg (frameDrops_iff.not.1 hkeep), hrows, hrec]

theorem outEnds_of_failed {st : Byte} {det : BitVec 32}
    (hrows : runAcc s (writeRows (GalOut.slotDva { s.galOut n with cfg := cfg })
      (s.outRows x.regs { s.galOut n with cfg := cfg } x.frame)) = (c, .error (.status st det)))
    (hrec : c.putFrameRecord { s.galOut n with cfg := cfg } x.frame (x.frame.sum x.regs.h) true true x.ended =
      (d, .ok ())) :
    s.outEnds n cfg x = (d.outFailed n, true) := by
  simp only [State.outEnds, if_neg (frameDrops_iff.not.1 hkeep), hrows, hrec]

end

/-- Settles O41: each event by whether its port receives and how its header fares, a line and a frame's end by their cases. -/
theorem framesMeasured : Obligations.FramesMeasured := by
  refine ⟨fun t h s => ?_, fun t h kind px crcOk bs s => ?_, fun g f crc px => ?_, fun t i h s => ?_⟩
  · have hrun := runs_frameStart t (.csi h) s
    exact ⟨fun hoff => runs_congr hrun (frameStarts_of_off hoff),
      fun hon b hhdr => runs_congr hrun (frameStarts_of_failed hon hhdr),
      fun hon b hhdr => runs_congr hrun (frameStarts_of_passed hon hhdr),
      header_of_bad, inOrder_iff _ _ _, header_of_inOrder,
      fun hgood hord => ⟨header_of_repeated hgood hord, header_of_disordered hgood hord⟩,
      streamStarts_eq, fun q clocks => runs_frameStart t (.pins q clocks) s,
      fun b q kind c r => ⟨pinsArrive_cons b _ kind c r, pinsArrive_of_off, pinsArrive_of_on⟩⟩
  · have hline := runs_csiLine t (.csi h) kind px s
    have hdata := runs_embeddedDataPacket t h ⟨bs, crcOk⟩ s
    refine ⟨fun hwf hoff => runs_congr (hline hwf) (csiLine_of_lost hoff), fun hwf hon b ok hhdr =>
        ⟨fun hdt hok => ?_, fun hdt hok => ?_, fun hdt hok => ?_, fun hdt hok hnone => ?_, fun hdt hok hsome => ?_⟩,
      fun hwf hoff => runs_congr (hdata hwf) (embedded_of_lost hoff), fun hwf hon b ok hhdr =>
        ⟨fun hnone => runs_congr (hdata hwf) (embedded_of_untaken hon hhdr hnone), fun hok hsome => ?_⟩,
      fun q clocks => runs_csiLine t (.pins q clocks) kind px s,
      fun b i r lost => ⟨rfl, takeLines_cons b i r lost kind px⟩⟩
    all_goals subst hok
    · exact runs_congr (hline hwf) (csiLine_of_unsupported hon hdt hhdr)
    · exact runs_congr (hline hwf) (csiLine_of_unsupported_failed hon hdt hhdr)
    · exact runs_congr (hline hwf) (csiLine_of_failed hon hdt hhdr)
    · exact runs_congr (hline hwf) (csiLine_of_untaken hon hdt hhdr hnone)
    · exact runs_congr (hline hwf) (csiLine_of_taken hon hdt hhdr hsome)
    · exact runs_congr (hdata hwf) (embedded_of_taken hon hhdr hsome)
  · obtain ⟨hlost, hframe, htick, hvt, hstart, hembedded⟩ := addLine_keeps g f crc px
    refine ⟨fun hroom => ?_, fun hfull => ?_, hlost, hframe, htick, hvt, hstart, hembedded,
      fun lost over_ h => addLine_lost_fields h⟩
    · rw [addLine_of_room hroom]
      exact ⟨keptLine g crc px, rfl, rfl, rfl, keptLine_flags g crc px⟩
    · rw [addLine_of_full hfull]
      exact ⟨rfl, rfl⟩
  · have hend := runs_frameEnd t (.csi h) s
    have htimeout := runs_frameTimeout t i s
    have hlate := runs_frameLate t i s
    refine ⟨fun hoff => runs_congr hend (frameEnds_of_off hoff),
      fun hon b hhdr => runs_congr hend (frameEnds_of_failed hon hhdr),
      fun hon b hhdr => runs_congr hend (frameEnds_of_passed hon hhdr), fun q clocks => runs_frameEnd t (.pins q clocks) s,
      fun f hcur hup => ⟨fun hover => ?_, fun hearly => ?_⟩,
      fun hidle => ⟨runs_congr htimeout (frameTimesOut_of_idle hidle), endFrame_of_idle hidle⟩,
      fun t0 hlast hperiod => ⟨fun hdue => runs_congr hlate (frameIsLate_of_due hlast hperiod hdue),
        fun hearly => runs_congr hlate (frameIsLate_of_early hlast hperiod hearly)⟩,
      fun hnone => runs_congr hlate (frameIsLate_of_unwatched hnone),
      fun b c d n cfg x => ⟨outEnds_of_dropped, outEnds_of_written, fun hkeep st det => outEnds_of_failed hkeep⟩⟩
    · exact runs_congr htimeout ((frameTimesOut_of_running hcur hup).trans (if_neg (Nat.not_lt.2 hover)))
    · exact runs_congr htimeout ((frameTimesOut_of_running hcur hup).trans (if_pos hearly))

end Sys2Proof.Proofs

/-! PROOFS. The checks of the Porch's microphones and wires (13_porch.md R419 to R422): what a window shows of a channel, what
the channel becomes, which wires are tested, and the fault of a beam with too few healthy channels. -/

namespace Sys2Proof.Proofs
open Sys2Proof Sys2Proof.Machine Sys2Proof.Laws

/-! ### What a window shows of a channel (R419) -/

/-- The density of ones lies below 1/64 or above 63/64 of the window's 4,096 clocks. -/
def OddDensity (o : MicObs) : Prop := 64 * o.ones < 4096 ∨ 63 * 4096 < 64 * o.ones

theorem oddDensity_iff {o : MicObs} : OddDensity o ↔ (decide (o.ones < 64) || decide (4032 < o.ones)) = true := by
  simp only [OddDensity, Bool.or_eq_true, decide_eq_true_eq]
  omega

section
variable {o : MicObs}

theorem micJudge_of_open (hodd : OddDensity o) (hpull : o.follows = true) : micJudge o = 1 := by
  rw [micJudge, if_pos (oddDensity_iff.1 hodd), if_pos hpull]

theorem micJudge_of_stuck (hodd : OddDensity o) (hpull : o.follows = false) : micJudge o = 2 := by
  rw [micJudge, if_pos (oddDensity_iff.1 hodd), hpull]
  rfl

theorem micJudge_of_no_driver (heven : ¬OddDensity o) (hsame : 4090 ≤ o.same) : micJudge o = 3 := by
  rw [micJudge, if_neg (oddDensity_iff.not.1 heven), if_pos hsame]

theorem micJudge_of_ok (heven : ¬OddDensity o) (hdiffer : o.same < 4090) : micJudge o = 0 := by
  rw [micJudge, if_neg (oddDensity_iff.not.1 heven), if_neg (Nat.not_le.2 hdiffer)]

end

/-! ### What the channel becomes (R420) -/

/-- The count of a channel's good windows. -/
def putGood (s : State) (c n : Nat) : State := { s with por := { s.por with good := lput s.por.good c n } }

section
variable {s : State} {c : Nat} {o : MicObs} (hclock : s.clockOff c = false)
include hclock

/-- A fault shows at once. -/
theorem micChannel_of_fault (hbad : micJudge o ≠ 0) : s.micChannel c o = putGood (s.setChState c (micJudge o)) c 0 := by
  simp only [State.micChannel, hclock, Bool.false_eq_true, if_false, if_pos hbad]
  rfl

variable (hgood : micJudge o = 0)
include hgood

theorem micChannel_of_healthy (hok : s.chState c = 0) : s.micChannel c o = putGood s c 0 := by
  simp only [State.micChannel, hclock, Bool.false_eq_true, if_false, hgood, ne_eq, not_true_eq_false, if_pos hok]
  rfl

/-- A channel in a fault state counts its good windows, and the fourth in a row makes it OK. -/
theorem micChannel_of_recovering (hbad : s.chState c ≠ 0) : s.micChannel c o =
    if 4 ≤ lget s.por.good c 0 + 1 then putGood (s.setChState c 0) c 0 else putGood s c (lget s.por.good c 0 + 1) := by
  simp only [State.micChannel, hclock, Bool.false_eq_true, if_false, hgood, ne_eq, not_true_eq_false, if_neg hbad]
  rfl

/-- Fewer than four good windows leave every register. -/
theorem micChannel_regs_of_early (hfew : lget s.por.good c 0 + 1 < 4) : (s.micChannel c o).regs = s.regs := by
  by_cases hok : s.chState c = 0
  · rw [micChannel_of_healthy hclock hgood hok]
    rfl
  · rw [micChannel_of_recovering hclock hgood hok, if_neg (Nat.not_le.2 hfew)]
    rfl

end

/-! ### The windows (R419, R421) -/

section
variable {s : State}

theorem micWindow_of_capturing (hcap : s.capturing = true) (obs : List MicObs) : s.micWindow obs =
    (s.each (List.range 16) fun s c =>
      match obs[s.wireChannel c]? with
      | some o => s.micChannel c o
      | none => s).beamCheck := if_neg (by simp [hcap])

theorem micWindow_of_idle (hcap : s.capturing = false) (obs : List MicObs) : s.micWindow obs = s :=
  if_pos (by simp [hcap])

variable {level : Nat} (lags : List Int)

/-- The beam's level is too low for a test, or the Porch rests. -/
theorem swapWindow_of_untested (h : s.capturing = false ∨ s.reg Reg.porCtrlDetLevel ≤ level) :
    s.swapWindow level lags = s := if_pos (by simpa using h)

theorem swapWindow_of_tested (hcap : s.capturing = true) (hloud : level < s.reg Reg.porCtrlDetLevel) :
    s.swapWindow level lags = s.each (List.range 8) fun s d =>
      if s.clockOff (2 * d) || (s.trimGap d).natAbs < 64 then s
      else
        let n := if s.looksSwapped d lags then lget s.por.swapRun d 0 + 1 else 0
        let t := { s with por := { s.por with swapRun := lput s.por.swapRun d (if 4 ≤ n then 0 else n) } }
        if 4 ≤ n then t.wireSwapped d else t := if_neg (by simp [hcap, hloud])

end

/-! ### The beam's fault (R420) -/

/-- The beam has too few healthy channels; one without a clock does not count as missing. -/
def beamLow (s : State) : Bool :=
  ((maskBits 16 s.por.profBeam.toNat).filter fun c => s.chHealthy c || s.chState c == 4).length < s.reg Reg.porCtrlMinBeam

/-- The POR_MIC fault is held, or not. -/
def holdBeamFault (s : State) (b : Bool) : State := { s with por := { s.por with beamFault := b } }

theorem beamCheck_eq (s : State) : s.beamCheck = holdBeamFault
    (if beamLow s && !s.por.beamFault then s.raiseAon (mkReport fcPorMic 1 0 0 true)
     else if !beamLow s && s.por.beamFault then s.endCondition fcPorMic fun r => 1 ≤ r.level && r.unit == 0
     else s) (beamLow s) := rfl

section
variable {s : State}

theorem beamCheck_of_low (hlow : beamLow s = true) (hnew : s.por.beamFault = false) :
    s.beamCheck = holdBeamFault (s.raiseAon (mkReport fcPorMic 1 0 0 true)) true := by
  rw [beamCheck_eq, hlow, hnew]
  rfl

theorem beamCheck_of_recovered (hok : beamLow s = false) (hheld : s.por.beamFault = true) : s.beamCheck =
    holdBeamFault (s.endCondition fcPorMic fun r => 1 ≤ r.level && r.unit == 0) false := by
  rw [beamCheck_eq, hok, hheld]
  rfl

/-- A fault that is held as the beam stands stays so. -/
theorem beamCheck_of_steady (h : beamLow s = s.por.beamFault) : s.beamCheck = s := by
  rw [beamCheck_eq, h, Bool.and_not_self, Bool.not_and_self]
  rfl

end

/-- Settles O44: each window by whether the Porch captures, a channel by its judgement and its good windows, the beam by
whether its fault is held. -/
theorem porchChecks : Obligations.PorchChecks := by
  refine ⟨fun t obs level lags s => ?_,
    fun o => ⟨micJudge_of_open, micJudge_of_stuck, micJudge_of_no_driver, micJudge_of_ok⟩,
    fun s c o hclock => ⟨fun hbad => ?_, micChannel_regs_of_early hclock, fun hgood hill hfour => ?_⟩,
    fun s => ⟨fun hlow => beamCheck_of_low (decide_eq_true hlow),
      fun hsteady => beamCheck_of_steady (Bool.eq_iff_iff.2 (decide_eq_true_iff.trans hsteady)),
      fun hok => beamCheck_of_recovered (decide_eq_false hok)⟩⟩
  · have hmic := runs_micCheckWindow t obs s
    have hswap := runs_swapTestWindow t level lags s
    exact ⟨fun hwf hcap => runs_congr (hmic hwf) (micWindow_of_capturing hcap obs),
      fun hwf hcap => runs_congr (hmic hwf) (micWindow_of_idle hcap obs),
      fun hwf hcap hloud => runs_congr (hswap hwf) (swapWindow_of_tested lags hcap hloud),
      fun hwf hrest => runs_congr (hswap hwf) (swapWindow_of_untested lags hrest)⟩
  · rw [micChannel_of_fault hclock hbad]
    rfl
  · rw [micChannel_of_recovering hclock hgood hill, if_pos hfour]
    rfl

end Sys2Proof.Proofs

/-! PROOFS. Porch samples (13_porch.md R411, R412, R420, R423 to R426, R430, R440, R441, R444): the wires' bits, the frame of the
pre-roll ring that a sample leaves, the sample register, and the feed record. -/

namespace Sys2Proof.Proofs
open Sys2Proof Sys2Proof.Machine Sys2Proof.Laws

/-! ### The bits of the wires (R411) -/

/-- The bits of the first `n` wires, two for each: at the rising and at the falling edge. -/
def wireBits (rise fall : BitVec 8) (n : Nat) : Nat :=
  (List.range n).foldl (fun a d => a + b2n (rise.getLsbD d) <<< (2 * d) + b2n (fall.getLsbD d) <<< (2 * d + 1)) 0

theorem wireBits_succ (rise fall : BitVec 8) (n : Nat) : wireBits rise fall (n + 1) =
    wireBits rise fall n + b2n (rise.getLsbD n) <<< (2 * n) + b2n (fall.getLsbD n) <<< (2 * n + 1) := by
  simp only [wireBits, List.range_succ, List.foldl_append, List.foldl_cons, List.foldl_nil]

theorem wireBits_lt (rise fall : BitVec 8) (n : Nat) : wireBits rise fall n < 2 ^ (2 * n) := by
  induction n with
  | zero => exact Nat.one_pos
  | succ n ih =>
    rw [wireBits_succ]
    exact add_shiftLeft_lt (add_shiftLeft_lt ih (b2n_lt _) rfl) (b2n_lt _) rfl

/-- Each wire's two bits stand above those of the wires before it. -/
theorem bitsAt_wireBits (rise fall : BitVec 8) {n d : Nat} (hd : d < n) :
    bitsAt (wireBits rise fall n) (2 * d) 1 = b2n (rise.getLsbD d) ∧
    bitsAt (wireBits rise fall n) (2 * d + 1) 1 = b2n (fall.getLsbD d) := by
  induction n with
  | zero => omega
  | succ n ih =>
    rw [wireBits_succ]
    have hbelow := wireBits_lt rise fall n
    by_cases hlast : d = n
    · subst hlast
      refine ⟨?_, bitsAt_add_shiftLeft_top (add_shiftLeft_lt hbelow (b2n_lt _) rfl) (b2n_lt _)⟩
      rw [bitsAt_add_shiftLeft_of_le _ _ (by omega)]
      exact bitsAt_add_shiftLeft_top hbelow (b2n_lt _)
    · simp (disch := omega) only [bitsAt_add_shiftLeft_of_le]
      exact ih (by omega)

theorem testBit_of_bitsAt {x i : Nat} {b : Bool} (h : bitsAt x i 1 = b2n b) : x.testBit i = b := by
  have hbit : (bitsAt x i 1).testBit 0 = x.testBit i := testBit_bitsAt x i 1 0
  rw [← hbit, h]
  cases b <;> rfl

theorem channelBits_getLsbD (rise fall : BitVec 8) (d : Nat) (hd : d < 8) :
    (channelBits (rise, fall)).getLsbD (2 * d) = rise.getLsbD d ∧
    (channelBits (rise, fall)).getLsbD (2 * d + 1) = fall.getLsbD d := by
  have hword : channelBits (rise, fall) = BitVec.ofNat 16 (wireBits rise fall 8) := rfl
  obtain ⟨hrise, hfall⟩ := bitsAt_wireBits rise fall hd
  rw [hword, BitVec.getLsbD_ofNat, BitVec.getLsbD_ofNat, testBit_of_bitsAt hrise, testBit_of_bitsAt hfall]
  simp [show 2 * d < 16 by omega, show 2 * d + 1 < 16 by omega]

/-! ### A frame of the pre-roll ring (R424) -/

/-- Elements of three bytes written one after the other from a base on. -/
def writeElems (f : Nat → List Byte) (base : Nat) (m : Mem) (l : List Nat) : Mem :=
  l.zipIdx.foldl (fun m e => mwrite m (base + 3 * e.2) (f e.1)) m

section
variable {f : Nat → List Byte} (hf : ∀ c, (f c).length = 3) {base : Nat} {m : Mem}
include hf

theorem tget_writeElems {l : List Nat} {i c j : Nat} (hi : l[i]? = some c) (hj : j < (f c).length) :
    tget (writeElems f base m l) (base + 3 * i + j) 0 = (f c)[j] := by
  have hj3 : j < 3 := hf c ▸ hj
  induction l using List.reverseRecOn with
  | nil => simp at hi
  | append_singleton l x ih =>
    have hstep : writeElems f base m (l ++ [x]) = mwrite (writeElems f base m l) (base + 3 * l.length) (f x) := by
      simp [writeElems, List.zipIdx_append]
    rw [hstep]
    rcases Nat.lt_trichotomy i l.length with hbefore | rfl | hbeyond
    · rw [tget_mwrite_out _ _ _ (by omega)]
      exact ih (by rwa [List.getElem?_append_left hbefore] at hi)
    · obtain rfl : x = c := by simpa using hi
      exact tget_mwrite_in _ _ _ hj
    · rw [List.getElem?_eq_none (by simp; omega)] at hi
      contradiction

/-- Each element reads as it was written. -/
theorem mread_writeElems {l : List Nat} {i c : Nat} (hi : l[i]? = some c) :
    mread (writeElems f base m l) (base + 3 * i) 3 = f c :=
  List.ext_getElem (by rw [mread_length, hf]) fun _ _ hj => (getElem_mread _ _ _).trans (tget_writeElems hf hi hj)

end

theorem ringWrite_ring (s : State) (n : Nat) (vals : List (BitVec 24)) : (s.ringWrite n vals).por.ring =
    writeElems (fun c => toBytes 3 (lget vals c 0).toNat) (n % s.ringFrames * (3 * s.ringChans.length)) s.por.ring
      s.ringChans := rfl

/-- A written frame holds each channel of RING_MASK at its place. -/
theorem mread_ringWrite {s : State} {i c : Nat} (hi : s.ringChans[i]? = some c) (n : Nat) (vals : List (BitVec 24)) :
    mread (s.ringWrite n vals).por.ring (s.ringAddr n i) 3 = toBytes 3 (lget vals c 0).toNat := by
  rw [ringWrite_ring]
  exact mread_writeElems (fun c => toBytes_length 3 (lget vals c 0).toNat) hi

/-! ### What a sample leaves (R412, R420, R423 to R425, R430) -/

/-- The beam takes at most a free value of the state. -/
theorem beamOf_keeps {β : Type} (π : State → β) (hfree : ∀ s : State, π s.fresh.2 = π s) (s : State)
    (vals : List (BitVec 24)) : π (s.beamOf vals).2 = π s := by
  unfold State.beamOf
  dsimp only
  split
  · rfl
  · exact hfree s

/-- A silent channel's aligned sample is zero. -/
theorem alignedAll_of_silent {s : State} {c : Nat} (h : s.silent c = true) (hist : List (List (BitVec 24))) :
    lget (s.alignedAll hist) c 0 = 0 := by
  rw [lget, State.alignedAll, List.getElem?_map]
  by_cases hc : c < 16
  · rw [List.getElem?_range hc, Option.map_some, if_pos h]
    rfl
  · rw [List.getElem?_eq_none (by simpa using hc)]
    rfl

section
variable (s : State) (x : List (BitVec 8 × BitVec 8))

/-- The state that the beam of the sample's aligned signals leaves. -/
def afterBeam : State := (s.beamOf (s.takeSample x).por.newest).2

theorem afterBeam_por : (afterBeam s x).por = s.por := beamOf_keeps State.por (fun _ => rfl) s _

theorem takeSample_ring : (s.takeSample x).por.ring =
    ((afterBeam s x).ringWrite s.por.sample.toNat (s.takeSample x).por.newest).por.ring := rfl

theorem takeSample_sample : (s.takeSample x).por.sample = s.por.sample + 1 := by
  rw [← afterBeam_por s x]
  rfl

theorem takeSample_mem : (s.takeSample x).mem = s.mem := beamOf_keeps State.mem (fun _ => rfl) s _

theorem takeSample_regs : (s.takeSample x).regs = s.regs := beamOf_keeps State.regs (fun _ => rfl) s _

end

theorem ringChans_congr {s t : State} (h : t.por = s.por) : t.ringChans = s.ringChans := by
  rw [State.ringChans, State.ringChans, h]

theorem ringAddr_congr {s t : State} (h : t.por = s.por) (n i : Nat) : t.ringAddr n i = s.ringAddr n i := by
  rw [State.ringAddr, State.ringAddr, State.ringFrames, State.ringFrames, ringChans_congr h]

/-- The frame of the sample holds the newest aligned sample of each channel of RING_MASK. -/
theorem mread_takeSample_ring {s : State} {i c : Nat} (hi : s.ringChans[i]? = some c) (x : List (BitVec 8 × BitVec 8)) :
    mread (s.takeSample x).por.ring (s.ringAddr s.por.sample.toNat i) 3 =
      toBytes 3 (lget (s.takeSample x).por.newest c 0).toNat := by
  have hpor := afterBeam_por s x
  rw [takeSample_ring, ← ringAddr_congr hpor]
  exact mread_ringWrite ((ringChans_congr hpor).symm ▸ hi) _ _

/-! ### Samples, the end of settling and POR_SAMPLE (R425, R426, R430, R444) -/

section
variable {s : State}

theorem feedOn_of_down (h : s.mainUp = false) : s.feedOn = s := by
  simp [State.feedOn, h]

theorem sampleOn_of_capturing (h : s.capturing = true) (x : List (BitVec 8 × BitVec 8)) :
    s.sampleOn x = (s.takeSample x).feedOn := if_pos h

theorem sampleOn_of_idle (h : s.capturing = false) (x : List (BitVec 8 × BitVec 8)) : s.sampleOn x = s :=
  if_neg (by simp [h])

theorem settled_of_last (h : s.por.settle_ = 1) :
    s.settled = { s.porEvent 2 with por := { (s.porEvent 2).por with settle_ := 0 } } := if_pos h

theorem settled_of_other (h : s.por.settle_ ≠ 1) : s.settled = s := if_neg h

theorem hostRead_of_closed (h : s.regOpen = false) (off : Nat) : s.hostRead off = s := if_neg (by simp [h])

/-- POR_SAMPLE_LO reads the sample number's low half. -/
theorem regValue_porSampleLo (s : State) :
    BitVec.ofNat 32 (s.regValue 0x18014) = BitVec.ofNat 32 s.por.sample.toNat := by
  have hlive : s.liveAon 0x18014 ++ s.liveMain 0x18014 = [(Reg.porSampleLoSampleLo, s.por.sample.toNat)] := by
    simp [State.liveAon, State.liveMain]
  have hhere : s.regAbsent 0x18014 = false := rfl
  apply BitVec.eq_of_toNat_eq
  rw [State.regValue, hhere, hlive, BitVec.toNat_ofNat, BitVec.toNat_ofNat]
  exact bitsAt_putBits_same (s.word 0x18014).toNat 0 32 _

theorem hostRead_porSampleLo (h : s.regOpen = true) : s.hostRead 0x18014 =
    { s with por := { s.por with sampleHi := s.por.sample.extractLsb' 32 32 }
             readData := BitVec.ofNat 32 s.por.sample.toNat } := by
  rw [← regValue_porSampleLo]
  exact if_pos h

end

/-! ### The feed record (R440, R441) -/

/-- Each field stands above the bits of those before it. -/
theorem feedRecord_fields (f : Feed) :
    bitsAt f.record 0 64 = f.written.toNat ∧ bitsAt f.record 64 64 = f.first.toNat ∧
    bitsAt f.record 128 64 = (f.next - 1).toNat ∧ bitsAt f.record 192 1 = b2n f.gap ∧ bitsAt f.record 193 1 = b2n f.muted := by
  have h64 := f.written.isLt
  have h128 := add_shiftLeft_lt (n := 128) h64 f.first.isLt rfl
  have h192 := add_shiftLeft_lt (n := 192) h128 (f.next - 1).isLt rfl
  have h193 := add_shiftLeft_lt (n := 193) h192 (b2n_lt f.gap) rfl
  unfold Feed.record
  simp (disch := omega) only [bitsAt_add_shiftLeft_of_le]
  exact ⟨bitsAt_of_lt h64, bitsAt_add_shiftLeft_top h64 f.first.isLt, bitsAt_add_shiftLeft_top h128 (f.next - 1).isLt,
    bitsAt_add_shiftLeft_top h192 (b2n_lt _), bitsAt_add_shiftLeft_top h193 (b2n_lt _)⟩

/-- The write of a feed's record: the last 32 bytes of its buffer. -/
def feedWrite (f : Feed) : Acc Undo := wr whoBridge (f.base.toNat + f.pages * 65536 - 32) (toBytes 32 f.record)

section
variable {s b : State} {f : Feed}

theorem feedRecord_of_no_feed (h : s.por.feed = none) : s.feedRecord = s := by
  rw [State.feedRecord, h]

variable (h : s.por.feed = some f)
include h

theorem feedRecord_of_written {u : Undo} (hw : runAcc s (feedWrite f) = (b, .ok u)) : s.feedRecord = b := by
  simp only [feedWrite] at hw
  simp only [State.feedRecord, h, hw]

/-- A record held at its page is written later. -/
theorem feedRecord_of_held {d : Nat} {walk : Bool} (hw : runAcc s (feedWrite f) = (b, .error (.blocked d walk))) :
    s.feedRecord = s := by
  simp only [feedWrite] at hw
  simp only [State.feedRecord, h, hw]

end

/-- Settles O43: each event by its case, the ring's frame by the places of its elements, the feed record by its fields. -/
theorem porchSamples : Obligations.PorchSamples := by
  refine ⟨fun t x s => ?_, fun s x i c => ?_, fun t s => ?_⟩
  · have hsample := runs_porchSample t x s
    have hsettling := runs_settlingEnd t s
    have hread := runs_porSampleLoRead t s
    exact ⟨fun hcap => runs_congr hsample (sampleOn_of_capturing hcap x), fun b => feedOn_of_down,
      fun hidle => runs_congr hsample (sampleOn_of_idle hidle x),
      fun hlast => runs_congr hsettling (settled_of_last hlast),
      fun hother => runs_congr hsettling (settled_of_other hother),
      fun hopen => runs_congr hread (hostRead_porSampleLo hopen),
      fun hclosed => runs_congr hread (hostRead_of_closed hclosed _)⟩
  · exact ⟨channelBits_getLsbD, takeSample_sample s x,
      fun hi => ⟨fun hsilent => alignedAll_of_silent hsilent _, mread_takeSample_ring hi x⟩, rfl,
      takeSample_mem s x, takeSample_regs s x⟩
  · have hrecord := runs_feedRecord t s
    exact ⟨fun hnone => runs_congr hrecord (feedRecord_of_no_feed hnone), fun f hfeed =>
      ⟨fun b u hw => runs_congr hrecord (feedRecord_of_written hfeed hw),
        fun b d k hw => runs_congr hrecord (feedRecord_of_held hfeed hw), feedRecord_fields f⟩⟩

end Sys2Proof.Proofs

/-! PROOFS. Wake records (13_porch.md R434): the layout of a record, the slot that it takes, and what else of the state it
leaves. -/

namespace Sys2Proof.Proofs
open Sys2Proof Sys2Proof.Machine Sys2Proof.Laws

/-! ### Fields across words -/

/-- A field of a field. -/
theorem bitsAt_bitsAt (x a : Nat) {n lo w : Nat} (h : lo + w ≤ n) : bitsAt (bitsAt x a n) lo w = bitsAt x (a + lo) w := by
  rw [bitsAt.eq_def x a n, bitsAt_mod_two_pow _ h, bitsAt, bitsAt, Nat.shiftRight_add]

/-- A field that two words hold between them. -/
theorem bitsAt_add_above (x lo n m : Nat) : bitsAt x lo n + bitsAt x (lo + n) m <<< n = bitsAt x lo (n + m) := by
  simp only [bitsAt, Nat.shiftRight_eq_div_pow, Nat.shiftLeft_eq, Nat.pow_add, Nat.mod_mul, Nat.div_div_eq_div_mul]
  rw [Nat.mul_comm (2 ^ n)]

/-! ### Words written one after the other -/

/-- Words 1 to `n` of a record, after the one at `base`. -/
def putWords (base : Nat) (w : Nat → Word) (s : State) (n : Nat) : State :=
  s.each (List.range n) fun s i => s.setWord (base + 4 * (i + 1)) (w i)

section
variable {base : Nat} {w : Nat → Word} {s : State}

theorem putWords_succ (n : Nat) :
    putWords base w s (n + 1) = (putWords base w s n).setWord (base + 4 * (n + 1)) (w n) := each_range_succ s n _

theorem word_putWords_other {n o : Nat} (h : o ≤ base ∨ base + 4 * n < o) : (putWords base w s n).word o = s.word o := by
  induction n with
  | zero => rfl
  | succ n ih =>
    rw [putWords_succ, word_setWord_other _ _ (by omega)]
    exact ih (by omega)

theorem word_putWords_same {n i : Nat} (hi : i < n) : (putWords base w s n).word (base + 4 * (i + 1)) = w i := by
  induction n with
  | zero => omega
  | succ n ih =>
    rw [putWords_succ]
    by_cases hlast : i = n
    · rw [hlast, word_setWord_same]
    · rw [word_setWord_other _ _ (by omega)]
      exact ih (by omega)

end

/-! ### The layout of a record (R434) -/

/-- Words 1 to 7 of a wake record. -/
def wakeBits (s : State) (phrase cause : Nat) (p : Partial) : Nat :=
  phrase % 8 + (cause % 16) <<< 3 + (b2n (cause == 0 && s.por.chain.isSome)) <<< 7 + 1 <<< 8
    + p.startSample.toNat <<< 32 + (s.por.sample - 1).toNat <<< 96 + (min p.score 65535) <<< 160
    + (p.startState % 8) <<< 176 + (s.pwr.state.code % 8) <<< 179

section
variable (s : State) (phrase cause : Nat) (p : Partial)

/-- Each field stands above the bits of those before it and below the next one's place. -/
theorem wakeBits_fields :
    let r := wakeBits s phrase cause p
    bitsAt r 0 3 = phrase % 8 ∧ bitsAt r 3 4 = cause % 16 ∧ bitsAt r 7 1 = b2n (cause == 0 && s.por.chain.isSome) ∧
    bitsAt r 8 3 = 1 ∧ bitsAt r 11 4 = 0 ∧ bitsAt r 32 64 = p.startSample.toNat ∧
    bitsAt r 96 64 = (s.por.sample - 1).toNat ∧ bitsAt r 160 16 = min p.score 65535 ∧ bitsAt r 176 3 = p.startState % 8 ∧
    bitsAt r 179 3 = s.pwr.state.code % 8 ∧ bitsAt r 192 32 = 0 := by
  have hphrase : phrase % 8 < 2 ^ 3 := Nat.mod_lt _ (by decide)
  have hcause : cause % 16 < 2 ^ 4 := Nat.mod_lt _ (by decide)
  have hscore : min p.score 65535 < 2 ^ 16 := min_pred_lt p.score 16
  have hstart : p.startState % 8 < 2 ^ 3 := Nat.mod_lt _ (by decide)
  have hnow : s.pwr.state.code % 8 < 2 ^ 3 := Nat.mod_lt _ (by decide)
  have hstage : 1 < 2 ^ 3 := by decide
  have h7 := add_shiftLeft_lt (n := 7) hphrase hcause rfl
  have h8 := add_shiftLeft_lt (n := 8) h7 (b2n_lt (cause == 0 && s.por.chain.isSome)) rfl
  have h11 := add_shiftLeft_lt (n := 11) h8 hstage rfl
  have h32 := h11.trans (show 2 ^ 11 < 2 ^ 32 by decide)
  have h96 := add_shiftLeft_lt (n := 96) h32 p.startSample.isLt rfl
  have h160 := add_shiftLeft_lt (n := 160) h96 (s.por.sample - 1).isLt rfl
  have h176 := add_shiftLeft_lt (n := 176) h160 hscore rfl
  have h179 := add_shiftLeft_lt (n := 179) h176 hstart rfl
  have h192 := (add_shiftLeft_lt (n := 182) h179 hnow rfl).trans (show 2 ^ 182 < 2 ^ 192 by decide)
  unfold wakeBits
  refine ⟨?_, ?_, ?_, ?_, ?_, ?_, ?_, ?_, ?_, bitsAt_add_shiftLeft_top h179 hnow, bitsAt_of_lt_lo h192 32⟩
  all_goals simp (disch := omega) only [bitsAt_add_shiftLeft_of_le]
  exacts [bitsAt_of_lt hphrase, bitsAt_add_shiftLeft_top hphrase hcause, bitsAt_add_shiftLeft_top h7 (b2n_lt _),
    bitsAt_add_shiftLeft_top h8 hstage, bitsAt_of_lt_lo h11 4, bitsAt_add_shiftLeft_top h32 p.startSample.isLt,
    bitsAt_add_shiftLeft_top h96 (s.por.sample - 1).isLt, bitsAt_add_shiftLeft_top h160 hscore,
    bitsAt_add_shiftLeft_top h176 hstart]

/-! ### The slot that a record takes -/

/-- The state with the record's words stored, SEQ last. -/
def wakeStored : State :=
  (putWords (wakeSlot s.por.seqNext) (fun i => BitVec.ofNat 32 (wakeBits s phrase cause p >>> (32 * i))) s 7).setWord
    (wakeSlot s.por.seqNext) s.por.seqNext

/-- The number after SEQ, past 0. -/
def nextSeq (q : BitVec 32) : BitVec 32 := if q + 1 = 0 then 1 else q + 1

/-- A state with another next sequence number. -/
def withSeqNext (s : State) (q : BitVec 32) : State := { s with por := { s.por with seqNext := q } }

theorem word_withSeqNext (s : State) (q : BitVec 32) (o : Nat) : (withSeqNext s q).word o = s.word o := rfl

theorem wakeRecord_eq : s.wakeRecord phrase cause p =
    (s.por.seqNext, withSeqNext (wakeStored s phrase cause p) (nextSeq s.por.seqNext)) := by
  unfold State.wakeRecord wakeStored putWords wakeBits
  rfl

theorem word_wakeRecord (o : Nat) :
    (s.wakeRecord phrase cause p).2.word o = (wakeStored s phrase cause p).word o := by
  rw [wakeRecord_eq, word_withSeqNext]

theorem wakeWord_seq : (s.wakeRecord phrase cause p).2.wakeWord s.por.seqNext 0 = s.por.seqNext.toNat := by
  rw [State.wakeWord, word_wakeRecord, wakeStored]
  exact congrArg BitVec.toNat (word_setWord_same _ _ _)

/-- The other words are those of the layout. -/
theorem wakeWord_succ {i : Nat} (hi : i < 7) : (s.wakeRecord phrase cause p).2.wakeWord s.por.seqNext (i + 1) =
    bitsAt (wakeBits s phrase cause p) (32 * i) 32 := by
  rw [State.wakeWord, word_wakeRecord, wakeStored, word_setWord_other _ _ (by omega), word_putWords_same hi]
  exact BitVec.toNat_ofNat _ _

/-- A field within one word of the record. -/
theorem bitsAt_wakeWord_succ {i lo n : Nat} (hi : i < 7) (h : lo + n ≤ 32) :
    bitsAt ((s.wakeRecord phrase cause p).2.wakeWord s.por.seqNext (i + 1)) lo n =
      bitsAt (wakeBits s phrase cause p) (32 * i + lo) n := by
  rw [wakeWord_succ s phrase cause p hi, bitsAt_bitsAt _ _ h]

/-- A field of two words of the record. -/
theorem wakeWord_pair {i : Nat} (hi : i + 1 < 7) :
    (s.wakeRecord phrase cause p).2.wakeWord s.por.seqNext (i + 1) +
      (s.wakeRecord phrase cause p).2.wakeWord s.por.seqNext (i + 2) <<< 32 =
      bitsAt (wakeBits s phrase cause p) (32 * i) 64 := by
  rw [wakeWord_succ s phrase cause p (by omega), wakeWord_succ s phrase cause p hi]
  exact bitsAt_add_above _ (32 * i) 32 32

/-- The sixteen slots lie from 0x18A00 to 0x18C00. -/
theorem word_wakeRecord_outside {o : Nat} (ho : o < 0x18A00 ∨ 0x18C00 ≤ o) :
    (s.wakeRecord phrase cause p).2.word o = s.word o := by
  have hslot : 0x18A00 ≤ wakeSlot s.por.seqNext ∧ wakeSlot s.por.seqNext + 32 ≤ 0x18C00 := by
    unfold wakeSlot
    omega
  rw [word_wakeRecord, wakeStored, word_setWord_other _ _ (by omega)]
  exact word_putWords_other (by omega)

theorem wakeRecord_seqNext : (s.wakeRecord phrase cause p).2.por.seqNext = nextSeq s.por.seqNext := by
  rw [wakeRecord_eq, withSeqNext]

/-- The next sequence number is never 0. -/
theorem nextSeq_ne_zero (q : BitVec 32) : nextSeq q ≠ 0 := by
  unfold nextSeq
  split
  · decide
  · assumption

end

/-- A wake record stands in its slot. -/
theorem wakeRecord_laid (s : State) (phrase cause : Nat) (p : Partial) :
    let q := s.por.seqNext
    let u := (s.wakeRecord phrase cause p).2
    let word := fun (i : Nat) => u.wakeWord q i
    (s.wakeRecord phrase cause p).1 = q ∧ word 0 = q.toNat ∧ bitsAt (word 1) 0 3 = phrase % 8 ∧
    bitsAt (word 1) 3 4 = cause % 16 ∧ bitsAt (word 1) 7 1 = b2n (cause == 0 && s.por.chain.isSome) ∧
    bitsAt (word 1) 8 3 = 1 ∧ bitsAt (word 1) 11 4 = 0 ∧
    word 2 + word 3 <<< 32 = p.startSample.toNat ∧ word 4 + word 5 <<< 32 = (s.por.sample - 1).toNat ∧
    bitsAt (word 6) 0 16 = min p.score 65535 ∧ bitsAt (word 6) 16 3 = p.startState % 8 ∧
    bitsAt (word 6) 19 3 = s.pwr.state.code % 8 ∧ word 7 = 0 ∧
    (u.por.seqNext ≠ 0 ∧ (q + 1 ≠ 0 → u.por.seqNext = q + 1)) ∧
    (∀ o, (o < 0x18A00 ∨ 0x18C00 ≤ o) → u.word o = s.word o) := by
  obtain ⟨hphrase, hcause, hchain, hstage, hend, hstart, hsample, hscore, hfrom, hnow, hzero⟩ :=
    wakeBits_fields s phrase cause p
  have hfield {i lo n v : Nat} (hi : i < 7) (h : lo + n ≤ 32) (hv : bitsAt (wakeBits s phrase cause p) (32 * i + lo) n = v) :=
    (bitsAt_wakeWord_succ s phrase cause p hi h).trans hv
  have hnext := wakeRecord_seqNext s phrase cause p
  exact ⟨rfl, wakeWord_seq s phrase cause p, hfield (i := 0) (by decide) (by decide) hphrase,
    hfield (i := 0) (by decide) (by decide) hcause, hfield (i := 0) (by decide) (by decide) hchain,
    hfield (i := 0) (by decide) (by decide) hstage, hfield (i := 0) (by decide) (by decide) hend,
    (wakeWord_pair s phrase cause p (i := 1) (by decide)).trans hstart,
    (wakeWord_pair s phrase cause p (i := 3) (by decide)).trans hsample,
    hfield (i := 5) (by decide) (by decide) hscore, hfield (i := 5) (by decide) (by decide) hfrom,
    hfield (i := 5) (by decide) (by decide) hnow, (wakeWord_succ s phrase cause p (i := 6) (by decide)).trans hzero,
    ⟨hnext ▸ nextSeq_ne_zero _, fun h => hnext.trans (if_neg h)⟩, fun o => word_wakeRecord_outside s phrase cause p⟩

end Sys2Proof.Proofs

/-! PROOFS. The Keyhole and the wake chain (13_porch.md R428 to R433, R436 to R438): how a phrase is scored, when waiting Porch
changes are applied, and what starts, moves on and ends the stages of the chain. -/

namespace Sys2Proof.Proofs
open Sys2Proof Sys2Proof.Machine Sys2Proof.Laws

/-! ### A phrase's score (R432, R433) -/

/-- A partial match that has met another frame: it keeps the highest score. -/
def scoredPartial (p : Partial) (v : Nat) : Partial := { p with score := max p.score v }

/-- The state in which a match of a phrase is counted and its partial match is gone. -/
def matchCounted (s : State) (k : Nat) : State := (s.bump Reg.keyStatusMatchCnt).dropPartial k

section
variable {s : State} {k : Nat} {p : Partial} {x : KeyScore}

theorem scorePartial_of_match (hfull : 256 * s.reg (Reg.keyPhraseMatch.ix k) ≤ x.score.toNat) (hend : x.ended = true) :
    s.scorePartial k p x =
      (((matchCounted s k).wakeRecord k 0 (scoredPartial p x.score.toNat)).2.chainFor k
        ((matchCounted s k).wakeRecord k 0 (scoredPartial p x.score.toNat)).1 p.startSample) :=
  if_pos (by simpa [hend, Nat.mul_comm] using hfull)

variable (hmore : x.score.toNat < 256 * s.reg (Reg.keyPhraseMatch.ix k) ∨ x.ended = false)
include hmore

theorem scorePartial_of_no_match : s.scorePartial k p x =
    if x.score.toNat < s.reg (Reg.keyPhraseArm.ix k) * 256 then s.dropPartial k
    else { s with por := { s.por with partials := tset s.por.partials k (scoredPartial p x.score.toNat) } } :=
  if_neg (by simpa [Nat.mul_comm, imp_iff_not_or] using hmore)

theorem scorePartial_of_low (hlow : x.score.toNat < 256 * s.reg (Reg.keyPhraseArm.ix k)) :
    s.scorePartial k p x = s.dropPartial k :=
  (scorePartial_of_no_match hmore).trans (if_pos (by rwa [Nat.mul_comm]))

theorem scorePartial_of_held (harm : 256 * s.reg (Reg.keyPhraseArm.ix k) ≤ x.score.toNat) :
    s.scorePartial k p x =
      { s with por := { s.por with partials := tset s.por.partials k (scoredPartial p x.score.toNat) } } :=
  (scorePartial_of_no_match hmore).trans (if_neg (by rwa [Nat.not_lt, Nat.mul_comm]))

end

/-- What the state `u` after a frame shows where a partial match meets the frame's score. -/
def PartialMeets (s : State) (k : Nat) (p : Partial) (x : KeyScore) (u : State) : Prop :=
  let v := x.score.toNat
  let arm := 256 * s.reg (Reg.keyPhraseArm.ix k)
  let full := 256 * s.reg (Reg.keyPhraseMatch.ix k)
  let q := scoredPartial p v
  let won := matchCounted s k
  (full ≤ v → x.ended = true → u = (won.wakeRecord k 0 q).2.chainFor k (won.wakeRecord k 0 q).1 q.startSample) ∧
  (v < full ∨ x.ended = false → v < arm → u = s.dropPartial k) ∧
  (v < full ∨ x.ended = false → arm ≤ v → u = { s with por := { s.por with partials := tset s.por.partials k q } })

theorem partialMeets_scorePartial (s : State) (k : Nat) (p : Partial) (x : KeyScore) :
    PartialMeets s k p x (s.scorePartial k p x) := ⟨scorePartial_of_match, scorePartial_of_low, scorePartial_of_held⟩

/-- The partial match that starts with a frame's score. -/
def newPartial (s : State) (v : Nat) : Partial :=
  { start := s.now, startSample := s.frameFirst, startState := s.por.frameState, score := v }

section
variable {s : State} {k : Nat} {x : KeyScore}

theorem scorePhrase_meets_of_held {p : Partial} (h : tfind s.por.partials k = some p) :
    PartialMeets s k p x (s.scorePhrase k x) := by
  have hscore : s.scorePhrase k x = s.scorePartial k p x := by simp only [State.scorePhrase, h]
  exact hscore ▸ partialMeets_scorePartial s k p x

variable (h : tfind s.por.partials k = none)
include h

theorem scorePhrase_of_none : s.scorePhrase k x =
    if x.score.toNat < s.reg (Reg.keyPhraseArm.ix k) * 256 then
      { s with por := { s.por with blocked := s.por.blocked.filter (· != k) } }
    else if s.por.blocked.contains k then s else s.scorePartial k (newPartial s x.score.toNat) x := by
  simp only [State.scorePhrase, h]
  rfl

theorem scorePhrase_of_low (hlow : x.score.toNat < 256 * s.reg (Reg.keyPhraseArm.ix k)) : s.scorePhrase k x =
    { s with por := { s.por with blocked := s.por.blocked.filter (· != k) } } :=
  (scorePhrase_of_none h).trans (if_pos (by rwa [Nat.mul_comm]))

variable (harm : 256 * s.reg (Reg.keyPhraseArm.ix k) ≤ x.score.toNat)
include harm

theorem scorePhrase_of_armed : s.scorePhrase k x =
    if s.por.blocked.contains k then s else s.scorePartial k (newPartial s x.score.toNat) x :=
  (scorePhrase_of_none h).trans (if_neg (by rwa [Nat.not_lt, Nat.mul_comm]))

theorem scorePhrase_of_blocked (hblocked : k ∈ s.por.blocked) : s.scorePhrase k x = s :=
  (scorePhrase_of_armed h harm).trans (if_pos (List.contains_iff_mem.2 hblocked))

theorem scorePhrase_meets_of_free (hfree : k ∉ s.por.blocked) :
    PartialMeets s k (newPartial s x.score.toNat) x (s.scorePhrase k x) := by
  have hscore : s.scorePhrase k x = s.scorePartial k (newPartial s x.score.toNat) x :=
    (scorePhrase_of_armed h harm).trans (if_neg (List.contains_iff_mem.not.2 hfree))
  exact hscore ▸ partialMeets_scorePartial s k _ x

end

/-! ### Frames, waiting changes and the end of partial matches (R428, R429, R432) -/

section
variable {s : State} {xs : List KeyScore}

theorem keyFrame_of_idle (hcap : s.capturing = false) : s.keyFrame xs = s := if_pos (by simp [hcap])

theorem keyFrame_of_capturing (hcap : s.capturing = true) : s.keyFrame xs =
    (if (s.scoreFrame xs).partialHeld = true then s.scoreFrame xs else (s.scoreFrame xs).applyChanges).frameMark :=
  if_neg (by simp [hcap])

theorem partialHeld_iff : s.partialHeld = true ↔ s.por.partials ≠ [] := by
  simp [State.partialHeld]

/-- Waiting changes are applied at a boundary that holds no partial match. -/
theorem keyFrame_of_free (hcap : s.capturing = true) (hfree : (s.scoreFrame xs).por.partials = []) :
    s.keyFrame xs = (s.scoreFrame xs).applyChanges.frameMark := by
  rw [keyFrame_of_capturing hcap, if_neg (partialHeld_iff.not_left.2 hfree)]

theorem keyFrame_of_held (hcap : s.capturing = true) (hheld : (s.scoreFrame xs).por.partials ≠ []) :
    s.keyFrame xs = (s.scoreFrame xs).frameMark := by
  rw [keyFrame_of_capturing hcap, if_pos (partialHeld_iff.2 hheld)]

theorem changeLate_of_none (h : s.por.changes = []) : s.changeLate xs = s := by
  simp only [State.changeLate, h]

theorem changeLate_of_some {c : PorChange} {t0 : Nat} {r : List (PorChange × Nat)} (h : s.por.changes = (c, t0) :: r) :
    s.changeLate xs =
      if s.now < t0 + 2500000000 then s else ((s.scoreFrame xs).cutPartials 1).applyChanges.frameMark := by
  simp only [State.changeLate, h]
  rfl

theorem partialLate_of_none {k : Nat} (h : tfind s.por.partials k = none) : s.partialLate k = s := by
  simp only [State.partialLate, h]

theorem partialLate_of_some {k : Nat} {p : Partial} (h : tfind s.por.partials k = some p) : s.partialLate k =
    if s.now < p.start + 2500000000 then s
    else { s with por := { s.por with partials := tdel s.por.partials k, blocked := sins s.por.blocked k } } := by
  simp only [State.partialLate, h]
  rfl

end

/-! ### A stage starts (R436) -/

/-- Write 0 to the decision word of a chain's stage. -/
def zeroDecision (s : State) (c : Chain) : Acc Undo := wr whoBridge (s.decideDva c.stage) (toBytes 8 0)

section
variable {s b : State} {c : Chain} (h : s.por.chain = some c) (hphase : c.phase = .starting)
include h hphase

theorem chainStart_of_asleep (hs2 : s.pwr.state = .s2) : s.chainStart = s.wakeBy 1 c.seq := by
  simp only [State.chainStart, h, hphase, bne_self_eq_false, Bool.false_eq_true, if_false, hs2, beq_self_eq_true, if_true]

variable (hs2 : s.pwr.state ≠ .s2)
include hs2

theorem chainStart_of_floor (hfloor : (s.safeFloor && s.mainUp) = true) : s.chainStart = s.endChain 5 := by
  simp only [State.chainStart, h, hphase, bne_self_eq_false, Bool.false_eq_true, if_false, beq_eq_false_iff_ne.2 hs2, hfloor,
    if_true]

variable (hfloor : (s.safeFloor && s.mainUp) = false)
include hfloor

theorem chainStart_of_waiting (hmay : s.stageMay c = false) : s.chainStart = s := by
  simp only [State.chainStart, h, hphase, bne_self_eq_false, Bool.false_eq_true, if_false, beq_eq_false_iff_ne.2 hs2, hfloor,
    hmay, Bool.not_false, if_true]

variable (hmay : s.stageMay c = true)
include hmay

theorem chainStart_of_posted {u : Undo} (hw : runAcc s (zeroDecision s c) = (b, .ok u)) :
    s.chainStart = b.postStage c := by
  rw [zeroDecision] at hw
  simp only [State.chainStart, h, hphase, bne_self_eq_false, Bool.false_eq_true, if_false, beq_eq_false_iff_ne.2 hs2, hfloor,
    hmay, Bool.not_true, hw]

/-- A decision word that cannot be written ends the chain as a failed stage. -/
theorem chainStart_of_failed {st : Byte} {d : BitVec 32} (hw : runAcc s (zeroDecision s c) = (b, .error (.status st d))) :
    s.chainStart = b.endChain 3 := by
  rw [zeroDecision] at hw
  simp only [State.chainStart, h, hphase, bne_self_eq_false, Bool.false_eq_true, if_false, beq_eq_false_iff_ne.2 hs2, hfloor,
    hmay, Bool.not_true, hw]

end

/-! ### A stage completes or times out (R437, R438) -/

/-- The chain goes on with this stage. -/
def setChain (s : State) (c : Chain) : State := { s with por := { s.por with chain := some c } }

/-- What the decision word `v` has the chain do. -/
def decided (s : State) (c : Chain) (v : Nat) : State :=
  if v = 1 then
    match s.stageAfter c.stage with
    | some j => setChain s { c with stage := j, phase := .starting, firstPost := none }
    | none => s.endChain 1
  else if v = 2 then setChain s { c with phase := .starting }
  else s.endChain 2

section
variable {s b : State} {c : Chain} (h : s.por.chain = some c)
include h

theorem chainDone_of_stopping {st : Byte} (hphase : c.phase = .ended st) (hstop : c.stopping = true) :
    s.chainDone = s.endChain 7 := by
  simp only [State.chainDone, h, hphase, hstop, if_true]

theorem chainDone_of_failed {st : Byte} (hphase : c.phase = .ended st) (hgo : c.stopping = false) (hst : st ≠ stOk) :
    s.chainDone = s.endChain 3 := by
  simp only [State.chainDone, h, hphase, hgo, Bool.false_eq_true, if_false, bne_iff_ne.2 hst, if_true]

theorem chainDone_of_read {v : Nat} (hphase : c.phase = .ended stOk) (hgo : c.stopping = false) (hup : s.mainUp = true)
    (hr : runAcc s (rdNat whoBridge (s.decideDva c.stage) 8) = (b, .ok v)) : s.chainDone = decided b c v := by
  simp only [State.chainDone, decided, setChain, h, hphase, hgo, Bool.false_eq_true, if_false, bne_self_eq_false, hup,
    Bool.not_true, hr]
  match v with
  | 0 => rfl
  | 1 => rfl
  | 2 => rfl
  | n + 3 => rfl

theorem chainLate_of_unposted (hpost : c.firstPost = none) : s.chainLate = s := by
  simp only [State.chainLate, h, hpost]

theorem chainLate_of_posted {f : Nat} (hpost : c.firstPost = some f) : s.chainLate =
    if s.now < f + 1000000 * s.reg (stageReg Reg.porChain0TimeoutMs c.stage) then s else s.endChain 4 := by
  simp only [State.chainLate, h, hpost, ms, Nat.mul_comm]

end

section
variable {s : State} {c : Chain}

/-- 1 after the last enabled stage ends the chain. -/
theorem decided_of_last (hlast : s.stageAfter c.stage = none) : decided s c 1 = s.endChain 1 := by
  simp only [decided, hlast, if_true]

theorem decided_of_next {j : Nat} (hnext : s.stageAfter c.stage = some j) :
    decided s c 1 = setChain s { c with stage := j, phase := .starting, firstPost := none } := by
  simp only [decided, hnext, if_true]

theorem decided_of_other {v : Nat} (hone : v ≠ 1) (htwo : v ≠ 2) : decided s c v = s.endChain 2 := by
  rw [decided, if_neg hone, if_neg htwo]

end

/-- Settles O45: frames and limits by what is held then, a phrase by its partial match and its score, the wake record by the
layout of its words, the chain by its phase and its decision word. -/
theorem keyholeAndChain : Obligations.KeyholeAndChain := by
  refine ⟨fun t xs k s => ?_, fun s k x => ⟨fun p => scorePhrase_meets_of_held, fun hnone =>
    ⟨scorePhrase_of_low hnone, scorePhrase_of_blocked hnone, scorePhrase_meets_of_free hnone⟩⟩, wakeRecord_laid, ?_⟩
  · have hframe := runs_keyholeFrame t xs s
    have hchange := runs_porchChangeDeadline t xs s
    have hpartial := runs_partialMatchTimeout t k s
    exact ⟨fun hwf => ⟨fun hidle => runs_congr (hframe hwf) (keyFrame_of_idle hidle),
        fun hcap hfree => runs_congr (hframe hwf) (keyFrame_of_free hcap hfree),
        fun hcap hheld => runs_congr (hframe hwf) (keyFrame_of_held hcap hheld)⟩,
      fun hwf => ⟨fun hnone => runs_congr (hchange hwf) (changeLate_of_none hnone), fun c t0 r hwait =>
        ⟨fun hdue => runs_congr (hchange hwf) ((changeLate_of_some hwait).trans (if_neg (Nat.not_lt.2 hdue))),
          fun hearly => runs_congr (hchange hwf) ((changeLate_of_some hwait).trans (if_pos hearly))⟩⟩,
      fun hnone => runs_congr hpartial (partialLate_of_none hnone), fun p hheld =>
        ⟨fun hdue => runs_congr hpartial ((partialLate_of_some hheld).trans (if_neg (Nat.not_lt.2 hdue))),
          fun hearly => runs_congr hpartial ((partialLate_of_some hheld).trans (if_pos hearly))⟩⟩
  · intro t c s a dva zero next lim h
    have hstart := runs_chainStageStart t s
    have hdone := runs_chainStageComplete t s
    have hlate := runs_chainStageTimeout t s
    refine ⟨fun hphase hs2 => runs_congr hstart (chainStart_of_asleep h hphase hs2),
      fun hphase hs2 hfloor => runs_congr hstart (chainStart_of_floor h hphase hs2 hfloor),
      fun hphase hs2 hfloor hmay => runs_congr hstart (chainStart_of_waiting h hphase hs2 hfloor hmay),
      fun hphase hs2 hfloor hmay =>
        ⟨fun b u hw => runs_congr hstart (chainStart_of_posted h hphase hs2 hfloor hmay hw),
          fun b st d hw => runs_congr hstart (chainStart_of_failed h hphase hs2 hfloor hmay hw)⟩,
      fun st hphase => ⟨fun hstop => runs_congr hdone (chainDone_of_stopping h hphase hstop),
        fun hgo hst => runs_congr hdone (chainDone_of_failed h hphase hgo hst), fun hgo hst hup b v hr => ?_⟩,
      fun hpost => runs_congr hlate (chainLate_of_unposted h hpost), fun f hpost =>
        ⟨fun hdue => runs_congr hlate ((chainLate_of_posted h hpost).trans (if_neg (Nat.not_lt.2 hdue))),
          fun hearly => runs_congr hlate ((chainLate_of_posted h hpost).trans (if_pos hearly))⟩⟩
    subst hst
    have hread := runs_congr hdone (chainDone_of_read h hphase hgo hup hr)
    refine ⟨fun hone hlast => ?_, fun hone j hnext => ?_, fun htwo => ?_,
      fun hone htwo => runs_congr hread (decided_of_other hone htwo)⟩
    · subst hone
      exact runs_congr hread (decided_of_last hlast)
    · subst hone
      exact runs_congr hread (decided_of_next hnext)
    · subst htwo
      exact hread

end Sys2Proof.Proofs

/-! PROOFS. Performance levels and their caps (14_power.md R450, R461, R462): what a change of the level in force leaves, the
regulator's completion, and how caps rise and fall. Each event of the model is first given by an equation per case. -/

namespace Sys2Proof.Proofs
open Sys2Proof Sys2Proof.Machine Sys2Proof.Laws

/-- A test that passes over an event, read as the condition under which the event acts. -/
theorem ite_of_guard {α : Type} {guard acts : Prop} [Decidable guard] [Decidable acts] (h : ¬guard ↔ acts) (x y : α) :
    (if guard then x else y) = if acts then y else x := by
  rw [← if_congr h rfl rfl, ite_not]

/-! ### The level in force (R461, R462) -/

/-- PWR_STATUS shows the level in force and the requested one. -/
def levelShown (s : State) : State :=
  (s.setReg Reg.pwrStatusLevel s.level).setReg Reg.pwrStatusRequested s.pwr.requested

/-- The regulator is given the level in force: the clock falls at once, and rises no earlier than the voltage. -/
def retargeted (s : State) : State :=
  let b := (levelShown s).setFlag Reg.pwrStatusAvsBusy true
  { b with pwr := { s.pwr with clock := min s.pwr.clock s.level, reached := min s.pwr.reached s.level, target := s.level } }

/-- A field of one bit shows what was stored in it. -/
theorem flag_setFlag_same (s : State) {f : Field} (b : Bool) (hf : f.lo + f.width ≤ 32) (hw : f.width = 1) :
    (s.setFlag f b).flag f = b := by
  rw [State.flag, State.setFlag, reg_setReg_same _ _ _ hf, hw]
  cases b <;> rfl

/-- A register's flag and the power state are set in either order. -/
theorem setFlag_withPwr (s : State) (f : Field) (b : Bool) (p : PwrSt) :
    ({ s with pwr := p }).setFlag f b = { s.setFlag f b with pwr := p } := rfl

section
variable {s : State}

theorem levelShown_level : (levelShown s).reg Reg.pwrStatusLevel = s.level % 8 :=
  (reg_setReg_other _ _ _ _ (by decide) (by decide)).trans (reg_setReg_same _ _ _ (by decide))

theorem levelShown_other {f : Field} (hf : f.off ≠ 0x4004) : (levelShown s).reg f = s.reg f :=
  (reg_setReg_other _ Reg.pwrStatusRequested _ _ (by decide) (.inl hf)).trans
    (reg_setReg_other _ Reg.pwrStatusLevel _ _ (by decide) (.inl hf))

/-- Beside what PWR_STATUS shows, a change of the regulator's aim sets AVS_BUSY. -/
theorem reg_retargeted (f : Field) :
    (retargeted s).reg f = ((levelShown s).setFlag Reg.pwrStatusAvsBusy true).reg f :=
  reg_congr (by simp only [retargeted]) f

theorem retargeted_busy : (retargeted s).flag Reg.pwrStatusAvsBusy = true := by
  rw [State.flag, reg_retargeted]
  exact flag_setFlag_same (levelShown s) true (by decide) rfl

theorem relevel_eq (s : State) :
    s.relevel = if s.mainUp = true ∧ s.pwr.target ≠ s.level then retargeted s else levelShown s :=
  ite_of_guard (by simp [State.mainUp]) _ _

theorem relevel_of_reached (h : s.pwr.target = s.level) : s.relevel = levelShown s :=
  (relevel_eq s).trans (if_neg fun hch => hch.2 h)

theorem relevel_of_changed (hup : s.mainUp = true) (h : s.pwr.target ≠ s.level) : s.relevel = retargeted s :=
  (relevel_eq s).trans (if_pos ⟨hup, h⟩)

/-- A change of level touches no register but PWR_STATUS. -/
theorem reg_relevel_other {f : Field} (hf : f.off ≠ 0x4004) : s.relevel.reg f = s.reg f := by
  rw [relevel_eq]
  split
  · rw [reg_retargeted]
    exact (reg_setReg_other _ Reg.pwrStatusAvsBusy _ _ (by decide) (.inl hf)).trans (levelShown_other hf)
  · exact levelShown_other hf

theorem reg_relevel : s.relevel.reg Reg.pwrStatusLevel = s.level % 8 := by
  rw [relevel_eq]
  split
  · rw [reg_retargeted]
    exact (reg_setReg_other _ Reg.pwrStatusAvsBusy Reg.pwrStatusLevel _ (by decide) (by decide)).trans levelShown_level
  · exact levelShown_level

/-! ### AVS_COMPLETE (R450, R462) -/

theorem avsDone_of_idle (hs : s.pwr.startAvs = none) (hb : s.flag Reg.pwrStatusAvsBusy = false) : s.avsDone = s := by
  simp only [State.avsDone, hs, State.avsReached, hb, Bool.not_false, if_true]

theorem avsDone_of_change (hs : s.pwr.startAvs = none) (hb : s.flag Reg.pwrStatusAvsBusy = true) :
    let b := s.setFlag Reg.pwrStatusAvsBusy false
    s.avsDone = { b with pwr := { b.pwr with reached := b.pwr.target, clock := b.pwr.target } } := by
  simp only [State.avsDone, hs, State.avsReached, hb, Bool.not_true, Bool.false_eq_true, if_false]

theorem avsDone_of_start {found : List Finding} (hs : s.pwr.startAvs = some found) :
    let b := s.setFlag Reg.pwrStatusAvsBusy false
    let c := { b with pwr := { b.pwr with startAvs := none, coreSet := true } }
    s.avsDone = if c.mayStart then c.startMain found else c := by
  simp only [State.avsDone, hs, setFlag_withPwr, setFlag_pwr]
  rfl

end

/-! ### Caps (R461) -/

/-- The caps lie in one register, which is not PWR_STATUS. -/
theorem capField_place (c : Cap) :
    (capField c).off ≠ 0x4004 ∧ (capField c).lo + (capField c).width ≤ 32 ∧ (capField c).width = 3 := by
  cases c <;> decide

@[simp] theorem setRise_regs (s : State) (c : Cap) (t : Option Nat) : (s.setRise c t).regs = s.regs := by
  cases c <;> rfl

@[simp] theorem setRise_now (s : State) (c : Cap) (t : Option Nat) : (s.setRise c t).now = s.now := by
  cases c <;> rfl

@[simp] theorem relevel_now (s : State) : s.relevel.now = s.now := by
  rw [relevel_eq]
  split
  · simp only [retargeted, levelShown, setFlag_now, setReg_now]
  · simp only [levelShown, setReg_now]

@[simp] theorem setCap_now (s : State) (c : Cap) (l : Nat) : (s.setCap c l).now = s.now := by
  simp [State.setCap]

@[simp] theorem endCondition_regs (s : State) (cls : Byte) (p : FaultRec → Bool) : (s.endCondition cls p).regs = s.regs :=
  rfl

/-- A cap rises by a level, and where that level no longer limits it is gone. -/
theorem reg_raiseCap (s : State) (c : Cap) : (s.raiseCap c).reg (capField c) =
    if 7 ≤ s.reg (capField c) + 1 ∨ s.pwr.requested ≤ s.reg (capField c) + 1 then 7 else s.reg (capField c) + 1 := by
  obtain ⟨hoff, hfits, hwidth⟩ := capField_place c
  have hstored (v : Nat) (hv : v < 8) : (s.setReg (capField c) v).reg (capField c) = v := by
    rw [reg_setReg_same _ _ _ hfits, hwidth]
    exact Nat.mod_eq_of_lt hv
  rw [State.raiseCap, reg_relevel_other hoff]
  refine (reg_congr (t := s.setReg (capField c) (if 7 ≤ s.reg (capField c) + 1 ∨
    s.pwr.requested ≤ s.reg (capField c) + 1 then 7 else s.reg (capField c) + 1)) ?_ _).trans (hstored _ ?_)
  · simp [apply_ite State.regs]
  · split <;> omega

section
variable {s : State} {c : Cap}

theorem capOn_iff : s.capOn c = true ↔ s.reg (capField c) ≠ 7 ∨ (c = .thermal ∧ s.pwr.thermOn = true) := by
  simp [State.capOn]

theorem capHeld_eq : s.capHeld c =
    if (s.reg (capField c) ≠ 7 ∨ (c = .thermal ∧ s.pwr.thermOn = true)) ∧ s.causeOver c = true ∧ s.riseDue c = true ∧
      s.releasing c = false then (if c = .supply then s.railsBack else s).raiseCap c else s := by
  simp only [State.capHeld, beq_iff_eq]
  exact ite_of_guard (by simp [capOn_iff]; tauto) _ _

theorem capStep_eq : s.capStep c =
    if (s.reg (capField c) ≠ 7 ∨ (c = .thermal ∧ s.pwr.thermOn = true)) ∧ s.riseDue c = true ∧ s.releasing c = true then
      s.raiseCap c else s :=
  ite_of_guard (by simp [capOn_iff]; tauto) _ _

/-! ### POWER_CAP_EVALUATION (R461) -/

variable {w : Nat}

theorem powerJudge_of_down (h : s.mainUp = false) : s.powerJudge w = s := if_pos (by simp [h])

variable (hup : s.mainUp = true)
include hup

theorem powerJudge_of_up : s.powerJudge w =
    let b := s.setReg Reg.pwrLimitAvgW w
    if b.reg Reg.pwrLimitWatts = 0 then (b.setRise .power none).setCap .power 7
    else if b.reg Reg.pwrLimitWatts < w then (b.setCap .power (b.level - 1)).log 8 3
    else b := if_neg (by simp [hup])

end

/-- Settles O46: the level by whether the regulator's aim is it, the rises of caps by their conditions, the cap of average power
by WATTS. -/
theorem levelsAndCaps : Obligations.LevelsAndCaps := by
  refine ⟨⟨fun s hup => ?_, fun t s => ?_⟩, ⟨fun t c s => ?_, fun c s => reg_raiseCap s c⟩, fun t watts s => ?_⟩
  · refine ⟨rfl, fun h => ?_, fun h => ?_, reg_relevel⟩
    · rw [relevel_of_changed hup h]
      exact ⟨rfl, rfl, retargeted_busy⟩
    · rw [relevel_of_reached h]
      rfl
  · have hdone := runs_avsComplete t s
    exact ⟨fun hs hb => runs_congr hdone (avsDone_of_idle hs hb), fun hs hb => runs_congr hdone (avsDone_of_change hs hb),
      fun found hs => runs_congr hdone (avsDone_of_start hs)⟩
  · have hheld := runs_capHoldExpiry t c s
    have hstep := runs_capReleaseStep t c s
    exact ⟨fun h => runs_congr hheld (capHeld_eq.trans (if_pos h)), fun h => runs_congr hheld (capHeld_eq.trans (if_neg h)),
      fun h => runs_congr hstep (capStep_eq.trans (if_pos h)), fun h => runs_congr hstep (capStep_eq.trans (if_neg h))⟩
  · have hjudge := runs_powerCapEvaluation t watts s
    refine ⟨fun hdown => runs_congr hjudge (powerJudge_of_down hdown), fun hup => ?_⟩
    have hshown := runs_congr hjudge (powerJudge_of_up hup)
    exact ⟨fun h0 => runs_congr hshown (if_pos h0),
      fun h0 hover => runs_congr hshown ((if_neg h0).trans (if_pos hover)),
      fun hunder h0 => runs_congr hshown ((if_neg h0).trans (if_neg (Nat.not_lt.2 hunder)))⟩

end Sys2Proof.Proofs

/-! PROOFS. Supplies, the battery warning and the reference clocks (14_power.md R450 to R456, R460). Each event of the model is
first given by an equation per case. -/

namespace Sys2Proof.Proofs
open Sys2Proof Sys2Proof.Machine Sys2Proof.Laws

/-! ### Rails (R451, R452, R454) -/

section
variable {s : State} {rail : Nat}

theorem supplyWarn_of_off (h : s.railOn rail = false) : s.supplyWarn rail = s := if_pos (by simp [h])

theorem supplyHigh_of_off (h : s.railOn rail = false) : s.supplyHigh rail = s := if_neg (by simp [h])

theorem supplyReset_of_off (h : s.railOn rail = false) : s.supplyReset rail = s := if_pos (by simp [h])

theorem railGroup_of_main (h : rail < 6) : railGroup rail = 0 := if_pos h

theorem railGroup_of_loft (h : 6 ≤ rail) (h8 : rail < 8) : railGroup rail = 1 := by
  rw [railGroup, if_neg (Nat.not_lt.2 h), if_pos h8]

theorem railGroup_of_companion (h : 8 ≤ rail) : railGroup rail = 2 := by
  rw [railGroup, if_neg (by omega), if_neg (by omega)]

variable (hon : s.railOn rail = true)
include hon

theorem supplyWarn_of_on :
    let warn := s.raiseAon (mkReport fcSupplyWarn 0 rail 0 true)
    let noted := { warn with pwr := { warn.pwr with supplyBad := sins warn.pwr.supplyBad rail } }
    let capped := (noted.bump Reg.pwrCapsWarnCnt).setCap .supply 3
    s.supplyWarn rail = capped.setRise .supply (some (capped.now + 1000000)) := by
  intro warn noted capped
  have hnow : capped.now = noted.now := (setCap_now _ _ _).trans (bump_now _ _ _)
  rw [hnow]
  exact if_neg (by simp [hon])

theorem supplyHigh_of_on : s.supplyHigh rail = s.raiseAon (mkReport fcSupplyHigh 1 rail 0 true) := if_pos hon

theorem supplyReset_of_main (h : rail < 6) : s.supplyReset rail = (s.hardMdr 1 false).mainPowerOff := by
  simp only [State.supplyReset, hon, railGroup_of_main h, Bool.not_true, Bool.false_eq_true, if_false]

theorem supplyReset_of_loft (h : 6 ≤ rail) (h8 : rail < 8) :
    let b := if (s.pwr.state == .s2 && !s.mainUp) = true then { s with pwr := { s.pwr with loftLost := true } }
      else s.hardMdr 2 true
    s.supplyReset rail = { b with pwr := { b.pwr with loftGood := false } } := by
  simp only [State.supplyReset, hon, railGroup_of_loft h h8, Bool.not_true, Bool.false_eq_true, if_false]

theorem supplyReset_of_asleep (h : 6 ≤ rail) (h8 : rail < 8) (hs2 : (s.pwr.state == .s2 && !s.mainUp) = true) :
    s.supplyReset rail = { s with pwr := { s.pwr with loftLost := true, loftGood := false } } := by
  simp only [supplyReset_of_loft hon h h8, hs2, if_true]

theorem supplyReset_of_awake (h : 6 ≤ rail) (h8 : rail < 8) (hs2 : ¬(s.pwr.state == .s2 && !s.mainUp) = true) :
    let loft := s.hardMdr 2 true
    s.supplyReset rail = { loft with pwr := { loft.pwr with loftGood := false } } := by
  simp only [supplyReset_of_loft hon h h8, hs2, Bool.false_eq_true, if_false]

theorem supplyReset_of_companion (h : 8 ≤ rail) : s.supplyReset rail = s.powerLost := by
  simp only [State.supplyReset, hon, railGroup_of_companion h, Bool.not_true, Bool.false_eq_true, if_false]

end

/-! ### BATT_WARN_N (R455, R456) -/

section
variable {s : State}

theorem battLow_eq : s.battLow =
    if s.pwr.aonGood = true ∧ s.pins.battWarnN = true then
      ((({ s with pins := { s.pins with battWarnN := false }
                  pwr := { s.pwr with battLowSince := some s.now, battFaulted := false } }).setFlag
        Reg.pwrStatusBattLow true).log 3 1).setCap .battery 3
    else s :=
  ite_of_guard (by simp) _ _

theorem battBack_of_high (h : s.pins.battWarnN = true) : s.battBack = s := if_pos h

theorem battBack_of_low (h : s.pins.battWarnN = false) :
    let back := { s with pins := { s.pins with battWarnN := true }
                         pwr := { s.pwr with battLowSince := none, battFaulted := false } }
    s.battBack = ((((back.setFlag Reg.pwrStatusBattLow false).log 3 0)).setRise .battery
      (some (s.now + 1000000))).endCondition fcBattWarnStuck fun _ => true := by
  intro back
  have hnow : ((back.setFlag Reg.pwrStatusBattLow false).log 3 0).now = s.now := log_now _ _ _ _
  rw [← hnow]
  exact if_neg (by simp [h])

theorem battStuck_of_high (h : s.pwr.battLowSince = none) : s.battStuck = s := by
  simp only [State.battStuck, h]

theorem battStuck_of_low {t0 : Nat} (h : s.pwr.battLowSince = some t0) : s.battStuck =
    if s.reg Reg.pwrCtrlBattStuckS ≠ 0 ∧ s.pwr.battFaulted = false ∧
        t0 + 1000000000 * s.reg Reg.pwrCtrlBattStuckS ≤ s.now then
      ({ s with pwr := { s.pwr with battFaulted := true } }).raiseAon (mkReport fcBattWarnStuck 1 0 0 true)
    else s := by
  have hms : ms (1000 * s.reg Reg.pwrCtrlBattStuckS) = 1000000000 * s.reg Reg.pwrCtrlBattStuckS := by
    unfold ms
    omega
  simp only [State.battStuck, h, hms]
  exact ite_of_guard (by simp [and_assoc]) _ _

/-! ### The reference clocks (R450, R460) -/

/-- A pending start writes the voltage of START_LEVEL once it may start and has not written it yet (R450). -/
theorem tryStart_eq (found : List Finding) : s.tryStart found =
    if s.mayStart = true ∧ s.pwr.startAvs = none then
      ({ s with pwr := { s.pwr with startAvs := some found } }).setFlag Reg.pwrStatusAvsBusy true
    else s := by
  simp only [State.tryStart, Bool.and_eq_true, Option.isNone_iff_eq_none]

theorem mainClockLost_eq : s.mainClockLost =
    if s.pwr.aonGood = true ∧ s.pwr.refMain = true then
      let lost := s.raiseAon (mkReport fcClockLost 2 0 0 true)
      let down := { lost with pwr := { lost.pwr with refMain := false } }
      let mdr := down.hardMdr 4 false
      { mdr with rst := { mdr.rst with mdrHeld := down.mainUp || down.rst.starting } }
    else s :=
  ite_of_guard (by simp) _ _

theorem aonClockLost_eq : s.aonClockLost =
    if s.pwr.aonGood = true ∧ s.pwr.refAon = true then
      ({ s with pwr := { s.pwr with refAon := false } }).raiseAon (mkReport fcClockAon 1 0 0 true)
    else s :=
  ite_of_guard (by simp) _ _

end

/-- REFCLK_MAIN is back: its record's condition ends, and nothing holds the main die for it. -/
def mainClockFreed (s : State) : State :=
  let back := s.endCondition fcClockLost fun _ => true
  { back with pwr := { back.pwr with refMain := true }, rst := { back.rst with mdrHeld := false } }

theorem clockBack_main (s : State) (found : List Finding) : s.clockBack true found = (mainClockFreed s).tryStart found :=
  rfl

theorem not_and_of_false_or_false {a b : Bool} (h : a = false ∨ b = false) : ¬(a = true ∧ b = true) := by
  rintro ⟨rfl, rfl⟩
  simp at h

/-- Settles O47: a rail by its group, the battery warning and the clocks by what is noted of them. -/
theorem suppliesAndClocks : Obligations.SuppliesAndClocks := by
  refine ⟨fun t rail s => ?_, fun t s => ?_, fun t found s => ?_⟩
  · have hwarn := runs_supplyWarning t rail s
    have hhigh := runs_supplyHigh t rail s
    have hreset := runs_supplyResetThreshold t rail s
    exact ⟨fun hoff => ⟨runs_congr hwarn (supplyWarn_of_off hoff), runs_congr hhigh (supplyHigh_of_off hoff),
        runs_congr hreset (supplyReset_of_off hoff)⟩,
      fun hon => ⟨runs_congr hwarn (supplyWarn_of_on hon), runs_congr hhigh (supplyHigh_of_on hon),
        fun h6 => runs_congr hreset (supplyReset_of_main hon h6),
        fun h6 h8 hs2 => runs_congr hreset (supplyReset_of_asleep hon h6 h8 hs2),
        fun h6 h8 hs2 => runs_congr hreset (supplyReset_of_awake hon h6 h8 hs2),
        fun h8 => runs_congr hreset (supplyReset_of_companion hon h8)⟩⟩
  · have hlow := runs_congr (runs_battWarnAssert t s) battLow_eq
    have hback := runs_battWarnRelease t s
    have hstuck := runs_battWarnStuck t s
    exact ⟨fun haon hpin => runs_congr hlow (if_pos ⟨haon, hpin⟩),
      fun hno => runs_congr hlow (if_neg (not_and_of_false_or_false hno)),
      fun hpin => runs_congr hback (battBack_of_low hpin), fun hpin => runs_congr hback (battBack_of_high hpin),
      fun t0 hsince => ⟨fun hdue => runs_congr hstuck ((battStuck_of_low hsince).trans (if_pos hdue)),
        fun hearly => runs_congr hstuck ((battStuck_of_low hsince).trans (if_neg hearly))⟩,
      fun hsince => runs_congr hstuck (battStuck_of_high hsince)⟩
  · have hmain := runs_congr (runs_refclkMainLost t s) mainClockLost_eq
    have haux := runs_congr (runs_refclkAonLost t s) aonClockLost_eq
    have hback := runs_congr (runs_clockReturn t true found s) ((clockBack_main _ _).trans (tryStart_eq _))
    exact ⟨fun haon href => runs_congr hmain (if_pos ⟨haon, href⟩),
      fun hno => runs_congr hmain (if_neg (not_and_of_false_or_false hno)),
      fun haon href => runs_congr haux (if_pos ⟨haon, href⟩),
      fun hno => runs_congr haux (if_neg (not_and_of_false_or_false hno)),
      fun hgo => runs_congr hback (if_pos hgo), fun hwait => runs_congr hback (if_neg hwait),
      runs_clockReturn t false found s⟩

end Sys2Proof.Proofs

/-! PROOFS. Temperatures, the thermal cap and the Study's scans (14_power.md R466 to R468; 16_study.md R505 to R507). Each event
of the model is first given by an equation per case. -/

namespace Sys2Proof.Proofs
open Sys2Proof Sys2Proof.Machine Sys2Proof.Laws

/-- The sensors are watched: the companion group has power, and the device is not in S3. -/
def sensorsWatched (s : State) : Prop := s.pwr.aonGood = true ∧ s.pwr.state ≠ .s3

/-- The L2 fault of the thermal cap's coming to P0. -/
def thermalFault (s : State) : State := s.raiseAon (mkReport fcThermal 1 0 0 true)

section
variable {s : State}

/-! ### The thermal cap (R466) -/

/-- The thermal cap comes to a level, and its next step down is due 10 ms after it began. -/
def thermallyCapped (s : State) : State :=
  let fall := if s.pwr.thermOn then s.pwr.thermFall else some (s.now + 10000000)
  let l := min (s.reg Reg.pwrCapsTherm) (s.reg Reg.pwrThermCapLevel)
  (({ s with pwr := { s.pwr with thermFall := fall, thermOn := true } }).setCap .thermal l).log 8 1

section
variable {i : Nat} {x : Int}

theorem thermCap_of_cool (h : ¬sensorsWatched s ∨ i ∈ s.pwr.sensBad ∨ x < 115) : s.thermCap i x = s :=
  if_pos (by simpa [sensorsWatched, imp_iff_not_or, or_assoc] using h)

theorem thermCap_of_hot (hw : sensorsWatched s) (hvalid : i ∉ s.pwr.sensBad) (hx : 115 ≤ x) :
    let hot := (s.putTemp i x).noteAon fcThermalCap i
    let old := hot.reg Reg.pwrCapsTherm
    s.thermCap i x = if min old (hot.reg Reg.pwrThermCapLevel) = 0 ∧ old ≠ 0 then thermalFault (thermallyCapped hot)
      else thermallyCapped hot := by
  obtain ⟨haon, hs3⟩ := hw
  exact (if_neg (by simpa [haon, hs3, hvalid] using hx)).trans (if_congr (by simp) rfl rfl)

end

theorem thermStep_eq :
    let k := s.reg Reg.pwrCapsTherm
    let stepped := (({ s with pwr := { s.pwr with thermFall := some (s.now + 10000000) } }).setCap .thermal (k - 1)).log 8 2
    s.thermStep = if s.sty.up = true ∧ s.pwr.thermOn = true ∧ k ≠ 0 ∧ s.anyHot 120 = true ∧
        ∀ f, s.pwr.thermFall = some f → f ≤ s.now then
      if k = 1 then thermalFault stepped else stepped else s :=
  ite_of_guard (by simp [and_assoc, Option.any_eq_false]) _ _

/-! ### The trip and the start after it (R467, R468) -/

section
variable {i : Nat} {x : Int}

theorem trip_of_cool (h : ¬sensorsWatched s ∨ x < 130) : s.trip i x = s :=
  if_pos (by simpa [sensorsWatched, imp_iff_not_or] using h)

theorem trip_of_hot (hw : sensorsWatched s) (hx : 130 ≤ x) :
    let gone := (s.putTemp i x).raiseAon (mkReport fcThermalTrip 3 i 0 true)
    let down := (if gone.mainUp then gone.loseBuffers.mainDown else gone).mainPowerOff
    let dropped := { down with
      pwr := { down.pwr with tripped := true, loftGood := false, waking := none, loftLost := true }
      pins := { down.pins with pwrEnMain := false, pwrEnLoft := false, fdReady := false } }
    s.trip i x = dropped.pendStart 4 false true := by
  obtain ⟨haon, hs3⟩ := hw
  exact if_neg (by simpa [haon, hs3] using hx)

end

theorem tripOver_eq :
    let again := { s with pwr := { s.pwr with tripped := false }, pins := { s.pins with pwrEnMain := true, pwrEnLoft := true } }
    s.tripOver = if s.pwr.tripped = true ∧ s.hasStop = false ∧ s.anyHot 105 = false ∧ s.rst.resetLow = false then
      (again.pendStart 4 false true).mdrCause 5 else s :=
  ite_of_guard (by simp [and_assoc]) _ _

/-! ### Scans (R304, R505 to R507) -/

/-- The Study reads its sensors: it is up, outside S3. -/
def scanning (s : State) : Prop := s.sty.up = true ∧ s.pwr.state ≠ .s3

theorem not_guard_of_scanning (h : scanning s) : ¬(!s.sty.up || s.pwr.state == .s3) = true := by
  simpa [scanning] using h

theorem scanTemps_of_idle (h : ¬scanning s) (raw : Nat) : s.scanTemps raw = s :=
  if_pos (by simpa [scanning, imp_iff_not_or] using h)

theorem scanRails_of_idle (h : ¬scanning s) (mv cur : Nat) : s.scanRails mv cur = s :=
  if_pos (by simpa [scanning, imp_iff_not_or] using h)

end

/-- A scan takes every reading, judges each sensor and shows each slice's hotter stack sensor. -/
def scanJudged (s : State) (raw : Nat) : State :=
  let l := (List.range 64).map fun i => signed 16 (bitsAt raw (16 * i) 16)
  let taken := { s with pwr := { s.pwr with temps := l }, sty := { s.sty with scans := s.sty.scans + 1 } }
  (taken.each (List.range 64) fun s i => s.judgeSensor l i).each (List.range 18) State.sliceTemp

/-- PWR_THERM shows the hottest valid sensor. -/
def hottestShown (s : State) (h : Option (Int × Nat)) : State :=
  match h with
  | some (x, i) => ((s.tempByte x).2.setReg Reg.pwrThermHotMax (s.tempByte x).1).setReg Reg.pwrThermHotId i
  | none => s

/-- No sensor at 105 °C ends the trip's condition. -/
def tripJudged (s : State) : State := if s.anyHot 105 then s else s.endCondition fcThermalTrip fun _ => true

theorem scanTemps_of_scanning {s : State} (h : scanning s) (raw : Nat) :
    s.scanTemps raw = tripJudged (hottestShown (scanJudged s raw) (scanJudged s raw).hottest) := by
  rw [State.scanTemps, if_neg (not_guard_of_scanning h)]
  extract_lets readings pwr sty taken sensed judged shown
  have hshown : shown = hottestShown judged judged.hottest := by
    cases hx : judged.hottest with
    | none => simp only [shown, hottestShown, hx]
    | some x => simp only [shown, hottestShown, hx]
  exact congrArg tripJudged hshown

theorem tripJudged_of_hot {s : State} (h : s.anyHot 105 = true) : tripJudged s = s := if_pos h

theorem tripJudged_of_cool {s : State} (h : s.anyHot 105 = false) :
    tripJudged s = s.endCondition fcThermalTrip fun _ => true := if_neg (by simp [h])

/-- Settles O48: each event by whether its temperatures are reached, a scan by whether the Study reads its sensors. -/
theorem temperaturesAndScans : Obligations.TemperaturesAndScans := by
  refine ⟨fun t i temp s => ?_, fun t temps mv cur s => ?_⟩
  · have hcap := runs_thermalCap t i temp s
    have hstep := runs_congr (runs_thermalCapStep t s) thermStep_eq
    have htrip := runs_thermalTrip t i temp s
    have hover := runs_congr (runs_tripRestart t s) tripOver_eq
    exact ⟨fun hw hvalid hx => runs_congr hcap (thermCap_of_hot hw hvalid hx),
      fun h => runs_congr hcap (thermCap_of_cool h),
      fun hmay => runs_congr hstep (if_pos hmay), fun hnot => runs_congr hstep (if_neg hnot),
      fun hw hx => runs_congr htrip (trip_of_hot hw hx), fun h => runs_congr htrip (trip_of_cool h),
      fun hcool => runs_congr hover (if_pos hcool), fun hnot => runs_congr hover (if_neg hnot)⟩
  · intro a readings taken judged shown up
    have hscan := runs_sensorScan t temps s
    have hrails := runs_railScan t mv cur s
    have hshown : shown = hottestShown judged judged.hottest := by
      cases hx : judged.hottest with
      | none => simp only [shown, hottestShown, hx]
      | some x => simp only [shown, hottestShown, hx]
    have hrun (h : up) : Runs (.sensorScan t temps) s (tripJudged shown) :=
      runs_congr hscan ((scanTemps_of_scanning h _).trans (congrArg tripJudged hshown.symm))
    exact ⟨fun hidle => ⟨runs_congr hscan (scanTemps_of_idle hidle _), runs_congr hrails (scanRails_of_idle hidle _ _)⟩,
      fun hup hhot => runs_congr (hrun hup) (tripJudged_of_hot hhot),
      fun hup hcool => runs_congr (hrun hup) (tripJudged_of_cool hcool),
      fun hup => runs_congr hrails (if_neg (not_guard_of_scanning hup))⟩

end Sys2Proof.Proofs

/-! PROOFS. Sleep and wakes, power-on, RESET_N, GROUP_GOOD and restarts (14_power.md R449, R450, R470 to R477;
15_resets_and_retention.md R481 to R486; 16_study.md R504, R535). Each event of the model is first given by an equation per
case. -/

namespace Sys2Proof.Proofs
open Sys2Proof Sys2Proof.Machine Sys2Proof.Laws

section
variable {s : State}

/-! ### Doze and sleep (R470, R471, R477) -/

theorem doze_of_busy (h : s.pwr.idleSince = none) : s.doze = s := by
  simp only [State.doze, h]

theorem doze_of_idle {t0 : Nat} (h : s.pwr.idleSince = some t0) : s.doze =
    if s.mainUp = true ∧ s.pwr.state = .s0 ∧ s.flag Reg.pwrCtrlDozeEn = true ∧
        t0 + s.reg Reg.pwrCtrlDozeUs * 1000 ≤ s.now then { s with pwr := { s.pwr with state := .s1 } } else s := by
  simp only [State.doze, h]
  rw [us]
  exact if_congr (by simp [and_assoc]) rfl rfl

theorem sleepGo_of_grace {to3 : Bool} (h : s.pwr.entry = .grace to3) : s.sleepGo =
    if s.now < s.pwr.irrevAt + s.reg Reg.pwrCtrlGraceMs * 1000000 then s else s.sleepDown to3 := by
  simp only [State.sleepGo, h]
  rfl

/-- The device has slept for so many seconds, of which 0 counts as never. -/
theorem asleepFor_iff {n : Nat} : s.asleepFor n = true ↔
    n ≠ 0 ∧ (s.pwr.state = .s2 ∨ s.pwr.state = .s3) ∧ s.pwr.sleptAt + 1000 * n * 1000000 ≤ s.now := by
  simp only [State.asleepFor, Bool.and_eq_true, bne_iff_ne, Bool.or_eq_true, beq_iff_eq, decide_eq_true_eq, and_assoc]
  rfl

theorem s3Late_eq : s.s3Late =
    if s.pwr.state = .s2 ∧ s.asleepFor (60 * s.reg Reg.pwrRetainS3AfterMin) = true then s.s3FromS2 else s := by
  simp only [State.s3Late, Bool.and_eq_true, beq_iff_eq]

/-! ### Wake sources (R475) -/

theorem wakeRise_of_high (h : s.pins.wakeIn = true) : s.wakeRise = s := if_pos h

theorem wakeRise_of_low (h : s.pins.wakeIn = false) (haon : s.pwr.aonGood = true) :
    let rise := { s with pins := { s.pins with wakeIn := true } }
    s.wakeRise = ((rise.setFlag Reg.pwrStatusWakeIn true).log 4 1).wakeBy 2 :=
  (if_neg (by simp [h])).trans (if_neg (by simp [haon]))

theorem wakeFall_of_low (h : s.pins.wakeIn = false) : s.wakeFall = s := if_pos (by simp [h])

theorem wakeFall_of_high (h : s.pins.wakeIn = true) (haon : s.pwr.aonGood = true) :
    let fall := { s with pins := { s.pins with wakeIn := false } }
    s.wakeFall = (fall.setFlag Reg.pwrStatusWakeIn false).log 4 0 :=
  (if_neg (by simp [h])).trans (if_neg (by simp [haon]))

theorem wakeTimer_eq : s.wakeTimer =
    if s.pwr.aonGood = true ∧ s.asleepFor (s.reg Reg.pwrWakeTimerSeconds) = true then s.wakeBy 5 else s := by
  simp only [State.wakeTimer, Bool.and_eq_true]

/-! ### Power-on and RESET_N (R484, R485) -/

theorem cause_pins (s : State) (last source : Nat) : (s.cause last source).pins = s.pins := by
  simp only [State.cause, log_pins, setReg_pins]

theorem cause_rst (s : State) (last source : Nat) : (s.cause last source).rst = s.rst := by
  simp only [State.cause, log_rst, setReg_rst]

theorem porNow_shown : s.porNow.pins.pwrEnMain = true ∧ s.porNow.pins.pwrEnLoft = true ∧
    s.porNow.rst.starting = true ∧ s.porNow.rst.startKind = 1 := by
  simp only [State.porNow, cause_pins, cause_rst, State.pendStart, and_self]

theorem resetLow_of_off (h : s.pwr.aonGood = false ∨ s.rst.resetLow = true) : s.resetLow = s := if_pos (by simpa using h)

theorem resetLow_of_on (haon : s.pwr.aonGood = true) (hhigh : s.rst.resetLow = false) :
    let low := if s.mainUp then s.loseBuffers.mainDown else s
    let held := { low with pins := { low.pins with resetN := false, fdReady := false }
                           rst := { resetLow := true, mdrHeld := low.rst.mdrHeld }
                           pwr := { low.pwr with entry := .none, sleepTicket := none, waking := none, wakePending := none,
                                                 startAvs := none } }
    let quiet := { held with fb := { held.fb with collector := [], direct := [], test := none } }
    let off := { quiet.studyFresh with sty := { quiet.studyFresh.sty with up := false } }
    s.resetLow = off.ackAll.clearRecords := if_neg (by simp [haon, hhigh])

theorem resetBack_of_high (h : s.rst.resetLow = false) (found : List Finding) : s.resetBack found = s := if_pos (by simp [h])

/-- The companion die starts as RESET_N is released, and the main die's start is pending. -/
def resetReleased (s : State) (slept : Bool) : State :=
  let high := { s with pins := { s.pins with resetN := true }, rst := { s.rst with resetLow := false }
                       pwr := { s.pwr with state := .s0, loftLost := false }
                       tick := { s.tick with gapNext := s.tick.gapNext || slept } }
  let on := (high.companionStart 2).cause 2 0
  let fed := if on.pwr.tripped then on else { on with pins := { on.pins with pwrEnMain := true, pwrEnLoft := true } }
  fed.pendStart 2 false false

theorem resetBack_of_low (h : s.rst.resetLow = true) (found : List Finding) :
    s.resetBack found = (resetReleased s (decide (s.pwr.state = .s2 ∨ s.pwr.state = .s3))).tryStart found := by
  have hslept : decide (s.pwr.state = .s2 ∨ s.pwr.state = .s3) = (s.pwr.state == .s2 || s.pwr.state == .s3) := by
    rw [Bool.decide_or]
    rfl
  simp only [State.resetBack, h, Bool.not_true, Bool.false_eq_true, if_false, resetReleased, hslept]

/-! ### GROUP_GOOD (R449, R450) -/

theorem groupUp_main (found : List Finding) : s.groupUp .main found =
    if s.pins.pwrEnMain = true then ({ s with pwr := { s.pwr with mainGood := true } }).tryStart found else s := rfl

theorem groupUp_loft (found : List Finding) : s.groupUp .loft found =
    if s.pins.pwrEnLoft = true then ({ s with pwr := { s.pwr with loftGood := true } }).tryStart found else s := rfl

/-! ### Restarts (R481, R483, R486, R504, R535) -/

theorem mdrGo_of_none (h : s.rst.mdr = none) (found : List Finding) : s.mdrGo found = s := by
  simp only [State.mdrGo, h]

theorem mdrGo_of_some {j : MdrJob} (h : s.rst.mdr = some j) (found : List Finding) : s.mdrGo found =
    if s.mainUp = true ∧ s.wk.works = [] ∧ (∀ o ∈ s.rg.owed, o.sq.isSome = true) ∧
        j.t0 + s.reg Reg.pwrCtrlGraceMs * 1000000 ≤ s.now then
      (((s.saveAll.mainDown).pendStart 4 true false).mdrCause j.source).tryStart found
    else s := by
  simp only [State.mdrGo, h]
  rw [ms]
  exact ite_of_guard (by simp [State.quiet, State.paid, Option.isSome_iff_ne_none, and_assoc]) _ _

theorem strEnds_of_idle (h : s.rst.strBusy = false) : s.strEnds = s := if_pos (by simp [h])

theorem strEnds_of_busy (h : s.rst.strBusy = true) :
    let back := { s with sty := { s.sty with up := true }
                         rst := { s.rst with strBusy := false, afterPcr := false, afterMdr := false } }
    let pcr := if s.rst.afterPcr then back.pcr 11 else back
    s.strEnds = if s.rst.afterMdr then pcr.orderMdr 11 else pcr := if_neg (by simp [h])

theorem watchdogPcr_eq : s.watchdogPcr =
    if s.pwr.aonGood = true ∧ s.rst.resetLow = false ∧ s.pwr.state ≠ .s3 then s.pcr 13 else s := by
  simp [State.watchdogPcr, and_assoc]

end

/-- Settles O49: sleep and wakes by what is due, the starts by the pins and what holds them, restarts by what ordered them. -/
theorem sleepAndStarts : Obligations.SleepAndStarts := by
  refine ⟨fun t s => ?_, fun t found s => ?_, fun t found s => ?_⟩
  · have hdoze := runs_dozeEntry t s
    have hsleep := runs_sleepGraceExpiry t s
    have hs3 := runs_congr (runs_s3AfterTimeout t s) s3Late_eq
    have hrise := runs_wakeInRise t s
    have hfall := runs_wakeInFall t s
    have hmgmt := runs_mgmtWakeEdge t s
    have htimer := runs_congr (runs_wakeTimerExpiry t s) wakeTimer_eq
    refine ⟨fun t0 hidle => ⟨fun hdue => runs_congr hdoze ((doze_of_idle hidle).trans (if_pos hdue)),
        fun hearly => runs_congr hdoze ((doze_of_idle hidle).trans (if_neg hearly))⟩,
      fun hbusy => runs_congr hdoze (doze_of_busy hbusy),
      fun to3 hentry => ⟨fun hdue => runs_congr hsleep ((sleepGo_of_grace hentry).trans (if_neg (Nat.not_lt.2 hdue))),
        fun hearly => runs_congr hsleep ((sleepGo_of_grace hentry).trans (if_pos hearly))⟩,
      ⟨fun hs2 hlim hdue => runs_congr hs3 (if_pos ⟨hs2, asleepFor_iff.2 ⟨hlim, .inl hs2, hdue⟩⟩),
        fun hnot => runs_congr hs3 (if_neg ?_)⟩,
      fun hlow haon => runs_congr hrise (wakeRise_of_low hlow haon), fun hhigh => runs_congr hrise (wakeRise_of_high hhigh),
      fun hhigh haon => runs_congr hfall (wakeFall_of_high hhigh haon), fun hlow => runs_congr hfall (wakeFall_of_low hlow),
      fun haon => runs_congr hmgmt (if_pos haon), fun hoff => runs_congr hmgmt (if_neg (Bool.eq_false_iff.1 hoff)),
      fun haon hslept hlim hdue => runs_congr htimer (if_pos ⟨haon, asleepFor_iff.2 ⟨hlim, hslept, hdue⟩⟩),
      fun hnot => runs_congr htimer (if_neg ?_)⟩
    · rintro ⟨hs2, hslept⟩
      obtain ⟨hlim, -, hdue⟩ := asleepFor_iff.1 hslept
      exact hnot.elim (· hs2) (·.elim hlim (Nat.not_lt.2 hdue))
    · rintro ⟨-, hslept⟩
      obtain ⟨hlim, hasleep, hdue⟩ := asleepFor_iff.1 hslept
      exact hnot.elim (· hasleep) (·.elim hlim (Nat.not_lt.2 hdue))
  · have hassert := runs_resetNAssert t s
    have hrelease := runs_resetNRelease t found s
    have hmain := runs_congr (runs_groupGood t .main found s) (groupUp_main found)
    have hloft := runs_congr (runs_groupGood t .loft found s) (groupUp_loft found)
    obtain ⟨hpwrMain, hpwrLoft, hstarting, hkind⟩ := porNow_shown (s := s.at_ t)
    exact ⟨runs_por t s, hpwrMain, hpwrLoft, hstarting, hkind,
      fun haon hhigh => runs_congr hassert (resetLow_of_on haon hhigh), fun hno => runs_congr hassert (resetLow_of_off hno),
      fun hlow => runs_congr hrelease ((resetBack_of_low hlow found).trans (tryStart_eq found)),
      fun hhigh => runs_congr hrelease (resetBack_of_high hhigh found),
      fun hon => runs_congr hmain ((if_pos hon).trans (tryStart_eq found)),
      fun hoff => runs_congr hmain (if_neg (Bool.eq_false_iff.1 hoff)),
      fun hon => runs_congr hloft ((if_pos hon).trans (tryStart_eq found)),
      fun hoff => runs_congr hloft (if_neg (Bool.eq_false_iff.1 hoff))⟩
  · have hmdr := runs_mdrGraceExpiry t found s
    have hends := runs_studyRestartComplete t s
    have hstudy := runs_studyWatchdog t s
    have hporch := runs_congr (runs_porchWatchdog t s) watchdogPcr_eq
    exact ⟨fun hnone => runs_congr hmdr (mdrGo_of_none hnone found),
      fun j hj => ⟨fun hdue => runs_congr hmdr ((mdrGo_of_some hj found).trans ((if_pos hdue).trans (tryStart_eq found))),
        fun hearly => runs_congr hmdr ((mdrGo_of_some hj found).trans (if_neg hearly))⟩,
      fun hbusy => runs_congr hends (strEnds_of_busy hbusy), fun hidle => runs_congr hends (strEnds_of_idle hidle),
      fun hup => runs_congr hstudy (if_pos hup), fun hdown => runs_congr hstudy (if_neg (Bool.eq_false_iff.1 hdown)),
      fun hon => runs_congr hporch (if_pos hon), fun hoff => runs_congr hporch (if_neg hoff)⟩

end Sys2Proof.Proofs

/-! PROOFS. The update path and the ordering messages (16_study.md R497, R500, R528, R532 to R535; 14_power.md R475, R477). A
request that the Study takes is answered by what its handler gives; each message has its answers by case. -/

namespace Sys2Proof.Proofs
open Sys2Proof Sys2Proof.Machine Sys2Proof.Laws

/-! ### Requests that the Study takes (R528) -/

/-- The reply to a handled request, and what is ordered once that is out. -/
def answered (src : MsgSrc) (m : Msg) (k : Option Session) (h : Handled) : State :=
  let b := h.s.reply src m k h.result h.body
  match h.after with
  | some g => g (b.replyNow src)
  | none => b

section
variable {a b c : State} {src : MsgSrc} {type : Nat} {open_ : Bool} {m : Msg} {k : Option Session}
  {f : Msg → State → Handled} (ht : a.takesMsg src type open_ m k c) (hlisted : messageTypes.contains type = true)
include ht hlisted

/-- A request that is taken is answered as its handler says. -/
theorem message_of_takes : a.message src type open_ f = answered src m k (f m c) := by
  obtain ⟨b, bs, harrived, rfl, htype, hadmit, hok, hmode⟩ := ht
  subst htype
  simp only [State.message, harrived, hlisted, hadmit, hok, hmode, Bool.not_true, Bool.false_eq_true, ne_eq,
    not_true_eq_false, if_false]
    <;> rfl

theorem message_replies {r : Nat} (hf : f m c = { s := b, result := r }) :
    a.message src type open_ f = b.reply src m k r [] := by
  rw [message_of_takes ht hlisted, hf]
  rfl

theorem message_orders {g : State → State} (hf : f m c = { s := b, after := some g }) :
    a.message src type open_ f = g ((b.reply src m k 0 []).replyNow src) := by
  rw [message_of_takes ht hlisted, hf]
  rfl

end

/-! ### Requests about the update under way (R533) -/

/-- The update under way belongs to the request's session and is in one of the phases. -/
def owned (c : State) (m : Msg) (phases : List Nat) (u : Update) : Prop :=
  c.sty.update = some u ∧ u.session = m.session ∧ u.phase ∈ phases

section
variable {a b c : State} {src : MsgSrc} {type : Nat} {m : Msg} {k : Option Session} {phases : List Nat}
  {f : Msg → State → Update → Handled} {u : Update} (ht : a.takesMsg src type false m k c)
  (hlisted : messageTypes.contains type = true)
include ht hlisted

theorem updateMsg_of_none (hu : c.sty.update = none) : a.updateMsg src type phases f = c.reply src m k 3 [] :=
  message_replies ht hlisted (by simp only [hu, rsMode])

theorem updateMsg_of_other_session (hu : c.sty.update = some u) (hs : u.session ≠ m.session) :
    a.updateMsg src type phases f = c.reply src m k 4 [] :=
  message_replies ht hlisted (by simp only [hu, hs, ne_eq, not_false_eq_true, if_true, rsBusy])

theorem updateMsg_of_other_phase (hu : c.sty.update = some u) (hs : u.session = m.session) (hp : u.phase ∉ phases) :
    a.updateMsg src type phases f = c.reply src m k 3 [] := by
  refine message_replies ht hlisted ?_
  simp [hu, hs, hp, rsMode]

theorem updateMsg_handler (h : owned c m phases u) : a.updateMsg src type phases f = answered src m k (f m c u) := by
  obtain ⟨hu, hs, hp⟩ := h
  refine (message_of_takes ht hlisted).trans ?_
  simp [hu, hs, hp]

theorem updateMsg_replies (h : owned c m phases u) {r : Nat} (hf : f m c u = { s := b, result := r }) :
    a.updateMsg src type phases f = b.reply src m k r [] := by
  rw [updateMsg_handler ht hlisted h, hf]
  rfl

theorem updateMsg_orders (h : owned c m phases u) {g : State → State} (hf : f m c u = { s := b, after := some g }) :
    a.updateMsg src type phases f = g ((b.reply src m k 0 []).replyNow src) := by
  rw [updateMsg_handler ht hlisted h, hf]
  rfl

end

section
variable {a c : State} {src : MsgSrc} {m : Msg} {k : Option Session}

/-! ### UPDATE_BEGIN (R532, R533) -/

/-- The body of an UPDATE_BEGIN names a kind of update and a length that it may have. -/
def updateFits (body : List Byte) (kind len : Nat) : Prop :=
  body.length = 37 ∧ 1 ≤ kind ∧ kind ≤ 5 ∧ len ≠ 0 ∧ len ≤ updateLimit kind

/-- The mode of the Study refuses an update of a kind. -/
def updateRefused (c : State) (kind : Nat) : Prop :=
  (c.safeFloor = true ∧ c.reg Reg.styModeSfReason = 1 ∧ kind ≠ 1) ∨ (kind = 4 ∧ c.inTrial = true)

theorem updateFits_iff {kind len : Nat} :
    ¬(m.body.length ≠ 37 || kind = 0 || 5 < kind || len = 0 || updateLimit kind < len) = true ↔
      updateFits m.body kind len := by
  simp [updateFits, and_assoc, Nat.one_le_iff_ne_zero]

theorem updateRefused_iff {kind : Nat} :
    (c.safeFloor && c.reg Reg.styModeSfReason == 1 && kind != 1) = true ∨ (kind = 4 && c.inTrial) = true ↔
      updateRefused c kind := by
  simp [updateRefused, and_assoc]

section
variable (ht : a.takesMsg src 0x20 false m k c)
include ht

theorem beginMsg_of_busy (hu : c.sty.update.isSome = true) : a.beginMsg src = c.reply src m k 4 [] :=
  message_replies ht rfl (if_pos hu)

variable (hu : c.sty.update = none)
include hu

theorem beginMsg_of_misfit (h : ¬updateFits m.body (ofBytes (m.body.take 1)) (ofBytes ((m.body.drop 1).take 4))) :
    a.beginMsg src = c.reply src m k 5 [] :=
  message_replies ht rfl ((if_neg (by simp [hu])).trans (if_pos (not_not.1 (updateFits_iff.not.2 h))))

variable (hfits : updateFits m.body (ofBytes (m.body.take 1)) (ofBytes ((m.body.drop 1).take 4)))
include hfits

theorem beginMsg_of_refused (h : updateRefused c (ofBytes (m.body.take 1))) :
    a.beginMsg src = c.reply src m k 3 [] :=
  message_replies ht rfl ((if_neg (by simp [hu])).trans ((if_neg (updateFits_iff.2 hfits)).trans
    ((ite_or _ _ _ _).symm.trans (if_pos (updateRefused_iff.2 h)))))

theorem beginMsg_of_taken (h : ¬updateRefused c (ofBytes (m.body.take 1))) :
    let kind := ofBytes (m.body.take 1)
    let new : Update := { kind := kind, length := ofBytes ((m.body.drop 1).take 4), digest := m.body.drop 5,
                          session := m.session }
    let e := c.emptySlot kind
    a.beginMsg src = (({ e with sty := { e.sty with update := some new } }).log 5 1).reply src m k 0 [] :=
  message_replies ht rfl ((if_neg (by simp [hu])).trans ((if_neg (updateFits_iff.2 hfits)).trans
    ((ite_or _ _ _ _).symm.trans (if_neg (updateRefused_iff.not.2 h)))))

end

/-! ### UPDATE_DATA (R533) -/

/-- The bytes of an UPDATE_DATA are none, or lie beyond the length, or are more than a port takes. -/
def misfits (src : MsgSrc) (m : Msg) (u : Update) : Prop :=
  m.body.drop 4 = [] ∨ u.length < ofBytes (m.body.take 4) + (m.body.drop 4).length ∨
    (fromPort src = true ∧ 1024 < (m.body.drop 4).length)

section
variable {u : Update} {flashOk : Bool}

theorem misfits_iff : ((m.body.drop 4).isEmpty || u.length < ofBytes (m.body.take 4) + (m.body.drop 4).length
    || (fromPort src && 1024 < (m.body.drop 4).length)) = true ↔ misfits src m u := by
  simp only [misfits, Bool.or_eq_true, Bool.and_eq_true, List.isEmpty_iff, decide_eq_true_eq, or_assoc]

variable (ht : a.takesMsg src 0x21 false m k c) (hmine : owned c m [1] u)
include ht hmine

theorem dataMsg_of_misfit (h : misfits src m u) : a.dataMsg src flashOk = c.reply src m k 5 [] :=
  updateMsg_replies ht rfl hmine (if_pos (misfits_iff.2 h))

theorem dataMsg_of_worn (h : ¬misfits src m u) (hkind : u.kind ≠ 5) (hflash : flashOk = false) :
    a.dataMsg src flashOk = c.reply src m k 9 [] :=
  updateMsg_replies ht rfl hmine ((if_neg (misfits_iff.not.2 h)).trans (if_pos (by simp [hkind, hflash])))

theorem dataMsg_of_written (h : ¬misfits src m u) (hflash : u.kind = 5 ∨ flashOk = true) :
    a.dataMsg src flashOk =
      (c.setUpdate { u with data := mwrite u.data (ofBytes (m.body.take 4)) (m.body.drop 4) }).reply src m k 0 [] :=
  updateMsg_replies ht rfl hmine ((if_neg (misfits_iff.not.2 h)).trans
    (if_neg (by simpa [imp_iff_not_or] using hflash)))

end

/-! ### UPDATE_VERIFY (R533, R534) -/

/-- The staged bytes hold an image of the Keyhole that it cannot load. -/
def badKeyImage (what : Staged) : Bool :=
  match what with
  | .keyhole i => !keyImageOk i
  | _ => false

section
variable {u : Update} {what : Staged}

theorem badKeyImage_of_verified {kind : Nat} (h : c.verdictOf kind what = 0) : badKeyImage what = false := by
  cases what with
  | image ok i => rfl
  | generation ok g => rfl
  | keyhole i =>
    by_contra hbad
    have hi : keyImageOk i = false := by simpa [badKeyImage] using hbad
    simp [State.verdictOf, hi, rsVerify] at h

/-- A verdict is OK or why not. -/
theorem verdict_cases {x : Handled} {y : Nat → Handled} (v : Nat) : (match v with
    | 0 => x
    | r => y r) = if v = 0 then x else y v := by
  cases v <;> rfl

variable (ht : a.takesMsg src 0x22 false m k c) (hmine : owned c m [1] u)
include ht hmine

theorem verifyMsg_of_body (h : m.body ≠ []) : a.verifyMsg src what = c.reply src m k 5 [] :=
  updateMsg_replies ht rfl hmine (if_pos (by simpa using h))

variable (h : m.body = [])
include h

theorem verifyMsg_of_empty : a.verifyMsg src what = answered src m k
    (if c.verdictOf u.kind what = 0 then { s := (c.setUpdate { u with phase := 2, what := some what }).log 5 2 }
      else { s := if u.kind = 5 ∧ badKeyImage what = true then c.noteAon fcKeyImage else c
             result := c.verdictOf u.kind what }) := by
  refine (updateMsg_handler ht rfl hmine).trans (congrArg _ ((if_neg (by simp [h])).trans ?_))
  cases what with
  | image ok i => exact (verdict_cases _).trans (by simp [badKeyImage])
  | generation ok g => exact (verdict_cases _).trans (by simp [badKeyImage])
  | keyhole i =>
    have hnote : (if (u.kind ≠ 5 || keyImageOk i) = true then c else c.noteAon fcKeyImage) =
        if u.kind = 5 ∧ badKeyImage (.keyhole i) = true then c.noteAon fcKeyImage else c :=
      ite_of_guard (by simp [badKeyImage]) _ _
    refine (verdict_cases _).trans ?_
    simp only [hnote]
    by_cases h0 : c.verdictOf u.kind (.keyhole i) = 0
    · simp only [badKeyImage_of_verified h0, Bool.false_eq_true, and_false, if_false]
    · rw [if_neg h0]
      exact if_neg h0

theorem verifyMsg_of_passed (h0 : c.verdictOf u.kind what = 0) : a.verifyMsg src what =
    ((c.setUpdate { u with phase := 2, what := some what }).log 5 2).reply src m k 0 [] := by
  rw [verifyMsg_of_empty ht hmine h, if_pos h0]
  rfl

theorem verifyMsg_of_failed (h0 : c.verdictOf u.kind what ≠ 0) : a.verifyMsg src what =
    (if u.kind = 5 ∧ badKeyImage what = true then c.noteAon fcKeyImage else c).reply src m k
      (c.verdictOf u.kind what) [] := by
  rw [verifyMsg_of_empty ht hmine h, if_neg h0]
  rfl

end

/-! ### UPDATE_COMMIT and UPDATE_ABORT (R533, R534) -/

/-- The update is committed. -/
def committed (b : State) (u : Update) : State := (b.setUpdate { u with phase := 3 }).log 5 3

/-- To raise the anti-rollback counter to the image's FLOOR would bar an image that runs. -/
def floorBars (c : State) (x : Image) : Prop :=
  c.fuses.rollback < max c.fuses.rollback x.floor ∧ c.riseBars (max c.fuses.rollback x.floor) = true

theorem floorBars_iff {x : Image} :
    (c.fuses.rollback < max c.fuses.rollback x.floor && c.riseBars (max c.fuses.rollback x.floor)) = true ↔
      floorBars c x := by
  simp only [floorBars, Bool.and_eq_true, decide_eq_true_eq]

section
variable {u : Update} {flashOk : Bool} (ht : a.takesMsg src 0x23 false m k c) (hmine : owned c m [2] u)
include ht hmine

theorem commitMsg_of_body (h : m.body ≠ []) : a.commitMsg src flashOk = c.reply src m k 5 [] :=
  updateMsg_replies ht rfl hmine (if_pos (by simpa using h))

variable (h : m.body = [])
include h

section
variable {ok : Bool} {x : Image} (hwhat : u.what = some (.image ok x))
include hwhat

theorem commitMsg_of_barred (hbars : floorBars c x) : a.commitMsg src flashOk = c.reply src m k 7 [] :=
  updateMsg_replies ht rfl hmine (by simp only [h, hwhat, floorBars_iff.2 hbars]; rfl)

theorem commitMsg_of_image_worn (hbars : ¬floorBars c x) (hflash : flashOk = false) :
    a.commitMsg src flashOk = c.reply src m k 9 [] :=
  updateMsg_replies ht rfl hmine (by simp only [h, hwhat, Bool.eq_false_iff.2 (floorBars_iff.not.2 hbars), hflash]; rfl)

theorem commitMsg_of_image (hbars : ¬floorBars c x) (hflash : flashOk = true) : a.commitMsg src flashOk =
    (committed (c.commitImage u.kind x (max c.fuses.rollback x.floor)) u).reply src m k 0 [] :=
  updateMsg_replies ht rfl hmine (by
    simp only [h, hwhat, Bool.eq_false_iff.2 (floorBars_iff.not.2 hbars), hflash, committed]
    rfl)

end

section
variable {ok : Bool} {g : Generation} (hwhat : u.what = some (.generation ok g))
include hwhat

theorem commitMsg_of_generation_worn (hflash : flashOk = false) : a.commitMsg src flashOk = c.reply src m k 9 [] :=
  updateMsg_replies ht rfl hmine (by simp only [h, hwhat, hflash]; rfl)

theorem commitMsg_of_generation (hflash : flashOk = true) :
    a.commitMsg src flashOk = (committed ((c.commitGen g).log 6 1) u).reply src m k 0 [] :=
  updateMsg_replies ht rfl hmine (by simp only [h, hwhat, hflash, committed]; rfl)

end

theorem commitMsg_of_keyhole {i : KeyImage} (hwhat : u.what = some (.keyhole i)) : a.commitMsg src flashOk =
    (committed (c.requestChange (.image i.level i.phrases.length)) u).reply src m k 0 [] :=
  updateMsg_replies ht rfl hmine (by simp only [h, hwhat, committed]; rfl)

end

section
variable {u : Update} (ht : a.takesMsg src 0x25 false m k c) (hmine : owned c m [1, 2] u)
include ht hmine

theorem abortMsg_of_body (h : m.body ≠ []) : a.abortMsg src = c.reply src m k 5 [] :=
  updateMsg_replies ht rfl hmine (if_pos (by simpa using h))

theorem abortMsg_of_empty (h : m.body = []) : a.abortMsg src = c.endUpdate.reply src m k 0 [] :=
  updateMsg_replies ht rfl hmine (if_neg (by simp [h]))

end

/-! ### UPDATE_ACTIVATE (R497, R535) -/

/-- The update under way is over, as the logbook notes. -/
def updateOver (b : State) : State := ({ b with sty := { b.sty with update := none } }).log 5 4

/-- The generation is the staged one, and newer than the current one. -/
def activatable (c : State) (g : Generation) : Prop :=
  c.genStateAt (c.stageSlot 4) = .staged ∧ ∀ x, c.currentGen = some x → x.number < g.number

theorem activatable_iff {g : Generation} :
    ¬(c.genStateAt (c.stageSlot 4) != .staged || (c.currentGen.isSome &&
      g.number ≤ (c.currentGen.map fun x => x.number).getD 0)) = true ↔ activatable c g := by
  cases hcur : c.currentGen <;> simp [activatable, hcur]

/-- The staged generation enters its trial, with its own counts. -/
def trialStarted (c : State) (g : Generation) : State :=
  let x := c.setGenState (c.stageSlot 4) .trial
  let y := (({ x with flash := { x.flash with
    startsLeft := g.starts, ticksLeft := g.ticks, reverted := false } }).setReg Reg.rstGenClean 0).showGens.log 6 2
  if y.safeFloor then y.runSet else y

section
variable {u : Update} {ok : Bool} (ht : a.takesMsg src 0x24 false m k c) (hmine : owned c m [3] u)
include ht hmine

theorem activateMsg_of_body (h : m.body ≠ []) : a.activateMsg src = c.reply src m k 5 [] :=
  updateMsg_replies ht rfl hmine (if_pos (by simpa using h))

variable (h : m.body = [])
include h

theorem activateMsg_of_image {x : Image} (hwhat : u.what = some (.image ok x)) :
    let b := c.runSet
    let changed := fun (j : Nat) => c.safeFloor != b.safeFloor || lget c.sty.set_ j 0 != lget b.sty.set_ j 0
    a.activateMsg src =
      (((updateOver b).reply src m k 0 []).replyNow src).restartImages (changed 0) (changed 1) (changed 2) :=
  updateMsg_orders ht rfl hmine (g := fun x => x.restartImages _ _ _) (by simp only [h, hwhat]; rfl)

theorem activateMsg_of_keyhole {i : KeyImage} (hwhat : u.what = some (.keyhole i)) :
    a.activateMsg src = (updateOver c).reply src m k 0 [] :=
  updateMsg_replies ht rfl hmine (by simp only [h, hwhat]; rfl)

variable {g : Generation} (hwhat : u.what = some (.generation ok g))
include hwhat

theorem activateMsg_of_stale (hold : ¬activatable c g) : a.activateMsg src = c.reply src m k 3 [] :=
  updateMsg_replies ht rfl hmine (by
    simp only [h, hwhat]
    exact if_pos (not_not.1 (activatable_iff.not.2 hold)))

theorem activateMsg_of_generation (hnew : activatable c g) : a.activateMsg src =
    (((updateOver (trialStarted c g)).reply src m k 0 []).replyNow src).orderMdr 9 .pcr false :=
  updateMsg_orders ht rfl hmine (g := fun b => b.orderMdr 9 .pcr false) (by
    simp only [h, hwhat]
    rw [if_neg (by simp), if_neg (activatable_iff.2 hnew)]
    simp only [State.activateGen, trialStarted, updateOver])

end

/-! ### The ordering messages (R475, R477, R500, R528) -/

section
variable {f : State → Handled}

theorem plain_of_empty (h : m.body = []) : plain f m c = f c := if_pos (by simp [h])

theorem plain_of_body (h : m.body ≠ []) : plain f m c = { s := c, result := rsArg } := if_neg (by simpa using h)

end

section
variable (ht : a.takesMsg src 0x30 false m k c)
include ht

theorem revertMsg_of_body (h : m.body ≠ []) : a.revertMsg src = c.reply src m k 5 [] :=
  message_replies ht rfl (plain_of_body h)

theorem revertMsg_of_none (h : m.body = []) (hr : c.revert = none) :
    a.revertMsg src = (c.noteAon fcRstReq).reply src m k 3 [] :=
  message_replies ht rfl ((plain_of_empty h).trans (by simp only [hr]; rfl))

theorem revertMsg_of_some {r : State} (h : m.body = []) (hr : c.revert = some r) :
    let b := (c.reply src m k 0 []).replyNow src
    a.revertMsg src = b.revert.getD b :=
  message_orders ht rfl (g := fun b => b.revert.getD b) ((plain_of_empty h).trans (by simp only [hr]))

end

/-- A body is given by the numbers that its bytes stand for. -/
theorem eq_singleton_of_map_toNat {l : List Byte} {n : Nat} (h : (l.map fun b => b.toNat) = [n]) :
    l = [BitVec.ofNat 8 n] := by
  obtain ⟨b, rfl, rfl⟩ := List.map_eq_singleton_iff.1 h
  simp

section
variable (ht : a.takesMsg src 0x40 false m k c)
include ht

theorem resetMsg_mdr (h : m.body = [1]) :
    a.resetMsg src = (((c.reply src m k 0 []).replyNow src).ackAll).orderMdr 8 :=
  message_orders ht rfl (g := fun b => b.ackAll.orderMdr 8) (by simp only [h]; rfl)

theorem resetMsg_str (h : m.body = [3]) : a.resetMsg src = ((c.reply src m k 0 []).replyNow src).str 8 :=
  message_orders ht rfl (g := fun b => b.str 8) (by simp only [h]; rfl)

theorem resetMsg_pcr (h : m.body = [4]) : a.resetMsg src = ((c.reply src m k 0 []).replyNow src).pcr 8 :=
  message_orders ht rfl (g := fun b => b.pcr 8) (by simp only [h]; rfl)

theorem resetMsg_of_other (h : m.body ∉ [[1], [3], [4]]) : a.resetMsg src = c.reply src m k 5 [] := by
  refine message_replies ht rfl ?_
  split
  next h1 => simp [eq_singleton_of_map_toNat h1] at h
  next h3 => simp [eq_singleton_of_map_toNat h3] at h
  next h4 => simp [eq_singleton_of_map_toNat h4] at h
  next => rfl

end

/-- The device sleeps in S2, neither entering a sleep nor waking. -/
def asleepInS2 (c : State) : Prop := c.pwr.state = .s2 ∧ c.pwr.entry = .none ∧ c.pwr.waking = none

theorem asleepInS2_iff :
    ¬(c.pwr.state != .s2 || c.pwr.entry != .none || c.pwr.waking.isSome) = true ↔ asleepInS2 c := by
  simp [asleepInS2, and_assoc]

section
variable (ht : a.takesMsg src 0x41 false m k c)
include ht

theorem sleepMsg_of_body (h : m.body ≠ []) : a.sleepMsg src = c.reply src m k 5 [] :=
  message_replies ht rfl (plain_of_body h)

theorem sleepMsg_of_asleep (h : m.body = []) (hs2 : asleepInS2 c) :
    a.sleepMsg src = ((c.reply src m k 0 []).replyNow src).s3FromS2 :=
  message_orders ht rfl ((plain_of_empty h).trans (if_neg (asleepInS2_iff.2 hs2)))

theorem sleepMsg_of_other (h : m.body = []) (hs2 : ¬asleepInS2 c) : a.sleepMsg src = c.reply src m k 3 [] :=
  message_replies ht rfl ((plain_of_empty h).trans (if_pos (not_not.1 (asleepInS2_iff.not.2 hs2))))

end

section
variable (ht : a.takesMsg src 0x42 false m k c)
include ht

theorem wakeMsg_of_body (h : m.body ≠ []) : a.wakeMsg src = c.reply src m k 5 [] :=
  message_replies ht rfl (plain_of_body h)

theorem wakeMsg_of_port (h : m.body = []) (hport : fromPort src = true) :
    a.wakeMsg src = ((c.reply src m k 0 []).replyNow src).wakeBy 4 :=
  message_orders ht rfl (g := fun b => b.wakeBy 4) ((plain_of_empty h).trans (if_pos hport))

theorem wakeMsg_of_mailbox (h : m.body = []) (hport : fromPort src = false) : a.wakeMsg src = c.reply src m k 3 [] :=
  message_replies ht rfl ((plain_of_empty h).trans (if_neg (Bool.eq_false_iff.1 hport)))

end

end

/-! ### The update under way and the request (R533) -/

/-- Every request about the update under way answers MODE without one, BUSY where it is another session's, and MODE in another
phase. -/
theorem runs_update_refusals {i : Instr} {s a c : State} {src : MsgSrc} {type : Nat} {m : Msg} {k : Option Session}
    {phases : List Nat} {f : Msg → State → Update → Handled} (hlisted : messageTypes.contains type = true)
    (hrun : i.wellFormed = true → Runs i s (a.updateMsg src type phases f)) (ht : a.takesMsg src type false m k c) :
    (c.sty.update = none → i.wellFormed = true → Runs i s (c.reply src m k 3 [])) ∧
    (∀ u, c.sty.update = some u → u.session ≠ m.session → i.wellFormed = true → Runs i s (c.reply src m k 4 [])) ∧
    (∀ u, c.sty.update = some u → u.session = m.session → u.phase ∉ phases → i.wellFormed = true →
      Runs i s (c.reply src m k 3 [])) :=
  ⟨fun hu hwf => runs_congr (hrun hwf) (updateMsg_of_none ht hlisted hu),
    fun _ hu hs hwf => runs_congr (hrun hwf) (updateMsg_of_other_session ht hlisted hu hs),
    fun _ hu hs hp hwf => runs_congr (hrun hwf) (updateMsg_of_other_phase ht hlisted hu hs hp)⟩

/-- Settles O59: each message by the answers of its handler, those about the update under way after what they share. -/
theorem updatesAndOrders : Obligations.UpdatesAndOrders := by
  refine ⟨fun t src flashOk what s c m k => ?_, fun t src s c m k => ?_⟩
  · have hbegin := runs_updateBegin t src s
    have hdata := runs_updateData t src flashOk s
    have hverify := runs_updateVerify t src what s
    have hcommit := runs_updateCommit t src flashOk s
    have habort := runs_updateAbort t src s
    refine ⟨fun ht hu hwf => runs_congr (hbegin hwf) (beginMsg_of_busy ht hu),
      fun ht hu hfits hwf => runs_congr (hbegin hwf) (beginMsg_of_misfit ht hu hfits),
      fun ht hu hfits hmode hwf => runs_congr (hbegin hwf) (beginMsg_of_refused ht hu hfits hmode),
      fun ht hu hfits hmode hwf => runs_congr (hbegin hwf) (beginMsg_of_taken ht hu hfits hmode),
      runs_update_refusals rfl hdata, runs_update_refusals rfl hverify, runs_update_refusals rfl hcommit,
      runs_update_refusals rfl habort, ?_, ?_, ?_, ?_⟩
    · rintro u ⟨ht, hmine⟩
      exact ⟨fun hfit hwf => runs_congr (hdata hwf) (dataMsg_of_misfit ht hmine hfit),
        fun hfit hkind hflash hwf => runs_congr (hdata hwf) (dataMsg_of_worn ht hmine hfit hkind hflash),
        fun hfit hflash hwf => runs_congr (hdata hwf) (dataMsg_of_written ht hmine hfit hflash)⟩
    · rintro u ⟨ht, hmine⟩
      exact ⟨fun hb hwf => runs_congr (hverify hwf) (verifyMsg_of_body ht hmine hb),
        fun hb h0 hwf => runs_congr (hverify hwf) (verifyMsg_of_passed ht hmine hb h0),
        fun hb h0 hwf => runs_congr (hverify hwf) (verifyMsg_of_failed ht hmine hb h0)⟩
    · rintro u ⟨ht, hmine⟩
      refine ⟨fun hb hwf => runs_congr (hcommit hwf) (commitMsg_of_body ht hmine hb), fun ok x hb hwhat => ⟨?_, ?_, ?_⟩,
        fun ok g hb hwhat => ⟨?_, ?_⟩,
        fun i hb hwhat hwf => runs_congr (hcommit hwf) (commitMsg_of_keyhole ht hmine hb hwhat)⟩
      · exact fun hbars hwf => runs_congr (hcommit hwf) (commitMsg_of_barred ht hmine hb hwhat hbars)
      · exact fun hbars hflash hwf => runs_congr (hcommit hwf) (commitMsg_of_image_worn ht hmine hb hwhat hbars hflash)
      · exact fun hbars hflash hwf => runs_congr (hcommit hwf) (commitMsg_of_image ht hmine hb hwhat hbars hflash)
      · exact fun hflash hwf => runs_congr (hcommit hwf) (commitMsg_of_generation_worn ht hmine hb hwhat hflash)
      · exact fun hflash hwf => runs_congr (hcommit hwf) (commitMsg_of_generation ht hmine hb hwhat hflash)
    · rintro u ⟨ht, hmine⟩
      exact ⟨fun hb hwf => runs_congr (habort hwf) (abortMsg_of_body ht hmine hb),
        fun hb hwf => runs_congr (habort hwf) (abortMsg_of_empty ht hmine hb)⟩
  · have hactivate := runs_updateActivate t src s
    have hrevert := runs_settingsRevert t src s
    have hreset := runs_reset t src s
    have hsleep := runs_sleepS3 t src s
    have hwake := runs_wake t src s
    refine ⟨fun ht hu hwf => runs_congr (hactivate hwf) (updateMsg_of_none ht rfl hu),
      fun u ht hu hs hwf => runs_congr (hactivate hwf) (updateMsg_of_other_session ht rfl hu hs),
      fun u ht hu hs hp hwf => runs_congr (hactivate hwf) (updateMsg_of_other_phase ht rfl hu hs (by simpa using hp)),
      fun u ht hu hs hp => ?_,
      fun ht hb hr hwf => runs_congr (hrevert hwf) (revertMsg_of_none ht hb hr),
      fun r ht hb hr hwf => runs_congr (hrevert hwf) (revertMsg_of_some ht hb hr),
      fun ht hb hwf => runs_congr (hrevert hwf) (revertMsg_of_body ht hb),
      fun ht hb hwf => runs_congr (hreset hwf) (resetMsg_mdr ht hb),
      fun ht hb hwf => runs_congr (hreset hwf) (resetMsg_str ht hb),
      fun ht hb hwf => runs_congr (hreset hwf) (resetMsg_pcr ht hb),
      fun ht hb hwf => runs_congr (hreset hwf) (resetMsg_of_other ht hb),
      fun ht hb hs2 hwf => runs_congr (hsleep hwf) (sleepMsg_of_asleep ht hb hs2),
      fun ht hb hs2 hwf => runs_congr (hsleep hwf) (sleepMsg_of_other ht hb hs2),
      fun ht hb hport hwf => runs_congr (hwake hwf) (wakeMsg_of_port ht hb hport),
      fun ht hb hport hwf => runs_congr (hwake hwf) (wakeMsg_of_mailbox ht hb hport),
      fun ht hb hwf => runs_congr (hsleep hwf) (sleepMsg_of_body ht hb),
      fun ht hb hwf => runs_congr (hwake hwf) (wakeMsg_of_body ht hb)⟩
    have hmine : owned c m [3] u := ⟨hu, hs, by simp [hp]⟩
    exact ⟨fun hb hwf => runs_congr (hactivate hwf) (activateMsg_of_body ht hmine hb),
      fun ok x hb hwhat hwf => runs_congr (hactivate hwf) (activateMsg_of_image ht hmine hb hwhat),
      fun ok g hb hwhat => ⟨fun hold hwf => runs_congr (hactivate hwf) (activateMsg_of_stale ht hmine hb hwhat hold),
        fun hnew hwf => runs_congr (hactivate hwf) ((activateMsg_of_generation ht hmine hb hwhat hnew).trans
          (by simp only [updateOver, trialStarted]))⟩,
      fun i hb hwhat hwf => runs_congr (hactivate hwf) (activateMsg_of_keyhole ht hmine hb hwhat)⟩

end Sys2Proof.Proofs

/-! PROOFS. The queue and every command: a command answers a settled state or, with operands that its event cannot carry, its
fault (assumption 7); so every step keeps the pins in accord (19_fusebox.md R596; 04_rings_and_doorbells.md R147 to R150). In a
quiet machine each part of `State.onward` but the last two leaves the state as it is (assumption 5). -/

namespace Sys2Proof.Proofs
open Sys2Proof Sys2Proof.Machine Sys2Proof.Laws

/-! ### The shape of every command's answer -/

/-- Every arm of the dispatch ends in `finish`, or in `guarded` with the command's own condition. -/
theorem exec_guarded (c : Instr) (s : State) : ∃ u, exec c s = guarded c.wellFormed u := by
  cases c <;> exact ⟨_, rfl⟩

theorem exec_of_wellFormed {c : Instr} (h : c.wellFormed = true) (s : State) : ∃ u : State, exec c s = .next u.settle := by
  obtain ⟨u, hu⟩ := exec_guarded c s
  exact ⟨u, hu.trans (if_pos h)⟩

theorem exec_of_illFormed {c : Instr} (h : c.wellFormed = false) (s : State) : exec c s = .fault .illFormedCommand := by
  obtain ⟨u, hu⟩ := exec_guarded c s
  exact hu.trans (if_neg (Bool.eq_false_iff.1 h))

/-- A next state of a command is a settled one. -/
theorem settled_of_exec {c : Instr} {s t : State} (h : exec c s = .next t) : ∃ u : State, t = u.settle := by
  cases hwf : c.wellFormed with
  | true =>
    obtain ⟨u, hu⟩ := exec_of_wellFormed hwf s
    exact ⟨u, Host.Outcome.next.inj (h.symm.trans hu)⟩
  | false =>
    rw [exec_of_illFormed hwf] at h
    cases h

/-! ### What drives the pins -/

section
variable (s : State)

theorem settle_faultLow : s.settle.faultLow = s.faultLow := rfl
theorem settle_stopLow : s.settle.stopLow = s.stopLow := rfl
theorem settle_attnPins : s.settle.attnPins = s.attnPins := rfl

/-- Settling moves no source of a pin, so the pins it sets follow. -/
theorem pinsFollow_settle : s.settle.pinsFollow = true := by
  simp only [State.pinsFollow, settle_faultLow, settle_stopLow, settle_attnPins]
  simp [State.settle]

theorem step_nil (h : s.pending = []) : step s = .next s := by
  simp only [step, h]

theorem step_cons {c : Instr} {rest : List Instr} (h : s.pending = c :: rest) :
    step s = exec c { s with pending := rest } := by
  simp only [step, h]

end

/-! ### What follows at once, in a quiet machine -/

section
variable {s : State}

theorem clearRecords_of_none (h : ∀ e ∈ s.fb.recs, e.2.acked = true → e.2.active = true) : s.clearRecords = s := by
  have hgone : s.fb.recs.filter (fun e => e.2.acked && !e.2.active) = [] :=
    List.filter_eq_nil_iff.2 fun e he => by simpa using h e he
  have hkept : s.fb.recs.filter (fun e => !(e.2.acked && !e.2.active)) = s.fb.recs :=
    List.filter_eq_self.2 fun e he => by simpa [← Bool.not_eq_true, imp_iff_not_or] using h e he
  simp only [State.clearRecords, hgone, hkept, State.each, List.foldl_nil]

theorem clearGo_of_none (h : ∀ e ∈ s.fb.recs, e.2.acked = true → e.2.active = true) : s.clearGo = s := by
  simp [State.clearGo, clearRecords_of_none h]

theorem startLate_of_idle (h : s.mayStart = false ∨ s.pwr.startAvs.isSome = true) : s.startLate = s :=
  if_neg (by rcases h with h | h <;> simp [h, Option.isNone_eq_false_iff.2])

theorem stopLate_of_none (h : s.fb.stopWait = false) : s.stopLate = s := if_neg (by simp [h])

theorem galGo_of_none (h : s.gal.ends = []) : s.galGo = s := if_pos (by simp [h])

theorem unpark_of_none (h : s.wk.works = []) : s.unpark = s := by
  simp only [State.unpark, State.mapWorks, h, List.map_nil]
  simp only [← h]

/-- With no list, none ends, starts or resumes. -/
theorem schedule_of_none (hworks : s.wk.works = []) (hbatches : s.wk.batches = []) : s.schedule = s := by
  have hreap : s.reap = s := by simp [State.reap, hworks, State.each]
  have hreleased : s.releaseParked = s := by simp [State.releaseParked, hbatches, State.each]
  simp [State.schedule, hreap, hreleased, hworks, State.promoteN, State.resumeShares, State.each]

theorem stepsGo_of_none (hworks : s.wk.works = []) (hshares : s.strm.shares = []) : s.stepsGo = s :=
  if_neg (by simp [hworks, hshares])

theorem placeGo_of_none (h : s.wk.places = []) : s.placeGo = s := by
  simp [State.placeGo, State.endPlaces, h, State.each]

theorem dropMigrates_of_none (h : s.wk.places = []) : s.dropMigrates = s := by
  simp only [State.dropMigrates, h, List.filter_nil]
  simp only [← h]

theorem pwGo_of_none (h : s.fuses.links = true → s.pw.lateReqs = [] ∧ ∀ j < 16, (s.pwJob j).closing = false) :
    s.pwGo = s := by
  unfold State.pwGo
  split
  next hlinks =>
    obtain ⟨hlate, hjobs⟩ := h hlinks
    have hserved : s.serveLate = s := if_pos (by simp [hlate])
    have hclosed (l : List Nat) (hl : ∀ j ∈ l, j < 16) :
        s.each l (fun s j => if (s.pwJob j).closing && s.jobState j != 0 && !s.jobBusy j then s.jobClosed j else s) = s := by
      induction l with
      | nil => rfl
      | cons j l ih =>
        obtain ⟨hj, hrest⟩ := List.forall_mem_cons.1 hl
        simpa [State.each, hjobs j hj] using ih hrest
    exact (congrArg State.closeLate hserved).trans (hclosed _ fun j hj => List.mem_range.1 hj)
  next => rfl

theorem tsrGo_of_none (h : s.sec.tsr = none) : s.tsrGo = s := by simp only [State.tsrGo, h]

theorem sleepSettles_of_none (h : s.pwr.entry = .none) : s.sleepSettles = s := by simp only [State.sleepSettles, h]

theorem payOwed_of_none (h : s.rg.owed = []) : s.payOwed = s := by
  simp only [State.payOwed, h, State.each, List.foldl_nil]
  simp only [← h]

theorem errFlush_of_noRing (h : s.rg.sq = []) : s.errFlush = s := by simp [State.errFlush, h, State.each]

theorem ringWaits_of_noRing (h : s.rg.sq = []) : s.ringWaits = s := by simp [State.ringWaits, h, State.each]

theorem holdOver_of_none (h : s.fb.bondHold = []) : s.holdOver = s := if_pos (by simp [h])

theorem entryGo_of_none (h : s.pwr.entry = .none) : s.entryGo = s := by simp only [State.entryGo, h]

theorem idleGo_of_counted (hmain : s.mainUp = true) (hidle : s.working = false) (hsince : s.pwr.idleSince.isSome = true) :
    s.idleGo = s := by
  simp [State.idleGo, hmain, hidle, Option.isSome_iff_ne_none.1 hsince]

end

/-! ### What records written to the window leave as it is -/

/-- What the rings' waits leave as it is: the power state, where a sleep entry stands, and the holds of lane replacements. -/
def holdFrame (s : State) : PwrSt × List Nat := (s.pwr, s.fb.bondHold)

section
variable (s : State)

@[simp] theorem holdFrame_setSq (n : Nat) (q : SqSt) : holdFrame (s.setSq n q) = holdFrame s := rfl
@[simp] theorem holdFrame_setCq (n : Nat) (q : CqSt) : holdFrame (s.setCq n q) = holdFrame s := rfl
@[simp] theorem holdFrame_owe (n : Nat) (sq : Option Nat) (b : Nat → Nat) (u : Bool) :
    holdFrame (s.owe n sq b u) = holdFrame s := rfl
@[simp] theorem holdFrame_putSector (ch bank row sec : Nat) (bs : List Byte) :
    holdFrame (s.putSector ch bank row sec bs) = holdFrame s := rfl

@[simp] theorem holdFrame_reportKeys (l : List Nat) : holdFrame (s.reportKeys l) = holdFrame s :=
  reportKeys_keeps holdFrame (fun _ _ => rfl) (fun _ _ => rfl) s l

@[simp] theorem holdFrame_clearKeys (l : List Nat) : holdFrame (s.clearKeys l) = holdFrame s :=
  clearKeys_keeps holdFrame (fun _ _ _ => rfl) s l

@[simp] theorem holdFrame_zeroRow (ch bank row : Nat) : holdFrame (s.zeroRow ch bank row) = holdFrame s :=
  holdFrame_clearKeys s _

@[simp] theorem holdFrame_winPut (off : Nat) (bs : List Byte) : holdFrame (s.winPut off bs) = holdFrame s := by
  unfold State.winPut
  dsimp only
  split <;> split <;> simp

@[simp] theorem holdFrame_winWriteN (off : Nat) (bs : List Byte) (fuel : Nat) :
    holdFrame (s.winWriteN off bs fuel) = holdFrame s := by
  induction fuel generalizing s off bs with
  | zero => rfl
  | succ fuel ih =>
    unfold State.winWriteN
    split
    · rfl
    · exact (ih _ _ _).trans (holdFrame_winPut s off _)

@[simp] theorem holdFrame_recordArrived (n : Nat) (u : Bool) : holdFrame (s.recordArrived n u) = holdFrame s := by
  unfold State.recordArrived
  split <;> rfl

@[simp] theorem holdFrame_putRecord (n : Nat) (b : Nat → Nat) (u : Bool) : holdFrame (s.putRecord n b u) = holdFrame s := by
  unfold State.putRecord State.writeRecord State.winWrite
  dsimp only
  split <;> simp

@[simp] theorem holdFrame_errFlush : holdFrame s.errFlush = holdFrame s := by
  refine each_keeps holdFrame (fun s n => ?_) s _
  dsimp only
  split
  · rfl
  · split <;> simp

@[simp] theorem holdFrame_ringWaits : holdFrame s.ringWaits = holdFrame s :=
  each_keeps holdFrame (fun s n => by split <;> simp) s _

end

/-! ### The statements -/

/-- Settles O1: the front command is the one that runs. -/
theorem stepRunsFrontCommand : Obligations.StepRunsFrontCommand := fun _ _ _ => step_cons _ rfl

/-- Settles O3: the dispatch has no arm but finished and guarded ones. -/
theorem wellFormedCommandsRun : Obligations.WellFormedCommandsRun := by
  refine fun c s => ⟨fun h => ?_, fun h => exec_of_illFormed h s⟩
  obtain ⟨u, hu⟩ := exec_of_wellFormed h s
  exact ⟨u.settle, hu⟩

/-- Settles O4: an empty queue leaves the state, and every command leaves a settled one. -/
theorem stepKeepsPins : Obligations.StepKeepsPins := by
  intro s t hs hstep
  cases hq : s.pending with
  | nil =>
    rw [step_nil s hq, Host.Outcome.next.injEq] at hstep
    exact hstep ▸ hs
  | cons c rest =>
    rw [step_cons s hq] at hstep
    obtain ⟨u, rfl⟩ := settled_of_exec hstep
    exact pinsFollow_settle u

/-- Settles O2: of the parts of `State.onward` only the rings' waits and the idle time have something to do. -/
theorem quietMachineRests : Obligations.QuietMachineRests := by
  refine ⟨step_nil, fun s hrecs hstart hstop hends howed hworks hshares hbatches hplaces htsr hentry hhold hlinks => ?_⟩
  have hrest : s.onward = s.errFlush.ringWaits.idleGo := by
    have hframe : holdFrame s.errFlush.ringWaits = holdFrame s := by simp
    obtain ⟨hpwr, hbond⟩ := Prod.mk.inj hframe
    have hover : s.errFlush.ringWaits.holdOver = s.errFlush.ringWaits := holdOver_of_none (hbond.trans hhold)
    have hgo : s.errFlush.ringWaits.entryGo = s.errFlush.ringWaits :=
      entryGo_of_none ((congrArg PwrSt.entry hpwr).trans hentry)
    simp only [State.onward, clearGo_of_none hrecs, startLate_of_idle hstart, stopLate_of_none hstop, galGo_of_none hends,
      unpark_of_none hworks, schedule_of_none hworks hbatches, stepsGo_of_none hworks hshares, placeGo_of_none hplaces,
      dropMigrates_of_none hplaces, pwGo_of_none hlinks, tsrGo_of_none htsr, sleepSettles_of_none hentry,
      payOwed_of_none howed, hover, hgo]
  have hnoRing (hsq : s.rg.sq = []) : s.onward = s.idleGo := by
    rw [hrest, errFlush_of_noRing hsq, ringWaits_of_noRing hsq]
  exact ⟨hrest, hnoRing, fun hsq hmain hidle hsince => (hnoRing hsq).trans (idleGo_of_counted hmain hidle hsince)⟩

end Sys2Proof.Proofs

/-! PROOFS. Management messages that read, sessions and the Study's times (16_study.md R508, R520 to R531, R536, R538 to R540;
17_security.md R560, R563). What a message comes to before its type matters is said once, of every handler; each message then
has its answers by case. -/

namespace Sys2Proof.Proofs
open Sys2Proof Sys2Proof.Machine Sys2Proof.Laws

/-! ### What a message comes to before its type matters (R523 to R526, R528) -/

section
variable {a b c : State} {src : MsgSrc} {type : Nat} {open_ : Bool} {k : Option Session} {f : Msg → State → Handled}

theorem message_of_lost (harrived : a.arrivedMsg src = (b, none)) : a.message src type open_ f = b := by
  simp only [State.message, harrived]

section
variable {bs : List Byte} (harrived : a.arrivedMsg src = (b, some bs))
include harrived

theorem message_of_unlisted (hlisted : (readMsg bs).type ∉ messageTypes) :
    a.message src type open_ f = b.reply src (readMsg bs) none 1 [] := by
  simp only [State.message, harrived, List.contains_eq_mem, hlisted, decide_false, Bool.not_false, if_true, rsType]

variable (hlisted : messageTypes.contains type = true) (htype : (readMsg bs).type = type)
include hlisted htype

theorem message_of_refused (hadmit : b.admitMsg (readMsg bs) open_ (fromPort src) = (c, .refused)) :
    a.message src type open_ f = c.reply src (readMsg bs) none 2 [] := by
  subst htype
  simp only [State.message, harrived, hlisted, hadmit, Bool.not_true, Bool.false_eq_true, ne_eq, not_true_eq_false, if_false,
    rsAuth]

variable (hadmit : b.admitMsg (readMsg bs) open_ (fromPort src) = (c, .accepted k))
include hadmit

theorem message_of_malformed (hok : (readMsg bs).ok = false) :
    a.message src type open_ f = c.reply src (readMsg bs) k 5 [] := by
  subst htype
  simp only [State.message, harrived, hlisted, hadmit, hok, Bool.not_true, Bool.not_false, Bool.false_eq_true, ne_eq,
    not_true_eq_false, if_false, if_true, rsArg]

theorem message_of_wrong_mode (hok : (readMsg bs).ok = true) (hmode : c.modeAccepts type = false) :
    a.message src type open_ f = c.reply src (readMsg bs) k 3 [] := by
  subst htype
  simp only [State.message, harrived, hlisted, hadmit, hok, hmode, Bool.not_true, Bool.not_false, Bool.false_eq_true, ne_eq,
    not_true_eq_false, if_false, if_true, rsMode]

end

/-- A command that runs a message of a listed type passes every message through the same checks. -/
theorem runs_message_gate {i : Instr} {s : State} (hlisted : messageTypes.contains type = true)
    (hrun : i.wellFormed = true → Runs i s (a.message src type open_ f)) (hwf : i.wellFormed = true) :
    (∀ b, a.arrivedMsg src = (b, none) → Runs i s b) ∧
    (∀ b bs, a.arrivedMsg src = (b, some bs) → let m := readMsg bs
      (m.type ∉ messageTypes → Runs i s (b.reply src m none 1 [])) ∧
      (m.type = type → ∀ c, b.admitMsg m open_ (fromPort src) = (c, .refused) → Runs i s (c.reply src m none 2 [])) ∧
      (m.type = type → ∀ c k, b.admitMsg m open_ (fromPort src) = (c, .accepted k) →
        (m.ok = false → Runs i s (c.reply src m k 5 [])) ∧
        (m.ok = true → c.modeAccepts type = false → Runs i s (c.reply src m k 3 [])))) :=
  ⟨fun _ harrived => runs_congr (hrun hwf) (message_of_lost harrived),
    fun _ _ harrived => ⟨fun hnot => runs_congr (hrun hwf) (message_of_unlisted harrived hnot),
      fun htype _ hadmit => runs_congr (hrun hwf) (message_of_refused harrived hlisted htype hadmit),
      fun htype _ _ hadmit =>
        ⟨fun hok => runs_congr (hrun hwf) (message_of_malformed harrived hlisted htype hadmit hok),
          fun hok hmode => runs_congr (hrun hwf) (message_of_wrong_mode harrived hlisted htype hadmit hok hmode)⟩⟩⟩

end

/-! ### Session, tag and counter (R524 to R526) -/

section
variable {s : State} {m : Msg} {open_ port : Bool} {x : Session}

theorem admitMsg_of_no_session (h : m.session = 0) :
    s.admitMsg m open_ port = (s, if open_ then .accepted none else .refused) := if_pos h

variable (h0 : m.session ≠ 0)
include h0

theorem admitMsg_of_unheld (h : ∀ x ∈ s.sty.sessions, x.num ≠ m.session) : s.admitMsg m open_ port = (s, .refused) := by
  have hnone : s.sty.sessions.find? (fun y => y.num == m.session) = none := List.find?_eq_none.2 fun x hx => by simpa using h x hx
  simp only [State.admitMsg, h0, if_false, hnone]

variable (hx : s.sty.sessions.find? (fun y => y.num == m.session) = some x)
include hx

theorem admitMsg_of_wrong_tag (h : m.tag ≠ kmac256 x.key m.signed "SH16 MSG") :
    s.admitMsg m open_ port = (s.authFails port, .refused) := by
  simp only [State.admitMsg, h0, if_false, hx, bne_iff_ne.2 h, if_true]

variable (htag : m.tag = kmac256 x.key m.signed "SH16 MSG")
include htag

theorem admitMsg_of_stale (h : m.counter ≤ x.counter) : s.admitMsg m open_ port = (s, .refused) := by
  simp only [State.admitMsg, h0, if_false, hx, htag, bne_self_eq_false, Bool.false_eq_true, h, if_true]

theorem admitMsg_of_fresh (h : x.counter < m.counter) :
    let y := { x with counter := m.counter, last := s.now }
    s.admitMsg m open_ port =
      ({ s with sty := { s.sty with sessions := s.sty.sessions.map fun z => if z.num = x.num then y else z } },
       .accepted (some y)) := by
  simp only [State.admitMsg, h0, if_false, hx, htag, bne_self_eq_false, Bool.false_eq_true, Nat.not_le.2 h]

end

/-- Settles O56: the update messages check what every message checks, with an update asked for after that. -/
theorem messagesAdmitted : Obligations.MessagesAdmitted := by
  refine ⟨fun t src flashOk what s => ?_, fun s m open_ port => ?_, fun m result body x => ⟨rfl, rfl⟩⟩
  · exact ⟨runs_message_gate rfl (runs_identity t src s), runs_message_gate rfl (runs_status t src s),
      runs_message_gate rfl (runs_challenge t src s), runs_message_gate rfl (runs_auth t src s),
      runs_message_gate rfl (runs_heartbeat t src s), runs_message_gate rfl (runs_quote t src s),
      runs_message_gate rfl (runs_sensorRead t src s), runs_message_gate rfl (runs_logRead t src s),
      runs_message_gate rfl (runs_updateBegin t src s), runs_message_gate rfl (runs_updateData t src flashOk s),
      runs_message_gate rfl (runs_updateVerify t src what s), runs_message_gate rfl (runs_updateCommit t src flashOk s),
      runs_message_gate rfl (runs_updateActivate t src s), runs_message_gate rfl (runs_updateAbort t src s),
      runs_message_gate rfl (runs_settingsRevert t src s), runs_message_gate rfl (runs_reset t src s),
      runs_message_gate rfl (runs_sleepS3 t src s), runs_message_gate rfl (runs_wake t src s),
      runs_message_gate rfl (runs_provisionOwner t src s)⟩
  · exact ⟨fun h0 hopen => (admitMsg_of_no_session h0).trans (by rw [if_pos hopen]),
      fun h0 hopen => (admitMsg_of_no_session h0).trans (by rw [if_neg (Bool.eq_false_iff.1 hopen)]),
      fun h0 hnone => admitMsg_of_unheld h0 hnone, fun x h0 hx htag => admitMsg_of_wrong_tag h0 hx htag,
      fun x h0 hx htag hold => admitMsg_of_stale h0 hx htag hold, fun x h0 hx htag hnew => admitMsg_of_fresh h0 hx htag hnew,
      fun hfew => if_pos hfew, fun hmany => if_neg (Nat.not_lt.2 hmany)⟩

/-! ### The reading messages (R508, R525, R528, R536, R560, R563) -/

section
variable {a b c : State} {src : MsgSrc} {type : Nat} {open_ : Bool} {m : Msg} {k : Option Session} {body : List Byte}

/-- A request that is taken is answered OK, with a body. -/
theorem message_answers {f : Msg → State → Handled} (ht : a.takesMsg src type open_ m k c)
    (hlisted : messageTypes.contains type = true) (hf : f m c = { s := b, body := body }) :
    a.message src type open_ f = b.reply src m k 0 body := by
  rw [message_of_takes ht hlisted, hf]
  rfl

section
variable {f : State → Handled} (ht : a.takesMsg src type open_ m k c) (hlisted : messageTypes.contains type = true)
include ht hlisted

theorem plainMsg_of_body (h : m.body ≠ []) : a.message src type open_ (plain f) = c.reply src m k 5 [] :=
  message_replies ht hlisted (plain_of_body h)

theorem plainMsg_of_empty (h : m.body = []) (hf : f c = { s := b, body := body }) :
    a.message src type open_ (plain f) = b.reply src m k 0 body :=
  message_answers ht hlisted ((plain_of_empty h).trans hf)

end

section
variable (ht : a.takesMsg src 0x05 true m k c)
include ht

theorem heartbeatMsg_of_body (h : m.body.length ≠ 32) : a.heartbeatMsg src = c.reply src m k 5 [] :=
  message_replies ht rfl (if_pos h)

theorem heartbeatMsg_of_nonce (h : m.body.length = 32) :
    let beat := { c with sty := { c.sty with hbSeq := c.sty.hbSeq + 1, hbLast := c.now } }
    a.heartbeatMsg src = beat.reply src m k 0 (beat.heartState ++ shake256 (m.body ++ beat.heartState) 32) :=
  message_answers ht rfl (if_neg (not_not.2 h))

end

/-- The block of the next attestation index is reserved, or can be (17_security.md R560). -/
def indexUsable (c : State) : Prop := c.attIndex / 1024 ≤ c.sec.attHigh ∨ c.flash.recordOk = true

theorem indexUsable_iff :
    ¬(decide (c.sec.attHigh < c.attIndex / 1024) && !c.flash.recordOk) = true ↔ indexUsable c := by
  rw [Bool.and_eq_true, not_and_or, decide_eq_true_eq, Nat.not_lt]
  simp [indexUsable]

section
variable (ht : a.takesMsg src 0x06 true m k c)
include ht

theorem quoteMsg_of_body (h : m.body.length ≠ 32) : a.quoteMsg src = c.reply src m k 5 [] :=
  message_replies ht rfl (if_pos h)

variable (h : m.body.length = 32)
include h

theorem quoteMsg_of_usable (hindex : indexUsable c) : a.quoteMsg src = c.useAttIndex.reply src m k 0 (c.quoteReply m.body) :=
  message_answers ht rfl ((if_neg (not_not.2 h)).trans (if_neg (indexUsable_iff.2 hindex)))

theorem quoteMsg_of_worn (hindex : ¬indexUsable c) : a.quoteMsg src = c.reply src m k 9 [] :=
  message_replies ht rfl ((if_neg (not_not.2 h)).trans (if_pos (not_not.1 (indexUsable_iff.not.2 hindex))))

end

section
variable (ht : a.takesMsg src 0x11 false m k c)
include ht

theorem logMsg_of_body (h : m.body.length ≠ 4) : a.logMsg src = c.reply src m k 5 [] := message_replies ht rfl (if_pos h)

theorem logMsg_of_seq (h : m.body.length = 4) : a.logMsg src = c.reply src m k 0
    ((((c.flash.log ++ c.sty.tail).filter fun e => decide (ofBytes m.body ≤ entrySeq e)).take 16).flatMap fun e =>
      toBytes 64 e.toNat) :=
  message_answers ht rfl (if_neg (not_not.2 h))

end

end

/-! ### The heartbeat's layout (R536) -/

theorem ofBytes_take_laid (n x : Nat) (r : List Byte) : ofBytes ((toBytes n x ++ r).take n) = x % 256 ^ n := by
  rw [List.take_left' (toBytes_length n x), ofBytes_toBytes]

theorem drop_laid {n i : Nat} (h : n ≤ i) (x : Nat) (r : List Byte) : (toBytes n x ++ r).drop i = r.drop (i - n) := by
  rw [List.drop_append, List.drop_of_length_le (by simpa using h), List.nil_append, toBytes_length]

/-- Each number reads back once those laid out before it are dropped. -/
theorem heartState_laid (s : State) (h1 : s.sty.scans < 2 ^ 32) (h2 : s.sty.logSeq < 2 ^ 32) (h3 : s.sty.hbSeq < 2 ^ 32) :
    let b := s.heartState
    let at_ := fun (i n : Nat) => ofBytes ((b.drop i).take n)
    b.length = 32 ∧ at_ 0 4 = s.sty.scans ∧ at_ 4 4 = s.tick.number.toNat % 2 ^ 32 ∧
    at_ 8 1 = s.reg Reg.pwrThermHotMax % 256 ∧ at_ 9 1 = (s.level + 16 * s.capsLimiting) % 256 ∧
    at_ 10 1 = s.regValue 0x10 % 256 ∧ at_ 11 1 = 0 ∧ at_ 12 4 = s.sty.logSeq ∧ at_ 16 4 = s.sty.hbSeq ∧ at_ 20 12 = 0 := by
  have hcaps : s.capsLimiting <<< 4 = 16 * s.capsLimiting := by rw [Nat.shiftLeft_eq, Nat.mul_comm]
  have hlaid : s.heartState = toBytes 4 s.sty.scans ++ (toBytes 4 s.tick.number.toNat ++
      (toBytes 1 (s.reg Reg.pwrThermHotMax) ++ (toBytes 1 (s.level + 16 * s.capsLimiting) ++ (toBytes 1 (s.regValue 0x10) ++
        (toBytes 1 0 ++ (toBytes 4 s.sty.logSeq ++ (toBytes 4 s.sty.hbSeq ++ (toBytes 12 0 ++ [])))))))) := by
    simp only [State.heartState, hcaps, List.append_assoc]
    rfl
  rw [hlaid]
  simp (disch := decide) only [drop_laid, ofBytes_take_laid, List.drop_zero, Nat.reduceSub, Nat.reducePow, Nat.zero_mod]
  simpa using ⟨h1, h2, h3⟩

/-- Settles O57: each reading message by its body, the layout of STATE by dropping what stands before each number. -/
theorem messagesRead : Obligations.MessagesRead := by
  refine ⟨fun t src s c m k => ?_, heartState_laid⟩
  have hheart := runs_heartbeat t src s
  have hquote := runs_quote t src s
  have hlog := runs_logRead t src s
  exact ⟨fun ht hb hwf => runs_congr (runs_identity t src s hwf) (plainMsg_of_empty ht rfl hb rfl),
    fun ht hb hwf => runs_congr (runs_identity t src s hwf) (plainMsg_of_body ht rfl hb),
    fun ht hb hwf => runs_congr (runs_status t src s hwf) (plainMsg_of_empty ht rfl hb rfl),
    fun ht hb hwf => runs_congr (runs_status t src s hwf) (plainMsg_of_body ht rfl hb),
    fun ht hb hwf => runs_congr (runs_challenge t src s hwf) (plainMsg_of_empty ht rfl hb rfl),
    fun ht hb hwf => runs_congr (runs_challenge t src s hwf) (plainMsg_of_body ht rfl hb),
    fun ht hb hwf => runs_congr (hheart hwf) (heartbeatMsg_of_nonce ht hb),
    fun ht hb hwf => runs_congr (hheart hwf) (heartbeatMsg_of_body ht hb),
    fun ht hb hindex hwf => runs_congr (hquote hwf) (quoteMsg_of_usable ht hb hindex),
    fun ht hb hindex hwf => runs_congr (hquote hwf) (quoteMsg_of_worn ht hb hindex),
    fun ht hb hwf => runs_congr (hquote hwf) (quoteMsg_of_body ht hb),
    fun ht hb hwf => runs_congr (runs_sensorRead t src s hwf) (plainMsg_of_empty ht rfl hb rfl),
    fun ht hb hwf => runs_congr (runs_sensorRead t src s hwf) (plainMsg_of_body ht rfl hb),
    fun ht hb hwf => runs_congr (hlog hwf) (logMsg_of_seq ht hb),
    fun ht hb hwf => runs_congr (hlog hwf) (logMsg_of_body ht hb)⟩

/-! ### AUTH and PROVISION_OWNER (R524 to R526) -/

section
variable {a c : State} {src : MsgSrc} {m : Msg} {k : Option Session}

/-- A nonce of the last 10 s. -/
def liveNonces (c : State) : List (List Byte × Nat) := c.sty.nonces.filter fun x => decide (c.now ≤ x.2 + 10000000000)

/-- The body of an AUTH proves the key over a nonce. -/
def proves (key : List Byte) (m : Msg) (x : List Byte × Nat) : Bool :=
  kmac256 key (x.1 ++ m.body.take 8) "SH16 AUTH" == m.body.drop 8

section
variable (ht : a.takesMsg src 0x04 true m k c)
include ht

theorem authMsg_of_body (h : m.body.length ≠ 40) : a.authMsg src = c.reply src m k 5 [] := message_replies ht rfl (if_pos h)

variable (h : m.body.length = 40)
include h

theorem authMsg_of_lockout (hlock : c.authRefused (fromPort src) = true) : a.authMsg src = c.reply src m k 2 [] :=
  message_replies ht rfl ((if_neg (not_not.2 h)).trans (if_pos hlock))

variable (hlock : c.authRefused (fromPort src) = false)
include hlock

theorem authMsg_of_unowned (hslots : c.fuses.slots = []) :
    a.authMsg src = (c.authFails (fromPort src)).reply src m k 2 [] := by
  refine message_replies ht rfl ((if_neg (not_not.2 h)).trans ((if_neg (Bool.eq_false_iff.1 hlock)).trans ?_))
  simp only [hslots, List.getLast?_nil, rsAuth]

variable {o : BitVec 256} (ho : c.fuses.slots.getLast? = some o)
include ho

theorem authMsg_of_unproved (hnone : ∀ x ∈ liveNonces c, proves (toBytes 32 o.toNat) m x = false) :
    a.authMsg src = (c.authFails (fromPort src)).reply src m k 2 [] := by
  have hfind : (liveNonces c).find? (proves (toBytes 32 o.toNat) m) = none :=
    List.find?_eq_none.2 fun x hx => Bool.eq_false_iff.1 (hnone x hx)
  refine message_replies ht rfl ((if_neg (not_not.2 h)).trans ((if_neg (Bool.eq_false_iff.1 hlock)).trans ?_))
  simp only [ho]
  split
  next => rfl
  next x hx => exact absurd (hx.symm.trans hfind) (Option.some_ne_none x)

theorem authMsg_of_proved {x : List Byte × Nat} (hx : (liveNonces c).find? (proves (toBytes 32 o.toNat) m) = some x) :
    let key := toBytes 32 o.toNat
    let d := ({ c with sty := { c.sty with nonces := (liveNonces c).filter fun y => y != x } }).roomForSession
    let e := { d with free := d.free + 1 }
    let num := e.newSession d.free
    let y : Session :=
      { num := num, key := kmac256 key (x.1 ++ m.body.take 8 ++ toBytes 4 num) "SH16 SESSION", last := e.now }
    a.authMsg src = (({ e with sty := { e.sty with sessions := e.sty.sessions ++ [y] } }).log 10 2).reply src m k 0
      (toBytes 4 num) := by
  refine message_answers ht rfl ((if_neg (not_not.2 h)).trans ((if_neg (Bool.eq_false_iff.1 hlock)).trans ?_))
  simp only [ho]
  split
  next hnone => exact absurd (hx.symm.trans hnone) (Option.some_ne_none x)
  next y hy =>
    obtain rfl := Option.some.inj (hy.symm.trans hx)
    rfl

end

section
variable (ht : a.takesMsg src 0x50 a.fuses.slots.isEmpty m k c)
include ht

theorem provisionMsg_of_port (hport : fromPort src = true) : a.provisionMsg src = c.reply src m k 3 [] :=
  message_replies ht rfl (if_pos hport)

variable (hport : fromPort src = false)
include hport

theorem provisionMsg_of_body (h : m.body.length ≠ 64) : a.provisionMsg src = c.reply src m k 5 [] :=
  message_replies ht rfl ((if_neg (Bool.eq_false_iff.1 hport)).trans (if_pos h))

variable (h : m.body.length = 64)
include h

theorem provisionMsg_of_full (hfull : 4 ≤ c.fuses.slots.length) : a.provisionMsg src = c.reply src m k 10 [] :=
  message_replies ht rfl ((if_neg (Bool.eq_false_iff.1 hport)).trans ((if_neg (not_not.2 h)).trans (if_pos hfull)))

theorem provisionMsg_of_slot (hslot : c.fuses.slots.length < 4) :
    a.provisionMsg src = (c.provision (m.body.take 32) (m.body.drop 32)).reply src m k 0 [] :=
  message_replies ht rfl
    ((if_neg (Bool.eq_false_iff.1 hport)).trans ((if_neg (not_not.2 h)).trans (if_neg (Nat.not_le.2 hslot))))

end

end

/-! ### Sessions that close (R526, R532) -/

section
variable {s : State} {n : Nat}

theorem endUpdate_update (s : State) : s.endUpdate.sty.update = none := by
  unfold State.endUpdate
  split
  next h => exact h
  next => rfl

theorem num_ne_of_mem_closeSession {x : Session} (h : x ∈ (s.closeSession n).sty.sessions) : x.num ≠ n := by
  simpa using List.of_mem_filter h

theorem closeSession_update_of_other (h : ∀ y, s.sty.update = some y → y.session ≠ n) :
    (s.closeSession n).sty.update = s.sty.update := by
  have hnot : ¬(s.sty.update.any fun u => u.session == n) = true := by simpa [Option.any_eq_true] using h
  simp only [State.closeSession, if_neg hnot]

theorem closeSession_update_of_same {y : Update} (h : s.sty.update = some y) (hs : y.session = n) :
    (s.closeSession n).sty.update = none := by
  simp [State.closeSession, h, hs, endUpdate_update]

end

/-! ### Vehicle time, heartbeats missed and the logbook's flush (R531, R538, R540) -/

section
variable {s : State}

/-- The Study runs and takes the vehicle time. -/
def gptpRuns (s : State) : Prop := s.sty.up = true ∧ s.flag Reg.styNetGptpEn = true

theorem not_gptpRuns_iff : (!s.sty.up || !s.flag Reg.styNetGptpEn) = true ↔ ¬gptpRuns s := by
  simp [gptpRuns, imp_iff_not_or]

/-- The offset is shown and the messages within 1 µs in a row are counted. -/
def offsetShown (s : State) (o : Int) (good : Nat) : State :=
  let b := s.setReg Reg.stySyncOffsetNs (signedSat 16 o)
  { b with sty := { b.sty with gptpGood := good } }

theorem syncMessage_of_off (h : ¬gptpRuns s) (o : Int) (vt : Nat) : s.syncMessage o vt = s := if_pos (not_gptpRuns_iff.2 h)

theorem syncTimeout_of_off (h : ¬gptpRuns s) : s.syncTimeout = s := if_pos (not_gptpRuns_iff.2 h)

theorem syncTimeout_of_on (h : gptpRuns s) : s.syncTimeout = ({ s with sty := { s.sty with gptpGood := 0 } }).unsynced :=
  if_neg (not_gptpRuns_iff.not.2 (not_not.2 h))

theorem syncMessage_of_on (h : gptpRuns s) (o : Int) (vt : Nat) :
    let good := if -1000 ≤ o ∧ o ≤ 1000 then s.sty.gptpGood + 1 else 0
    let c := offsetShown s o good
    s.syncMessage o vt = if c.tick.vtSync = true then (if o < -2000 ∨ 2000 < o then c.unsynced else c)
      else if 8 ≤ good then c.synced vt else c := by
  have hnear : o.natAbs ≤ 1000 ↔ -1000 ≤ o ∧ o ≤ 1000 := by omega
  have hfar : 2000 < o.natAbs ↔ o < -2000 ∨ 2000 < o := by omega
  simp only [State.syncMessage, not_gptpRuns_iff.not.2 (not_not.2 h), hnear, hfar]
  rfl

/-- Three heartbeat periods have passed without one. -/
def hostSilence (s : State) : Prop :=
  s.sty.up = true ∧ s.reg Reg.styHbPeriodMs ≠ 0 ∧ s.sty.hbLast + 3 * s.reg Reg.styHbPeriodMs * 1000000 ≤ s.now

theorem not_hostSilence_iff :
    (!s.sty.up || s.reg Reg.styHbPeriodMs = 0 || s.now < s.sty.hbLast + ms (3 * s.reg Reg.styHbPeriodMs)) = true ↔
      ¬hostSilence s := by
  rw [Bool.or_eq_true, Bool.or_eq_true, decide_eq_true_eq, decide_eq_true_eq]
  simp [hostSilence, ms, imp_iff_not_or, or_assoc]

theorem hostQuiet_of_heard (h : ¬hostSilence s) : s.hostQuiet = s := if_pos (not_hostSilence_iff.2 h)

theorem hostQuiet_of_silence (h : hostSilence s) : s.hostQuiet =
    ((({ s with sty := { s.sty with hbLast := s.now } }).noteAon fcHostSilent).log 9 0).bump Reg.styHbMissed :=
  if_neg (not_hostSilence_iff.not.2 (not_not.2 h))

/-- The Study flushes the logbook's tail: not while the boot ROM runs alone. -/
def logFlushes (s : State) : Prop :=
  s.sty.up = true ∧ ¬(s.safeFloor = true ∧ s.reg Reg.styModeSfReason = 1) ∧ s.sty.tail ≠ []

theorem not_logFlushes_iff :
    (!s.sty.up || (s.safeFloor && s.reg Reg.styModeSfReason == 1) || s.sty.tail.isEmpty) = true ↔ ¬logFlushes s := by
  rw [logFlushes, not_and_or, not_and_or, not_not, ne_eq, not_not]
  simp [or_assoc]

theorem logFlush_of_idle (h : ¬logFlushes s) : s.logFlush = s := if_pos (not_logFlushes_iff.2 h)

theorem logFlush_of_due (h : logFlushes s) :
    let old := if 490496 < s.flash.log.length + s.sty.tail.length then s.flash.log.drop 1024 else s.flash.log
    s.logFlush = { s with flash := { s.flash with log := old ++ s.sty.tail }, sty := { s.sty with tail := [] } } :=
  if_neg (not_logFlushes_iff.not.2 (not_not.2 h))

end

/-- Settles O58: AUTH and PROVISION_OWNER by case, the Study's times by whether they are due. -/
theorem sessionsAndTimes : Obligations.SessionsAndTimes := by
  refine ⟨fun t src s c m k hwf ht => ?_, fun t src s c m k => ⟨fun hwf ht => ?_, runs_sessionTimeout t s,
    runs_authLockoutEnd t s, ?_⟩, fun t o vt s => ?_⟩
  · have hauth := runs_auth t src s hwf
    exact ⟨fun hb => runs_congr hauth (authMsg_of_body ht hb),
      fun hb hlock => runs_congr hauth (authMsg_of_lockout ht hb hlock),
      fun hb hlock hnone => runs_congr hauth (authMsg_of_unowned ht hb hlock hnone), fun o hb hlock ho =>
        ⟨fun hproof => runs_congr hauth (authMsg_of_unproved ht hb hlock ho hproof),
          fun x hx => runs_congr hauth (authMsg_of_proved ht hb hlock ho hx)⟩⟩
  · have hprov := runs_provisionOwner t src s hwf
    exact ⟨fun hport => runs_congr hprov (provisionMsg_of_port ht hport),
      fun hport hb => runs_congr hprov (provisionMsg_of_body ht hport hb),
      fun hport hb hfull => runs_congr hprov (provisionMsg_of_full ht hport hb hfull),
      fun hport hb hslot => runs_congr hprov (provisionMsg_of_slot ht hport hb hslot)⟩
  · rintro n u rfl
    exact ⟨fun x hx => num_ne_of_mem_closeSession hx, closeSession_update_of_other,
      fun y hy hs => closeSession_update_of_same hy hs⟩
  · have hmsg := runs_gptpSyncMessage t o vt s
    have hout := runs_gptpSyncTimeout t s
    have hsilent := runs_hostSilent t s
    have hflush := runs_logbookFlush t s
    exact ⟨fun hon hsync hfar => runs_congr hmsg ((syncMessage_of_on hon o _).trans ((if_pos hsync).trans (if_pos hfar))),
      fun hon hsync hnear => runs_congr hmsg ((syncMessage_of_on hon o _).trans ((if_pos hsync).trans (if_neg hnear))),
      fun hon hsync hgood => runs_congr hmsg
        ((syncMessage_of_on hon o _).trans ((if_neg (Bool.eq_false_iff.1 hsync)).trans (if_pos hgood))),
      fun hon hsync hgood => runs_congr hmsg
        ((syncMessage_of_on hon o _).trans ((if_neg (Bool.eq_false_iff.1 hsync)).trans (if_neg (Nat.not_le.2 hgood)))),
      fun hon => runs_congr hout (syncTimeout_of_on hon),
      fun hoff => ⟨runs_congr hmsg (syncMessage_of_off hoff o _), runs_congr hout (syncTimeout_of_off hoff)⟩,
      fun hs => runs_congr hsilent (hostQuiet_of_silence hs), fun hs => runs_congr hsilent (hostQuiet_of_heard hs),
      fun hdue => runs_congr hflush (logFlush_of_due hdue), fun hidle => runs_congr hflush (logFlush_of_idle hidle)⟩

end Sys2Proof.Proofs

/-! PROOFS. The tenant switch (17_security.md R550 to R554; 03_front_door.md R106, R107): its phases, what its removal of
power empties, and that the scrub of the window leaves no byte of a marked row. -/

namespace Sys2Proof.Proofs
open Sys2Proof Sys2Proof.Machine Sys2Proof.Laws

/-! ### The phases of a switch (R550 to R552) -/

theorem perform_tenant {s : State} {t : Ticket} {d : Nat} (h : bitsAt d 16 8 = 0x0C) :
    s.perform t d = s.tsrAsked t (bitsAt d 192 16) := by
  simp only [State.perform, dOp, h]

section
variable {s : State} {t : Ticket} {expect : Nat}

theorem tsrAsked_of_wrong_epoch (h : expect ≠ s.epoch) : s.tsrAsked t expect = s.complete t stTsrRefused := if_pos h

theorem tsrAsked_of_exhausted (h : expect = s.epoch) (hlast : s.epoch = 0xFFFF) :
    s.tsrAsked t expect = s.complete t stEpochExhausted := (if_neg (not_not.2 h)).trans (if_pos hlast)

theorem tsrAsked_of_admitted (h : expect = s.epoch) (hlast : s.epoch ≠ 0xFFFF) : s.tsrAsked t expect = s.tsrBegin t :=
  (if_neg (not_not.2 h)).trans (if_neg hlast)

section
variable (hup : s.mainUp = true)
include hup

theorem windowScrub_outside (hnone : s.sec.tsr = none) : s.windowScrub = s.scrubWindow := by
  simp [State.windowScrub, hup, hnone]

variable {j : TsrJob} (hj : s.sec.tsr = some j)
include hj

theorem windowScrub_before_advance (h : j.advanced = false) : s.windowScrub = s := by
  simp [State.windowScrub, hup, hj, h]

theorem windowScrub_after_advance (h : j.advanced = true) :
    s.windowScrub = (s.scrubWindow.setFlag Reg.secStatusMemKeys true).setReg Reg.secStatusTsrPhase 6 := by
  simp [State.windowScrub, hup, hj, h]

omit hup in
theorem tsrEnd_of_unready (h : j.advanced = false ∨ s.fd.scrub ≠ []) : s.tsrEnd = s := by
  simp only [State.tsrEnd, hj]
  exact if_pos (by rcases h with h | h <;> simp [h])

theorem tsrEnd_of_scrubbed (h : j.advanced = true) (hscrub : s.fd.scrub = []) :
    let b := { s with sec := { s.sec with tsr := none }, rg := { s.rg with closed := false } }
    let c := (b.setFlag Reg.secStatusTsrBusy false).setReg Reg.secStatusTsrPhase 0
    let e := (c.setFlag Reg.secStatusTsrByReset false).setFlag Reg.secStatusMemKeys true
    s.tsrEnd = (e.cause 7 15).complete j.ticket stOk (BitVec.ofNat 32 e.epoch) := by
  simp only [State.tsrEnd, hj]
  refine (if_neg (by simp [hup, h, hscrub])).trans ?_
  rfl

end

end

/-! ### Bytes that a filter by keys has dropped -/

theorem tfind_filter_key {α : Type} (m : Tbl α) (p : Nat → Bool) (q : Nat) :
    tfind (m.filter fun e => p e.1) q = if p q then tfind m q else none := by
  induction m with
  | nil => simp [tfind]
  | cons e r ih =>
    obtain ⟨k, v⟩ := e
    by_cases hkq : k = q
    · subst hkq
      cases hp : p k <;> simp_all [tfind]
    · cases hp : p k <;> simp_all [tfind]

theorem tget_filter_dropped {α : Type} (m : Tbl α) {p : Nat → Bool} {q : Nat} (h : p q = false) (d : α) :
    tget (m.filter fun e => p e.1) q d = d := by
  simp [tget, tfind_filter_key, h]

theorem tget_filter_zero {m : Mem} {q : Nat} (h : tget m q 0 = 0) (p : Nat → Bool) :
    tget (m.filter fun e => p e.1) q 0 = 0 := by
  unfold tget at h ⊢
  rw [tfind_filter_key]
  split
  · exact h
  · rfl

theorem tget_tclear_zero {m : Mem} {q : Nat} (h : tget m q 0 = 0) (lo n : Nat) : tget (tclear m lo n) q 0 = 0 :=
  tget_filter_zero h fun k => k < lo || lo + n ≤ k

theorem tget_tclear_inside (m : Mem) {lo n q : Nat} (hlo : lo ≤ q) (hhi : q < lo + n) : tget (tclear m lo n) q 0 = 0 :=
  tget_filter_dropped m (p := fun k => k < lo || lo + n ≤ k) (by simp [hlo, hhi]) 0

/-! ### The scrub of the window (R107) -/

/-- What every update of a run preserves, the run preserves. -/
theorem each_preserves {α : Type} {P : State → Prop} {f : State → α → State} (hP : ∀ u b, P u → P (f u b)) (l : List α)
    {s : State} (hs : P s) : P (s.each l f) := by
  unfold State.each
  induction l generalizing s with
  | nil => exact hs
  | cons b l ih => exact ih (hP s b hs)

/-- A run whose updates preserve `P` leaves it, where the update of some element brings it about. -/
theorem each_reaches {α : Type} {P Q : State → Prop} {f : State → α → State} (hQ : ∀ u b, Q u → Q (f u b))
    (hP : ∀ u b, P u → P (f u b)) {a : α} (ha : ∀ u, Q u → P (f u a)) {l : List α} (hl : a ∈ l) {s : State} (hs : Q s) :
    P (s.each l f) := by
  induction l generalizing s with
  | nil => simp at hl
  | cons b l ih =>
    rcases List.mem_cons.1 hl with rfl | hmem
    · exact each_preserves hP l (ha s hs)
    · exact ih hmem (hQ s b hs)

/-- The rows of an interval that lie in block `b` lose their bytes. -/
def scrubBlock (i : Nat × Nat) (s : State) (b : Nat) : State :=
  let lo := max i.1 (b * 8192)
  let hi := min i.2 ((b + 1) * 8192)
  { s with mem := tclear s.mem (s.rowKey (b / 16) (b % 16) (lo - b * 8192)) ((hi - lo) * 2048) }

/-- The blocks of rows that an interval meets. -/
def scrubBlocks (i : Nat × Nat) : List Nat :=
  (List.range 64).filter fun b => i.1 < (b + 1) * 8192 && b * 8192 < i.2

theorem scrubWindow_eq (s : State) :
    s.scrubWindow =
      (let u := s.each s.fd.scrub fun s i => s.each (scrubBlocks i) (scrubBlock i)
       { u with fd := { u.fd with scrub := [] } }) := rfl

section
variable (s : State) (ch : Fin 4) (bank : Fin 16) (row : Fin 8192)

/-- A marked row lies in the block of its channel and bank. -/
theorem mem_scrubBlocks {i : Nat × Nat} (hlo : i.1 ≤ rowId ch bank row) (hhi : rowId ch bank row < i.2) :
    ch.val * 16 + bank.val ∈ scrubBlocks i := by
  unfold rowId at hlo hhi
  simp only [scrubBlocks, List.mem_filter, List.mem_range, Bool.and_eq_true, decide_eq_true_eq]
  omega

theorem rowKey_eq (c b r : Nat) : s.rowKey c b r = s.rowKey c b 0 + r * 2048 := by
  simp only [State.rowKey, spaceKey]
  ring

theorem tget_scrubBlock {i : Nat × Nat} (hlo : i.1 ≤ rowId ch bank row) (hhi : rowId ch bank row < i.2) {j : Nat}
    (hj : j < 2048) : tget (scrubBlock i s (ch.val * 16 + bank.val)).mem (s.rowKey ch bank row + j) 0 = 0 := by
  unfold rowId at hlo hhi
  have hch : (ch.val * 16 + bank.val) / 16 = ch.val := by omega
  have hbank : (ch.val * 16 + bank.val) % 16 = bank.val := by omega
  have hrow := row.isLt
  unfold scrubBlock
  simp only [hch, hbank]
  rw [rowKey_eq _ _ _ row.val, rowKey_eq _ _ _ (_ - _)]
  generalize s.rowKey ch bank 0 = base
  generalize ch.val * 16 + bank.val = b at hlo hhi
  exact tget_tclear_inside _ (by omega) (by omega)

/-- Rows that the scrub clears read as zeros at their homes. -/
theorem mread_scrubWindow (h : ∃ i ∈ s.fd.scrub, i.1 ≤ rowId ch bank row ∧ rowId ch bank row < i.2) :
    mread s.scrubWindow.mem (s.rowKey ch bank row) 2048 = List.replicate 2048 0 := by
  obtain ⟨i, hi, hlo, hhi⟩ := h
  have hzero (j : Nat) (hj : j < 2048) : tget s.scrubWindow.mem (s.rowKey ch bank row + j) 0 = 0 := by
    have hkey (u : State) (hu : u.fd = s.fd) : u.rowKey ch bank row = s.rowKey ch bank row := by simp only [State.rowKey, hu]
    have hblock (i : Nat × Nat) (u : State) (b : Nat) (hu : tget u.mem (s.rowKey ch bank row + j) 0 = 0) :
        tget (scrubBlock i u b).mem (s.rowKey ch bank row + j) 0 = 0 := tget_tclear_zero hu _ _
    have hhere (u : State) (hu : u.fd = s.fd) :
        tget (scrubBlock i u (ch.val * 16 + bank.val)).mem (s.rowKey ch bank row + j) 0 = 0 :=
      hkey u hu ▸ tget_scrubBlock u ch bank row hlo hhi hj
    rw [scrubWindow_eq]
    exact each_reaches (P := fun u => tget u.mem (s.rowKey ch bank row + j) 0 = 0) (Q := fun u => u.fd = s.fd)
      (f := fun u i => u.each (scrubBlocks i) (scrubBlock i))
      (fun u i hu => (each_keeps State.fd (f := scrubBlock i) (fun _ _ => rfl) u _).trans hu)
      (fun u i hu => each_preserves (f := scrubBlock i) (P := fun u => tget u.mem (s.rowKey ch bank row + j) 0 = 0)
        (hblock i) _ hu)
      (fun u hu => each_reaches (f := scrubBlock i) (P := fun u => tget u.mem (s.rowKey ch bank row + j) 0 = 0)
        (Q := fun u => u.fd = s.fd) (fun _ _ hu => hu) (hblock i) hhere (mem_scrubBlocks ch bank row hlo hhi) hu) hi rfl
  rw [mread_eq_map, List.eq_replicate_iff]
  exact ⟨by simp, fun b hb => by
    obtain ⟨j, hj, rfl⟩ := List.mem_map.1 hb
    exact hzero j (List.mem_range.1 hj)⟩

end

/-! ### The removal of power (R553, R554) -/

section
variable (s : State)

/-- Disabling the Gallery's outputs changes registers and the Gallery only. -/
theorem outsOff_keeps {β : Type} (π : State → β) (hflag : ∀ (s : State) f b, π (s.setFlag f b) = π s)
    (hgal : ∀ (s : State) g, π { s with gal := g } = π s) : π s.outsOff = π s :=
  (hgal _ _).trans (each_keeps π (fun s _ => (hgal _ _).trans (hflag s _ _)) s _)

theorem tsrPowerOff_work : s.tsrPowerOff.wk.tiles = [] ∧ s.tsrPowerOff.wk.emissions = [] ∧ s.tsrPowerOff.wk.batches = [] := by
  have hwk (s : State) : s.outsOff.wk = s.wk := outsOff_keeps s State.wk (fun _ _ _ => rfl) fun _ _ => rfl
  simp only [State.tsrPowerOff, setReg_wk, setFlag_wk, hwk, and_self]

theorem tsrPowerOff_caches : s.tsrPowerOff.xlat.caches = [] ∧ s.tsrPowerOff.pw.cache = [] := by
  have hxlat (s : State) : s.outsOff.xlat = s.xlat := outsOff_keeps s State.xlat (fun _ _ _ => rfl) fun _ _ => rfl
  have hpw (s : State) : s.outsOff.pw = s.pw := outsOff_keeps s State.pw (fun _ _ _ => rfl) fun _ _ => rfl
  simp only [State.tsrPowerOff, setReg_xlat, setFlag_xlat, setReg_pw, setFlag_pw, hxlat, hpw, and_self]

theorem tget_loseSpaces {l : List Nat} {q : Nat} (h : keySpace q ∈ l) : tget (s.loseSpaces l).mem q 0 = 0 := by
  have hne : ¬l.isEmpty = true := by simpa using List.ne_nil_of_mem h
  simp only [State.loseSpaces, if_neg hne]
  exact tget_filter_dropped _ (p := fun k => !l.contains (keySpace k)) (by simp [h]) 0

theorem tget_tsrPowerOff_pantry (tile : Fin 16) {k : Nat} (h : keySpace k = pantrySpace tile) :
    tget s.tsrPowerOff.mem k 0 = 0 := by
  have hmem (s : State) : s.outsOff.mem = s.mem := outsOff_keeps s State.mem (fun _ _ _ => rfl) fun _ _ => rfl
  simp only [State.tsrPowerOff, setReg_mem, setFlag_mem, hmem]
  exact tget_loseSpaces s (List.mem_map.2 ⟨tile, List.mem_range.2 tile.isLt, h.symm⟩)

end

/-- Settles O40: the switch by its phases, the scrub and the removal of power by what they leave. -/
theorem tenantSwitches : Obligations.TenantSwitches := by
  refine ⟨fun t n d s => ⟨fun hserves hop => ?_,
    fun hup hnone => runs_congr (runs_windowScrub t s) (windowScrub_outside hup hnone), fun hup j hj => ?_⟩, fun s ch bank row => ?_⟩
  · have hrun := runs_congr (runs_tenantSwitch t n s) ((admitIf_isOp hserves hop).trans (perform_tenant hop))
    exact ⟨fun hwrong => runs_congr hrun (tsrAsked_of_wrong_epoch hwrong),
      fun hright hlast => runs_congr hrun (tsrAsked_of_exhausted hright hlast),
      fun hright hlast => runs_congr hrun (tsrAsked_of_admitted hright hlast)⟩
  · have hscrub := runs_windowScrub t s
    have hend := runs_tenantSwitchComplete t s
    exact ⟨fun hadv => ⟨runs_congr hscrub (windowScrub_before_advance hup hj hadv),
        runs_congr hend (tsrEnd_of_unready hj (.inl hadv))⟩,
      fun hadv => runs_congr hscrub (windowScrub_after_advance hup hj hadv),
      fun _ hrows => runs_congr hend (tsrEnd_of_unready hj (.inr hrows)),
      fun hadv hclear => runs_congr hend (tsrEnd_of_scrubbed hup hj hadv hclear)⟩
  · obtain ⟨htiles, hemissions, hbatches⟩ := tsrPowerOff_work s
    obtain ⟨hcaches, hlinks⟩ := tsrPowerOff_caches s
    exact ⟨htiles, hemissions, hbatches, hcaches, hlinks, fun tile k => tget_tsrPowerOff_pantry s tile, rfl,
      mread_scrubWindow s ch bank row⟩

end Sys2Proof.Proofs

/-! PROOFS. Party-wall ports (18_party_wall.md R573 to R575, R588; 19_fusebox.md R615, R617): training by what the peer
shows, the width that faulty lanes leave, a lane that fails on a port that is up, and how ports and peers are lost. -/

namespace Sys2Proof.Proofs
open Sys2Proof Sys2Proof.Machine Sys2Proof.Laws

/-! ### The width that faulty lanes leave (R573) -/

section
variable {bad : Nat}

theorem widthOf_none (h : (maskBits 9 bad).length = 0) : widthOf bad = (2, false) := if_pos h

theorem widthOf_one (h : (maskBits 9 bad).length = 1) : widthOf bad = (2, !bad.testBit 8) :=
  (if_neg (by omega)).trans (if_pos h)

theorem widthOf_few (h : 1 < (maskBits 9 bad).length) (h5 : (maskBits 9 bad).length ≤ 5) : widthOf bad = (3, false) :=
  (if_neg (by omega)).trans ((if_neg (by omega)).trans (if_pos h5))

theorem widthOf_many (h : 5 < (maskBits 9 bad).length) : widthOf bad = (4, false) :=
  (if_neg (by omega)).trans ((if_neg (by omega)).trans (if_neg (by omega)))

end

/-! ### Training (R573) -/

section
variable {s : State} {p : Nat} {r : Training}

/-- A port may train: it is enabled, the device is in S0 with FD_READY, and its start is accepted. -/
def mayTrain (s : State) (p : Nat) : Prop :=
  s.linksUp = true ∧ (s.reg Reg.pwCtrlPortEn).testBit p = true ∧ s.pins.fdReady = true ∧ s.pwr.state = .s0 ∧
    s.sec.startOk = true

theorem not_mayTrain_iff :
    (!s.linksUp || !(s.reg Reg.pwCtrlPortEn).testBit p || !s.pins.fdReady || s.pwr.state != .s0 || !s.sec.startOk) = true ↔
      ¬mayTrain s p := by
  simp only [mayTrain, not_and_or, Bool.or_eq_true, Bool.not_eq_true', bne_iff_ne, ne_eq, or_assoc, Bool.not_eq_true]

theorem train_of_barred (h : ¬mayTrain s p) : s.train p r = s := if_pos (not_mayTrain_iff.2 h)

/-- Every lane faulty before or found so now. -/
def faultyLanes (s : State) (p : Nat) (r : Training) : Nat := ((s.pwPort p).bad ||| r.bad).toNat

/-- The lanes that training finds faulty enter the repair ledger. -/
def lanesNoted (s : State) (p : Nat) (r : Training) : State :=
  s.each (maskBits 9 (r.bad &&& ~~~(s.pwPort p).bad).toNat) fun u l => u.linkRepair p l

/-- The port shows its peer's board position. -/
def peerShown (s : State) (p : Nat) (r : Training) : State := (lanesNoted s p r).setReg (Reg.pwPortPeer.ix p) r.pos

/-- The peer's set and check value match. -/
def peerMatches (s : State) (p : Nat) (r : Training) : Prop :=
  r.setId.toNat = (peerShown s p r).reg Reg.pwSetSetId ∧ r.checkOk = true

theorem not_peerMatches_iff :
    (decide (r.setId.toNat ≠ (peerShown s p r).reg Reg.pwSetSetId) || !r.checkOk) = true ↔ ¬peerMatches s p r := by
  simp only [peerMatches, not_and_or, Bool.or_eq_true, decide_eq_true_eq, Bool.not_eq_true', ne_eq, Bool.not_eq_true]

section
variable (h : mayTrain s p)
include h

theorem train_of_too_few_lanes (h4 : (widthOf (faultyLanes s p r)).1 = 4) :
    s.train p r = (peerShown s p r).showPort p 4 (faultyLanes s p r) (widthOf (faultyLanes s p r)).2 :=
  (if_neg (not_mayTrain_iff.not.2 (not_not.2 h))).trans (if_pos h4)

variable (h4 : (widthOf (faultyLanes s p r)).1 ≠ 4)
include h4

theorem train_of_mismatch (hno : ¬peerMatches s p r) :
    s.train p r = ((peerShown s p r).showPort p 5 (faultyLanes s p r) (widthOf (faultyLanes s p r)).2).raise
      (mkReport fcPwSetMismatch 1 p) :=
  (if_neg (not_mayTrain_iff.not.2 (not_not.2 h))).trans ((if_neg h4).trans (if_pos (not_peerMatches_iff.2 hno)))

theorem train_of_match (hok : peerMatches s p r) :
    let w := widthOf (faultyLanes s p r)
    s.train p r = (((peerShown s p r).showPort p w.1 (faultyLanes s p r) w.2).setPwPort p
      { (lanesNoted s p r).pwPort p with peerPc := r.pc }).portBack p r.pos :=
  (if_neg (not_mayTrain_iff.not.2 (not_not.2 h))).trans
    ((if_neg h4).trans (if_neg (not_peerMatches_iff.not.2 (not_not.2 hok))))

end

/-! ### Replays, and ports and peers that are lost (R575, R588) -/

theorem replay_of_up (hlinks : s.linksUp = true) (hup : s.portUp p = true) : s.replay p = s.bump (Reg.pwPortReplays.ix p) :=
  if_pos (by simp [hlinks, hup])

theorem replay_of_down (h : s.linksUp = false ∨ s.portUp p = false) : s.replay p = s :=
  if_neg (by rcases h with h | h <;> simp [h])

theorem losePort_of_down (h : s.portUp p = false) : s.losePort p = s := if_pos (by simp [h])

theorem losePort_of_up (h : s.portUp p = true) :
    let down := s.setReg (Reg.pwPortState.ix p) 4
    let pos := s.reg (Reg.pwPortPeer.ix p)
    s.losePort p = if down.reaches pos = true then down.raise (mkReport fcPwPortDown 1 p 0 true) else down.losePeer pos :=
  if_neg (by simp [h])

/-- A peer is known: it is another device, which a port reaches or a job counts on. -/
def peerKnown (s : State) (pos : Nat) : Prop :=
  s.linksUp = true ∧ pos ≠ s.reg Reg.pwIdPos ∧ (s.reaches pos = true ∨ s.jobsWith pos ≠ [])

theorem peerKnown_iff {pos : Nat} :
    (s.linksUp && pos != s.reg Reg.pwIdPos && (s.reaches pos || !(s.jobsWith pos).isEmpty)) = true ↔ peerKnown s pos := by
  simp [peerKnown, and_assoc]

theorem peerGone_of_known {pos : Nat} (h : peerKnown s pos) : s.peerGone pos = s.losePeer pos := if_pos (peerKnown_iff.2 h)

theorem peerGone_of_unknown {pos : Nat} (h : ¬peerKnown s pos) : s.peerGone pos = s := if_neg (peerKnown_iff.not.2 h)

/-! ### A lane that fails on a port that is up (R574) -/

variable {lane : Nat}

theorem linkRepair_of_full (h : s.flag Reg.fbLedgerFull = true) : s.linkRepair p lane = s := if_pos h

/-- The ledger's other effects are on registers only. -/
theorem ledger_flash (e : Repair) (f : FlashSt → FlashSt) (h : s.flag Reg.fbLedgerFull = false) :
    (s.ledger e f).flash = { f s.flash with ledger := (f s.flash).ledger ++ [e.bits s.tick.number] } := by
  simp only [State.ledger, if_neg (Bool.eq_false_iff.1 h)]
  split <;> split <;> rfl

theorem linkRepair_of_room (h : s.flag Reg.fbLedgerFull = false) :
    let entry : Repair := { kind := 5, place := p, index := lane, source := 5, applied := true }
    (s.linkRepair p lane).flash.ledger = s.flash.ledger ++ [entry.bits s.tick.number] ∧
      ((s.linkRepair p lane).pwPort p).bad = (s.pwPort p).bad ||| 1#9 <<< lane := by
  simp only [State.linkRepair, if_neg (Bool.eq_false_iff.1 h)]
  exact ⟨congrArg FlashSt.ledger (ledger_flash _ id h), congrArg PwPort.bad (tget_tput_same _ _ _ _)⟩

/-- A lane not yet known of a port that is up. -/
def laneNew (s : State) (p lane : Nat) : Prop :=
  s.linksUp = true ∧ s.portUp p = true ∧ (s.reg (Reg.pwPortBadLanes.ix p)).testBit lane = false

theorem not_laneNew_iff :
    (!s.linksUp || !s.portUp p || (s.reg (Reg.pwPortBadLanes.ix p)).testBit lane) = true ↔ ¬laneNew s p lane := by
  simp only [laneNew, not_and_or, Bool.or_eq_true, Bool.not_eq_true', Bool.not_eq_true, Bool.not_eq_false, or_assoc]

theorem linkLane_of_known (h : ¬laneNew s p lane) : s.linkLane p lane = s := if_pos (not_laneNew_iff.2 h)

theorem linkLane_of_new (h : laneNew s p lane) :
    let b := s.linkRepair p lane
    let bad := b.reg (Reg.pwPortBadLanes.ix p) ||| 1 <<< lane
    let w := widthOf bad
    let c := b.showPort p w.1 bad w.2
    let d := if w.2 = true ∧ s.flag (Reg.pwPortSpareUsed.ix p) = false then c.note fcPwLane p else c
    s.linkLane p lane = if w.1 = 4 then (b.setReg (Reg.pwPortBadLanes.ix p) bad).losePort p
      else if w.1 = 3 ∧ s.reg (Reg.pwPortState.ix p) = 2 then d.raise (mkReport fcPwLane 1 p) else d := by
  refine (if_neg (not_laneNew_iff.not.2 (not_not.2 h))).trans ?_
  simp only [Bool.and_eq_true, Bool.not_eq_true', decide_eq_true_eq]

end

/-- Settles O50: training, replays and losses by whether the port may train or is up, a lane by whether it is new. -/
theorem portsTrain : Obligations.PortsTrain := by
  refine ⟨fun t p pos r s => ?_, fun bad => ⟨widthOf_none, widthOf_one, widthOf_few, widthOf_many⟩, fun t p lane s => ?_⟩
  · have htrain := runs_portTraining t p r s
    have hnak := runs_packetNak t p s
    have hdown := runs_portDown t p s
    have hlost := runs_peerLost t pos s
    exact ⟨fun hmay h4 => runs_congr htrain (train_of_too_few_lanes hmay h4),
      fun hmay h4 hok => runs_congr htrain (train_of_match hmay h4 hok),
      fun hmay h4 hno => runs_congr htrain (train_of_mismatch hmay h4 hno),
      fun hbarred => runs_congr htrain (train_of_barred hbarred), fun hlinks hup => runs_congr hnak (replay_of_up hlinks hup),
      fun hoff => runs_congr hnak (replay_of_down hoff), fun hoff => runs_congr hdown (losePort_of_down hoff),
      fun hup hreach => runs_congr hdown ((losePort_of_up hup).trans (if_pos hreach)),
      fun hup hreach => runs_congr hdown ((losePort_of_up hup).trans (if_neg (Bool.eq_false_iff.1 hreach))),
      fun hknown => runs_congr hlost (peerGone_of_known hknown), fun hnot => runs_congr hlost (peerGone_of_unknown hnot)⟩
  · have hlane := runs_linkLaneFault t p lane s
    exact ⟨linkRepair_of_full, linkRepair_of_room,
      fun hnew h4 => runs_congr hlane ((linkLane_of_new hnew).trans (if_pos h4)),
      fun hnew h4 => runs_congr hlane ((linkLane_of_new hnew).trans (if_neg h4)),
      fun hknown => runs_congr hlane (linkLane_of_known hknown)⟩

end Sys2Proof.Proofs

/-! PROOFS. Packets of the party-wall links (17_security.md R548; 18_party_wall.md R576 to R582, R587): how a packet is checked,
said once for every kind; what a request meets at its page; JOB_OPEN, its timeout, and the wait after three redirects. -/

namespace Sys2Proof.Proofs
open Sys2Proof Sys2Proof.Machine Sys2Proof.Laws

/-! ### What a packet of a job's kinds comes to (R548, R579) -/

section
variable {s : State} {port j type : Nat} {p : Packet} {tagOk : Bool} {f : State → Nat → State}

theorem typed_of_other {g : State → State} (h : p.type ≠ type) : s.typed p type g = s := if_neg h

theorem typed_of_same {g : State → State} (h : p.type = type) : s.typed p type g = g s := if_pos h

theorem onPkt_of_off (h : ¬(s.linksUp = true ∧ s.portUp port = true)) : s.onPkt port p tagOk f = s := by
  have hguard : (!s.linksUp || !s.portUp port) = true := by simpa [imp_iff_not_or] using h
  simp only [State.onPkt, State.admitPkt, if_pos hguard]

section
variable (h : s.linksUp = true ∧ s.portUp port = true)
include h

theorem onPkt_of_no_job (hnone : s.jobNamed p = none) : s.onPkt port p tagOk f = s.retire port := by
  obtain ⟨hlinks, hup⟩ := h
  simp [State.onPkt, State.admitPkt, hlinks, hup, hnone]

variable (hj : s.jobNamed p = some j)
include hj

theorem onPkt_of_stranger (hnone : (s.pwJob j).peers.find? (fun q => q.pos == p.src) = none) :
    s.onPkt port p tagOk f = s.retire port := by
  obtain ⟨hlinks, hup⟩ := h
  simp [State.onPkt, State.admitPkt, hlinks, hup, hj, hnone]

variable {q : Peer} (hq : (s.pwJob j).peers.find? (fun q => q.pos == p.src) = some q)
include hq

theorem onPkt_of_old_epoch (hke : q.ke ≠ p.ke) : s.onPkt port p tagOk f = s.retire port := by
  obtain ⟨hlinks, hup⟩ := h
  simp [State.onPkt, State.admitPkt, hlinks, hup, hj, hq, hke]

variable (hke : q.ke = p.ke)
include hke

theorem onPkt_of_wrong_tag (htag : tagOk = false) :
    s.onPkt port p tagOk f = (s.bump Reg.pwErrTagFail).raise (mkReport fcPwAuth 1 port) := by
  obtain ⟨hlinks, hup⟩ := h
  simp [State.onPkt, State.admitPkt, hlinks, hup, hj, hq, hke, htag, State.tagFails]

variable (htag : tagOk = true)
include htag

theorem onPkt_of_old_seq (hseq : seqOld q.recv p.seq = true) : s.onPkt port p tagOk f = s.bump Reg.pwErrSeqDrop := by
  obtain ⟨hlinks, hup⟩ := h
  simp [State.onPkt, State.admitPkt, hlinks, hup, hj, hq, hke, htag, hseq]

theorem onPkt_of_taken (hseq : seqOld q.recv p.seq = false) :
    s.onPkt port p tagOk f = f (s.setPwJob j { s.pwJob j with peers := (s.pwJob j).peers.map fun r =>
      if r.pos = p.src then { r with recv := seqKeep r.recv p.seq } else r }) j := by
  obtain ⟨hlinks, hup⟩ := h
  simp [State.onPkt, State.admitPkt, hlinks, hup, hj, hq, hke, htag, hseq]

end

/-- A command that runs a packet of a type passes every packet of that type through the same checks. -/
theorem runs_packet_checks {i : Instr} {u : State}
    (hrun : i.wellFormed = true → Runs i u (s.typed p type fun s => s.onPkt port p tagOk f)) (hwf : i.wellFormed = true) :
    let on := s.linksUp = true ∧ s.portUp port = true
    (p.type ≠ type → Runs i u s) ∧
    (p.type = type →
      (¬on → Runs i u s) ∧
      (on → s.jobNamed p = none → Runs i u (s.retire port)) ∧
      (on → ∀ j, s.jobNamed p = some j → (s.pwJob j).peers.find? (fun q => q.pos == p.src) = none →
        Runs i u (s.retire port)) ∧
      (on → ∀ j q, s.jobNamed p = some j → (s.pwJob j).peers.find? (fun q => q.pos == p.src) = some q →
        let taken := s.setPwJob j { s.pwJob j with peers := (s.pwJob j).peers.map fun r =>
          if r.pos = p.src then { r with recv := seqKeep r.recv p.seq } else r }
        (q.ke ≠ p.ke → Runs i u (s.retire port)) ∧
        (q.ke = p.ke → tagOk = false → Runs i u ((s.bump Reg.pwErrTagFail).raise (mkReport fcPwAuth 1 port))) ∧
        (q.ke = p.ke → tagOk = true → seqOld q.recv p.seq = true → Runs i u (s.bump Reg.pwErrSeqDrop)) ∧
        (q.ke = p.ke → tagOk = true → seqOld q.recv p.seq = false → Runs i u (f taken j)))) := by
  refine ⟨fun hother => runs_congr (hrun hwf) (typed_of_other hother), fun hsame => ?_⟩
  have hpkt := runs_congr (hrun hwf) (typed_of_same hsame)
  exact ⟨fun hoff => runs_congr hpkt (onPkt_of_off hoff), fun hon hnone => runs_congr hpkt (onPkt_of_no_job hon hnone),
    fun hon j hj hnone => runs_congr hpkt (onPkt_of_stranger hon hj hnone),
    fun hon j q hj hq => ⟨fun hke => runs_congr hpkt (onPkt_of_old_epoch hon hj hq hke),
      fun hke htag => runs_congr hpkt (onPkt_of_wrong_tag hon hj hq hke htag),
      fun hke htag hseq => runs_congr hpkt (onPkt_of_old_seq hon hj hq hke htag hseq),
      fun hke htag hseq => runs_congr hpkt (onPkt_of_taken hon hj hq hke htag hseq)⟩⟩

/-! ### Requests at their page (R581, R582, R587) -/

variable {write : Bool} {home frame : Nat}

theorem serve_of_remote {pos : Nat} (h : s.pageView p.page.toNat = .remote pos) :
    s.serve j p write = s.answer j p 9 0 [] pos := by
  simp only [State.serve, h]

theorem serve_of_unhomed (h : s.pageView p.page.toNat = .unhomed) :
    s.serve j p write = s.answer j p (if write then 5 else 3) stNoHome [] := by
  simp only [State.serve, h]

theorem serve_of_failed (h : s.pageView p.page.toNat = .failed) :
    s.serve j p write = s.answer j p (if write then 5 else 3) stUncorrectable [] := by
  simp only [State.serve, h]

theorem serve_of_held (h : s.pageView p.page.toNat = .held) :
    s.serve j p write = s.holdReq { p with type := if write then 4 else 2 } := by
  simp only [State.serve, h]

theorem serve_read_of_scrub (h : s.pageView p.page.toNat = .scrub home frame) :
    s.serve j p false = s.answer j p 3 stOk (List.replicate (64 * p.len) 0) := by
  simp only [State.serve, h, Bool.false_eq_true, if_false]

section
variable (h : s.pageView p.page.toNat = .resident home frame)
include h

theorem serve_write_of_resident :
    s.serve j p true = (s.mediaPut home (frame * 65536 + 64 * p.unit.toNat) p.payload).answer j p 5 stOk [] := by
  simp only [State.serve, h, if_true]

theorem serve_read_of_good (hgood : s.badIn home (frame * 65536 + 64 * p.unit.toNat) (64 * p.len) = []) :
    s.serve j p false =
      s.answer j p 3 stOk (mread s.mem (spaceKey home (frame * 65536 + 64 * p.unit.toNat)) (64 * p.len)) := by
  simp only [State.serve, h, hgood, Bool.false_eq_true, if_false, List.isEmpty_nil, if_true]

theorem serve_read_of_bad (hbad : s.badIn home (frame * 65536 + 64 * p.unit.toNat) (64 * p.len) ≠ []) :
    s.serve j p false = (s.reportBad home (s.badIn home (frame * 65536 + 64 * p.unit.toNat) (64 * p.len))).answer j p 3
      stUncorrectable [] := by
  simp only [State.serve, h, List.isEmpty_eq_false_iff.2 hbad, Bool.false_eq_true, if_false]

end

/-! ### Jobs that open, and requests that wait (R576, R577, R582) -/

variable {members : BitVec 4} {base : BitVec 22} {pages : BitVec 23}

/-- The job of a number that is not closed here. -/
def jobHere (s : State) (p : Packet) : Option Nat :=
  firstSat 16 fun j => s.jobState j != 0 && s.reg (Reg.pwJob0J.ix j) == p.job.toNat

theorem jobOpenArrives_of_off (h : s.linksUp = false ∨ s.portUp port = false) :
    s.jobOpenArrives port p tagOk members base pages = s := if_pos (by rcases h with h | h <;> simp [h])

section
variable (hlinks : s.linksUp = true) (hup : s.portUp port = true)
include hlinks hup

theorem jobOpenArrives_of_wrong_tag (htag : tagOk = false) : s.jobOpenArrives port p tagOk members base pages =
    (s.bump Reg.pwErrTagFail).raise (mkReport fcPwAuth 1 port) := by
  simp [State.jobOpenArrives, hlinks, hup, htag, State.tagFails]

variable (htag : tagOk = true)
include htag

theorem jobOpenArrives_of_here {k : Nat} (hk : jobHere s p = some k) : s.jobOpenArrives port p tagOk members base pages =
    if s.jobState k = 1 then s.openPeer k p members.toNat base.toNat pages.toNat else s.bump Reg.pwErrSeqDrop := by
  unfold jobHere at hk
  simp [State.jobOpenArrives, hlinks, hup, htag, hk]

theorem jobOpenArrives_of_none (hk : jobHere s p = none) : s.jobOpenArrives port p tagOk members base pages =
    if p.job ∈ s.pw.used then s.retire port
    else { s with pw := { s.pw with early := s.pw.early ++ [(p, members, base, pages)] } } := by
  unfold jobHere at hk
  simp [State.jobOpenArrives, hlinks, hup, htag, hk]

end

theorem openLate_of_due (hopening : s.jobState j = 1) (hdue : (s.pwJob j).openAt + 10000000 ≤ s.now) :
    s.openLate j = (s.setReg (Reg.pwJob0State.ix j) 3).note fcPwConfig j := if_pos (by simp [hopening, ms, hdue])

theorem openLate_of_early (h : s.jobState j ≠ 1 ∨ s.now < (s.pwJob j).openAt + 10000000) : s.openLate j = s :=
  by
  refine if_neg ?_
  rw [Bool.and_eq_true, decide_eq_true_eq, decide_eq_true_eq, ms]
  omega

variable {tag : BitVec 16}

theorem backoffOver_of_none (h : s.pw.reqs.find? (fun q => q.rtag == tag && q.waiting) = none) : s.backoffOver tag = s := by
  simp only [State.backoffOver, h]

theorem backoffOver_of_some {q : RemoteReq} (h : s.pw.reqs.find? (fun q => q.rtag == tag && q.waiting) = some q) :
    s.backoffOver tag =
      (s.mapReq tag fun q => { q with redirects := 0, waiting := false }).resend { q with redirects := 0 } := by
  simp only [State.backoffOver, h]

end

/-- Settles O51: the kinds of packets by what all of them are checked for, requests by how their page stands, JOB_OPEN by
whether the job is here. -/
theorem packetsServed : Obligations.PacketsServed := by
  refine ⟨fun t port p tagOk s => ?_, fun s j p write => ?_, fun t port p tagOk members base pages j tag s => ?_⟩
  · have hReadReq := runs_packet_checks (runs_readReq t port p tagOk s)
    have hReadRsp := runs_packet_checks (runs_readRsp t port p tagOk s)
    have hWriteReq := runs_packet_checks (runs_writeReq t port p tagOk s)
    have hWriteAck := runs_packet_checks (runs_writeAck t port p tagOk s)
    have hMoveData := runs_packet_checks (runs_moveData t port p tagOk s)
    have hMoveCommit := runs_packet_checks (runs_moveCommit t port p tagOk s)
    have hMoveDone := runs_packet_checks (runs_moveDone t port p tagOk s)
    have hRedirect := runs_packet_checks (runs_redirect t port p tagOk s)
    have hJobClose := runs_packet_checks (runs_jobClose t port p tagOk s)
    exact ⟨hReadReq, hReadRsp, hWriteReq, hWriteAck, hMoveData, hMoveCommit, hMoveDone, hRedirect, hJobClose⟩
  · exact ⟨fun pos => serve_of_remote, serve_of_unhomed, serve_of_failed, serve_of_held, fun h f => serve_read_of_scrub,
      fun h f hview => ⟨serve_write_of_resident hview, serve_read_of_good hview, serve_read_of_bad hview⟩⟩
  · have hrun := runs_jobOpen t port p tagOk members base pages s
    have hlate := runs_jobOpenTimeout t j s
    have hback := runs_redirectBackoff t tag s
    refine ⟨fun hwf htype hlinks hup => ?_, fun hwf hoff => ?_,
      fun hopening hdue => runs_congr hlate (openLate_of_due hopening hdue),
      fun hearly => runs_congr hlate (openLate_of_early hearly), fun hnone => runs_congr hback (backoffOver_of_none hnone),
      fun q hq => runs_congr hback (backoffOver_of_some hq)⟩
    · have hopen := runs_congr (hrun hwf) (typed_of_same htype)
      exact ⟨fun htag => runs_congr hopen (jobOpenArrives_of_wrong_tag hlinks hup htag),
        fun htag k hk hst => runs_congr hopen ((jobOpenArrives_of_here hlinks hup htag hk).trans (if_pos hst)),
        fun htag k hk hst => runs_congr hopen ((jobOpenArrives_of_here hlinks hup htag hk).trans (if_neg hst)),
        fun htag hk hused => runs_congr hopen ((jobOpenArrives_of_none hlinks hup htag hk).trans (if_pos hused)),
        fun htag hk hnew => runs_congr hopen ((jobOpenArrives_of_none hlinks hup htag hk).trans (if_neg hnew))⟩
    · by_cases htype : p.type = 1
      · exact runs_congr (hrun hwf) ((typed_of_same htype).trans
          (jobOpenArrives_of_off (hoff.resolve_left (not_not.2 htype))))
      · exact runs_congr (hrun hwf) (typed_of_other htype)

end Sys2Proof.Proofs

/-! PROOFS. The Fusebox's classifier, and reports and conditions that reach it (19_fusebox.md R593 to R595, R602; 14_power.md
R452): each case of the classifier once, then what a report and the end of a condition set off. -/

namespace Sys2Proof.Proofs
open Sys2Proof Sys2Proof.Machine Sys2Proof.Laws

section
variable {s : State} {r : Report}

/-! ### The classifier (R593, R595) -/

/-- The level at which the classifier takes a report, with the mark that an escalated note leaves on the tick. -/
def escalated (s : State) (r : Report) : State :=
  { s with tick := { s.tick with l2 := s.tick.l2 || decide (r.level.val = 0 ∧ 1 ≤ escalate s.fb.recs r) } }

theorem markL2_of_escalation (s : State) (r : Report) :
    s.markL2 (r.level.val = 0 && 1 ≤ escalate s.fb.recs r) = escalated s r := by
  rw [State.markL2, escalated, Bool.decide_and]

theorem classify_of_same {i : Nat} {x : FaultRec} (h : sameFault s.fb.recs r = some (i, x)) :
    s.classify r = s.setRec i { x with count := satInc x.count, last := s.tick.number } := by
  simp only [State.classify, h]

section
variable (hnew : sameFault s.fb.recs r = none)
include hnew

theorem classify_of_merge {i : Nat} {x : FaultRec}
    (h : mergeSlot s.fb.recs r.cls.toNat (escalate s.fb.recs r) = some (i, x)) :
    s.classify r = (escalated s r).setRec i
      { x with count := satInc x.count, last := s.tick.number, unit := r.unit, detail := r.detail, active := r.persistent,
               escalated := x.escalated || decide (r.level.val < escalate s.fb.recs r) } := by
  have hmark : (escalated s r).fb = s.fb := rfl
  simp only [State.classify, hnew, markL2_of_escalation, hmark, h]
  rfl

variable (hunmerged : mergeSlot s.fb.recs r.cls.toNat (escalate s.fb.recs r) = none)
include hunmerged

theorem classify_of_unmerged : s.classify r = (escalated s r).takeSlot r (escalate s.fb.recs r) := by
  have hmark : (escalated s r).fb = s.fb := rfl
  simp only [State.classify, hnew, markL2_of_escalation, hmark, hunmerged]

/-- A record is created: its number in the order of creation is used. -/
def nextBorn (s : State) : State := { s with fb := { s.fb with nextBorn := s.fb.nextBorn + 1 } }

theorem classify_of_free {i : Nat} (h : freeSlot s.fb.recs = some i) :
    let fresh := freshRec r (escalate s.fb.recs r) s.tick.number s.fb.nextBorn
    s.classify r = ((nextBorn (escalated s r)).setRec i fresh).recordMade fresh := by
  have hmark : (escalated s r).fb = s.fb := rfl
  rw [classify_of_unmerged hnew hunmerged]
  simp only [State.takeSlot, hmark, h]
  rfl

theorem classify_of_full (h : freeSlot s.fb.recs = none) {o : FaultRec} (ho : tfind s.fb.recs 63 = some o) :
    s.classify r = ((nextBorn (escalated s r)).bump Reg.fbStatusLost).setRec 63
      { o with count := satInc o.count, last := s.tick.number } := by
  have hmark : (escalated s r).fb = s.fb := rfl
  rw [classify_of_unmerged hnew hunmerged]
  simp only [State.takeSlot, hmark, h, bump_fb, ho]
  rfl

end

theorem freeSlot_is_free {recs : Tbl FaultRec} {i : Nat} (h : freeSlot recs = some i) : i < 63 ∧ tfind recs i = none := by
  unfold freeSlot firstSat at h
  have hsome := List.find?_some h
  exact ⟨List.mem_range.1 (List.mem_of_find?_eq_some h), Option.isNone_iff_eq_none.1 hsome⟩

/-! ### FAULT_REPORT (R593, R602) -/

/-- The Fusebox takes a report: the companion die is powered, and the main die for the report of one of its blocks. -/
def reportTaken (s : State) (r : Report) : Prop :=
  s.pwr.aonGood = true ∧ (s.pwr.mainGood = true ∨ aonClass r.cls = true ∨ r ∈ s.fb.direct)

theorem not_reportTaken_iff :
    (!s.pwr.aonGood || (!s.pwr.mainGood && !aonClass r.cls && !s.fb.direct.contains r)) = true ↔ ¬reportTaken s r := by
  simp [reportTaken, imp_iff_not_or, not_or, and_assoc]

/-- The report has left the queue where it waited; one that waited in none is raised now. -/
def reportOut (s : State) (r : Report) : State :=
  if r ∈ s.fb.direct then { s with fb := { s.fb with direct := takeReport s.fb.direct r } }
  else if r ∈ s.fb.collector then { s with fb := { s.fb with collector := takeReport s.fb.collector r } }
  else { s with tick := { s.tick with l2 := s.tick.l2 || decide (1 ≤ r.level.val) } }

/-- The records at L4. -/
def stopRecords (s : State) : Nat := (s.fb.recs.filter fun e => e.2.level == 3).length

theorem report_of_untaken (h : ¬reportTaken s r) : s.report r = s := if_pos (not_reportTaken_iff.2 h)

theorem report_of_taken (h : reportTaken s r) :
    s.report r = if stopRecords (reportOut s r) < stopRecords ((reportOut s r).classify r)
      then ((reportOut s r).classify r).stopNow else (reportOut s r).classify r := by
  refine (if_neg (not_reportTaken_iff.not.2 (not_not.2 h))).trans ?_
  simp only [List.contains_eq_mem, decide_eq_true_eq]
  rfl

/-! ### FAULT_CONDITION_END (R594; 14_power.md R452) -/

variable {cls : Byte} {unit : BitVec 16} {detail : BitVec 64}

/-- The records of a fault become inactive. -/
def conditionOver (s : State) (cls : Byte) (unit : BitVec 16) (detail : BitVec 64) : State :=
  { s with fb := { s.fb with recs := s.fb.recs.map fun e =>
    if e.2.cls == cls.toNat && (e.2.unit == unit && e.2.detail == detail) then (e.1, { e.2 with active := false }) else e } }

theorem conditionEnds_of_other (h : cls ≠ fcSupplyWarn) :
    s.conditionEnds cls unit detail = conditionOver s cls unit detail := if_neg h

theorem conditionEnds_of_supply (h : cls = fcSupplyWarn) :
    s.conditionEnds cls unit detail = (conditionOver s cls unit detail).railReturned unit.toNat := if_pos h

/-- A rail that returns is the last of those that were low, and the supply cap is set. -/
def lastRail (s : State) (rail : Nat) : Prop :=
  rail ∈ s.pwr.supplyBad ∧ s.pwr.supplyBad.filter (· != rail) = [] ∧ s.reg Reg.pwrCapsSupply = 3

/-- A rail is no longer low. -/
def railBack (s : State) (rail : Nat) : State :=
  { s with pwr := { s.pwr with supplyBad := s.pwr.supplyBad.filter (· != rail) } }

theorem lastRail_iff {rail : Nat} :
    (s.pwr.supplyBad.contains rail && (railBack s rail).pwr.supplyBad.isEmpty &&
      (railBack s rail).reg Reg.pwrCapsSupply == 3) = true ↔ lastRail s rail := by
  have hreg : (railBack s rail).reg Reg.pwrCapsSupply = s.reg Reg.pwrCapsSupply := rfl
  rw [hreg]
  simp only [railBack, lastRail, Bool.and_eq_true, List.contains_eq_mem, decide_eq_true_eq, List.isEmpty_iff,
    beq_iff_eq, and_assoc]

theorem railReturned_of_last {rail : Nat} (h : lastRail s rail) :
    s.railReturned rail = (railBack s rail).setRise .supply (some (s.now + 1000000)) := if_pos (lastRail_iff.2 h)

theorem railReturned_of_other {rail : Nat} (h : ¬lastRail s rail) : s.railReturned rail = railBack s rail :=
  if_neg (lastRail_iff.not.2 h)

end

/-- Settles O52: a report by whether the Fusebox takes it, the classifier by its cases, a condition's end by its class. -/
theorem faultsClassified : Obligations.FaultsClassified := by
  refine ⟨fun t r cls unit detail s => ?_, fun s r => ?_⟩
  · have hreport := runs_faultReport t r s
    have hend := runs_faultConditionEnd t cls unit detail s
    exact ⟨fun hnot => runs_congr hreport (report_of_untaken hnot),
      fun htaken hstop => runs_congr hreport ((report_of_taken htaken).trans (if_pos hstop)),
      fun htaken hsame => runs_congr hreport ((report_of_taken htaken).trans (if_neg (Nat.not_lt.2 hsame))),
      fun hother => runs_congr hend (conditionEnds_of_other hother),
      fun hsupply hlast => runs_congr hend ((conditionEnds_of_supply hsupply).trans (railReturned_of_last hlast)),
      fun hsupply hmore => runs_congr hend ((conditionEnds_of_supply hsupply).trans (railReturned_of_other hmore))⟩
  · exact ⟨fun i x => classify_of_same, fun hnew i x => classify_of_merge hnew,
      fun hnew hunmerged i hi => ⟨(freeSlot_is_free hi).1, (freeSlot_is_free hi).2, classify_of_free hnew hunmerged hi⟩,
      fun hnew hunmerged hfull o ho => classify_of_full hnew hunmerged hfull ho⟩

end Sys2Proof.Proofs

/-! PROOFS. The layouts of a fault record and of a repair-ledger entry, the rotating test's verdict and bond lanes that fail in
service (19_fusebox.md R592, R606 to R609, R612 to R616). -/

namespace Sys2Proof.Proofs
open Sys2Proof Sys2Proof.Machine Sys2Proof.Laws

/-! ### A record slot (R592) -/

/-- Each field stands above the bits of those before it and below the next one's place. -/
theorem faultRec_fields (r : FaultRec) :
    let x := r.bits
    bitsAt x 0 8 = r.cls % 256 ∧ bitsAt x 8 2 = r.level % 4 ∧ bitsAt x 10 1 = b2n r.acked ∧ bitsAt x 11 1 = b2n r.active ∧
    bitsAt x 12 1 = b2n r.escalated ∧ bitsAt x 13 3 = 0 ∧ bitsAt x 16 16 = r.unit.toNat ∧ bitsAt x 32 32 = r.count.toNat ∧
    bitsAt x 64 64 = r.first.toNat ∧ bitsAt x 128 64 = r.last.toNat ∧ bitsAt x 192 64 = r.detail.toNat := by
  have h8 : r.cls % 256 < 2 ^ 8 := Nat.mod_lt _ (by decide)
  have hlevel : r.level % 4 < 2 ^ 2 := Nat.mod_lt _ (by decide)
  have h10 := add_shiftLeft_lt (n := 10) h8 hlevel rfl
  have h11 := add_shiftLeft_lt (n := 11) h10 (b2n_lt r.acked) rfl
  have h12 := add_shiftLeft_lt (n := 12) h11 (b2n_lt r.active) rfl
  have h13 := add_shiftLeft_lt (n := 13) h12 (b2n_lt r.escalated) rfl
  have h16 := h13.trans (show 2 ^ 13 < 2 ^ 16 by decide)
  have h32 := add_shiftLeft_lt (n := 32) h16 r.unit.isLt rfl
  have h64 := add_shiftLeft_lt (n := 64) h32 r.count.isLt rfl
  have h128 := add_shiftLeft_lt (n := 128) h64 r.first.isLt rfl
  have h192 := add_shiftLeft_lt (n := 192) h128 r.last.isLt rfl
  unfold FaultRec.bits
  simp (disch := omega) only [bitsAt_add_shiftLeft_of_le]
  exact ⟨bitsAt_of_lt h8, bitsAt_add_shiftLeft_top h8 hlevel, bitsAt_add_shiftLeft_top h10 (b2n_lt r.acked),
    bitsAt_add_shiftLeft_top h11 (b2n_lt r.active), bitsAt_add_shiftLeft_top h12 (b2n_lt r.escalated), bitsAt_of_lt_lo h13 3,
    bitsAt_add_shiftLeft_top h16 r.unit.isLt, bitsAt_add_shiftLeft_top h32 r.count.isLt,
    bitsAt_add_shiftLeft_top h64 r.first.isLt, bitsAt_add_shiftLeft_top h128 r.last.isLt,
    bitsAt_add_shiftLeft_top h192 r.detail.isLt⟩

/-! ### A repair-ledger entry and its check (R615, R616) -/

theorem ofBytes_lt (l : List Byte) : ofBytes l < 256 ^ l.length := by
  induction l with
  | nil => simp [ofBytes]
  | cons b r ih =>
    have hb : b.toNat < 256 := b.isLt
    rw [ofBytes, List.length_cons, Nat.pow_succ]
    omega

theorem shake256_length_le (bs : List Byte) {n : Nat} (h : n ≤ 136) : (shake256 bs n).length ≤ n := by
  have hrate : n ≤ shakeRate := h
  simp only [shake256, sponge, squeeze, if_pos hrate]
  exact List.length_take_le _ _

/-- The check of the lower 96 bits fits its place. -/
theorem check_lt (x : Nat) : ofBytes (shake256 (toBytes 12 x) 4) < 2 ^ 32 :=
  (ofBytes_lt _).trans_le (Nat.pow_le_pow_right (by decide) (shake256_length_le _ (by decide)))

/-- The bytes of a number are those of its lower bits. -/
theorem toBytes_mod (n x : Nat) : toBytes n (x % 256 ^ n) = toBytes n x := by
  induction n generalizing x with
  | zero => rfl
  | succ n ih =>
    have hhead : BitVec.ofNat 8 (x % (256 * 256 ^ n)) = BitVec.ofNat 8 x := by
      apply BitVec.eq_of_toNat_eq
      simp only [BitVec.toNat_ofNat]
      exact Nat.mod_mul_right_mod x 256 (256 ^ n)
    rw [Nat.pow_succ', toBytes, toBytes, hhead, Nat.mod_mul_right_div_self, ih]

theorem withCheck_toNat (x : Nat) : (withCheck x).toNat = x % 2 ^ 96 + ofBytes (shake256 (toBytes 12 x) 4) <<< 96 := by
  have h : x % 2 ^ 96 < 2 ^ 96 := Nat.mod_lt _ (by decide)
  rw [withCheck, BitVec.toNat_ofNat, Nat.mod_eq_of_lt (add_shiftLeft_lt h (check_lt x) rfl)]

theorem bitsAt_withCheck (x : Nat) {lo w : Nat} (h : lo + w ≤ 96) : bitsAt (withCheck x).toNat lo w = bitsAt x lo w := by
  rw [withCheck_toNat, bitsAt_add_shiftLeft_of_le _ _ h, bitsAt_mod_two_pow _ h]

/-- CHECK is the check of the entry's own lower 96 bits. -/
theorem withCheck_check (x : Nat) :
    bitsAt (withCheck x).toNat 96 32 = ofBytes (shake256 (toBytes 12 (withCheck x).toNat) 4) := by
  have hlow : (withCheck x).toNat % 256 ^ 12 = x % 256 ^ 12 := by
    have hpow : (256 : Nat) ^ 12 = 2 ^ 96 := by decide
    have hbits := bitsAt_withCheck x (lo := 0) (w := 96) (by decide)
    simpa [hpow, bitsAt] using hbits
  rw [← toBytes_mod 12 (withCheck x).toNat, hlow, toBytes_mod, withCheck_toNat]
  exact bitsAt_add_shiftLeft_top (Nat.mod_lt _ (by decide)) (check_lt x)

theorem repair_fields (r : Repair) (tick : BitVec 64) (hkind : r.kind < 16) (hplace : r.place < 32) (hbay : r.bay < 4)
    (hindex : r.index < 8192) (hsource : r.source < 8) :
    let x := (r.bits tick).toNat
    bitsAt x 0 4 = r.kind ∧ bitsAt x 4 5 = r.place ∧ bitsAt x 9 2 = r.bay ∧ bitsAt x 11 13 = r.index ∧
    bitsAt x 24 3 = r.source ∧ bitsAt x 27 1 = b2n r.applied ∧ bitsAt x 28 4 = 0 ∧ bitsAt x 32 64 = tick.toNat ∧
    bitsAt x 96 32 = ofBytes (shake256 (toBytes 12 x) 4) := by
  have h4 : r.kind < 2 ^ 4 := hkind
  have h9 := add_shiftLeft_lt (n := 9) (w := 5) h4 hplace rfl
  have h11 := add_shiftLeft_lt (n := 11) (w := 2) h9 hbay rfl
  have h24 := add_shiftLeft_lt (n := 24) (w := 13) h11 hindex rfl
  have h27 := add_shiftLeft_lt (n := 27) (w := 3) h24 hsource rfl
  have h28 := add_shiftLeft_lt (n := 28) h27 (b2n_lt r.applied) rfl
  have h32 := h28.trans (show 2 ^ 28 < 2 ^ 32 by decide)
  refine ⟨?_, ?_, ?_, ?_, ?_, ?_, ?_, ?_, withCheck_check _⟩ <;> unfold Repair.bits <;>
    simp (disch := omega) only [bitsAt_withCheck, bitsAt_add_shiftLeft_of_le]
  · exact bitsAt_of_lt h4
  · exact bitsAt_add_shiftLeft_top h4 hplace
  · exact bitsAt_add_shiftLeft_top h9 hbay
  · exact bitsAt_add_shiftLeft_top h11 hindex
  · exact bitsAt_add_shiftLeft_top h24 hsource
  · exact bitsAt_add_shiftLeft_top h27 (b2n_lt r.applied)
  · exact bitsAt_of_lt_lo h28 4
  · exact bitsAt_add_shiftLeft_top h32 tick.isLt

theorem ledgerApplied_of_applying {e : BitVec 128} (h : bitsAt e.toNat 0 4 ≤ 3) :
    let x := e.toNat
    let y := (ledgerApplied e).toNat
    bitsAt y 27 1 = 1 ∧ bitsAt y 0 27 = bitsAt x 0 27 ∧ bitsAt y 28 68 = bitsAt x 28 68 ∧
      bitsAt y 96 32 = ofBytes (shake256 (toBytes 12 y) 4) := by
  simp only [ledgerApplied, if_pos h]
  refine ⟨?_, ?_, ?_, withCheck_check _⟩
  · rw [bitsAt_withCheck _ (by decide), bitsAt_putBits_same, Nat.mod_eq_of_lt (by decide)]
  · rw [bitsAt_withCheck _ (by decide), bitsAt_putBits_other _ _ _ _ _ _ (by decide)]
  · rw [bitsAt_withCheck _ (by decide), bitsAt_putBits_other _ _ _ _ _ _ (by decide)]

/-! ### The rotating test's verdict (R606 to R609) -/

section
variable {s : State}

theorem testEnd_of_none (h : s.fb.test = none) (v : Verdict) : s.testEnd v = s := by
  simp only [State.testEnd, h]

theorem testEnd_of_some {x : RotTest} (h : s.fb.test = some x) (v : Verdict) :
    let b := { s with fb := { s.fb with test := none, bank := (s.fb.bank + 1) % 48 } }
    let c := (b.bump Reg.fbTestDone).setReg Reg.fbTestSince 0
    let d := match v with
      | .pass => c
      | .laneRow bay r => c.laneRowFailed x.ptile bay r 2
      | .tile => c.tileFailed x.ptile 0 2
    s.testEnd v = d.setReg Reg.fbTestNext ((d.testFrom ((x.ptile + 1) % 18)).getD 0) := by
  cases v <;> simp only [State.testEnd, h]

/-! ### Bond lanes that fail in service (R612 to R614) -/

variable {n k l : Nat}

/-- The lane is known, or the main die is down. -/
def bondKnown (s : State) (e : Nat × Nat) : Prop := s.mainUp = false ∨ e ∈ s.flash.bondBad ∨ e ∈ s.fb.bondBad

theorem bondKnown_iff {e : Nat × Nat} :
    (!s.mainUp || s.flash.bondBad.contains e || s.fb.bondBad.contains e) = true ↔ bondKnown s e := by
  simp [bondKnown, or_assoc]

theorem laneFault_of_known (h : bondKnown s (n, 146 * k + l)) : s.laneFault n k l = s := if_pos (bondKnown_iff.2 h)

/-- The ledger entry of a lane that no spare replaces. -/
def unsparedEntry (n k l : Nat) : Repair := { kind := 4, place := n, index := 144 * k + l, source := 4 }

/-- A lane that no spare replaces is in the ledger, and its sub-channel shows it. -/
def laneUnspared (s : State) (n k l : Nat) : State :=
  let b := s.ledger (unsparedEntry n k l) fun f => { f with bondBad := f.bondBad ++ [(n, 146 * k + l)] }
  b.setReg (Reg.fbLoftUnrepaired.ix n) (b.reg (Reg.fbLoftUnrepaired.ix n) ||| 1 <<< k)

/-- The ledger numbers a lane by its sub-channel's 144 lanes and its place among those and the spares. -/
theorem bondRepair_eq (hl : l < 146) : bondRepair (n, 146 * k + l) 4 false = unsparedEntry n k l := by
  have hsub : (146 * k + l) / 146 = k := by omega
  have hlane : (146 * k + l) % 146 = l := by omega
  simp only [bondRepair, unsparedEntry, hsub, hlane]

theorem laneFault_of_unspared (hl : l < 146) (h : ¬bondKnown s (n, 146 * k + l)) (hfew : ¬s.badLanes n k < 2) :
    s.laneFault n k l = if s.badLanes n k = 2
      then (laneUnspared s n k l).raise (mkReport fcLoftLane 1 (bondUnit n k l) 0 true)
      else ((laneUnspared s n k l).setFlag (Reg.fbLoftWithdrawn.ix n) true).raise
        (mkReport fcLoftSlice 2 (bondUnit n k l) 0 true) := by
  rw [laneUnspared, ← bondRepair_eq hl]
  exact (if_neg (bondKnown_iff.not.2 h)).trans (if_neg hfew)

theorem laneFault_of_spare (h : ¬bondKnown s (n, 146 * k + l)) (hspare : s.badLanes n k < 2) :
    s.laneFault n k l = { s with fb := { s.fb with bondBad := s.fb.bondBad ++ [(n, 146 * k + l)] } } :=
  (if_neg (bondKnown_iff.not.2 h)).trans (if_pos hspare)

end

/-- Settles O53: the layouts by adding their fields one above the other, the test and the lanes by case. -/
theorem faultRecordsAndUnits : Obligations.FaultRecordsAndUnits := by
  refine ⟨faultRec_fields, ⟨repair_fields, fun e => ⟨ledgerApplied_of_applying, fun h => if_neg (Nat.not_le.2 h)⟩⟩,
    fun t v sl sub lane s => ?_⟩
  have htest := runs_rotatingTestComplete t v s
  have hlane := runs_bondLaneFault t sl sub lane s
  exact ⟨fun hnone => runs_congr htest (testEnd_of_none hnone v), fun x hx => runs_congr htest (testEnd_of_some hx v),
    fun hknown => runs_congr hlane (laneFault_of_known hknown),
    fun hnew hspare => runs_congr hlane (laneFault_of_spare hnew hspare),
    fun hnew hthird => runs_congr hlane ((laneFault_of_unspared lane.isLt hnew (by omega)).trans (if_pos hthird)),
    fun hnew hmore => runs_congr hlane ((laneFault_of_unspared lane.isLt hnew (by omega)).trans (if_neg (by omega)))⟩

end Sys2Proof.Proofs
